-- ==== Sys2Proof/Syntax.lean ====
section
/-! DEFINITION. The commands of the block, one constructor for each row of the opcode table, with the operand types they carry:
bus and link messages, received windows and frames, the words peas fetch, and program images as structured data. -/

namespace Sys2Proof

/-- The three peas (R44). -/
inductive PeaId where
  | a | b | c
deriving DecidableEq, Repr

/-- The four memories of a pea, numbered as `PEA_x_MEMERR.MEM` numbers them. -/
inductive MemKind where
  | mram | sram | scratch | ctx
deriving DecidableEq, Repr

/-- Who writes a register: an OHP session or a service core. -/
inductive Writer where
  | host (session : Nat)
  | core (c : Nat)
deriving DecidableEq, Repr

/-! ### The program image as structured data

The byte layout of the sealed parts of a program image is set by the Nalhomer tool suite and is not in the spec, so an image
is carried as the data that the spec says it holds. -/

/-- One entry of the symbol table as the image stores it: the identifier it defines and its two words (R111). -/
structure SymbolEntry where
  id : Nat
  word0 : Word
  word1 : Word
deriving DecidableEq, Repr

/-- A symbol as its entry gives it (R111). `edge` is [31:30] of word 1 for an edge detector and `owner` the owning slot of a timer;
`rsv` is non-zero when a bit of the entry that must be 0 is set. -/
structure Symbol where
  id : Nat
  ty : Nat
  cls : Nat
  array : Bool
  image : Bool
  addr : Nat
  owner : Nat
  edge : Nat
  len : Nat
  rsv : Nat
deriving DecidableEq, Repr

/-- What of the task table (R123, R125) has no field in `TASK_CFGs`. -/
structure TaskDef where
  slot : Nat
  entry : Nat
  first : Nat
  last : Nat
  maxOps : Nat
  maxTok : Nat
  watch : List Nat
  kinds : List Nat
  timers : List Nat
deriving DecidableEq, Repr

/-- What a word of the input image area takes at delivery (R31 to R34). -/
inductive ImgSource where
  | elems (ctrl lo : Nat)
  | cnt (ctrl : Nat)
  | age (ctrl : Nat)
  | lost (ctrl : Nat)
  | fresh (ctrl : Nat)
  | localIn
  | localLost
  | sfb
  | ringCycle
  | reqCount
  | reqWord (i w : Nat)
deriving DecidableEq, Repr

/-- The part of a session table entry (R308) that has no register: sender identity and peer addresses. -/
structure SessionDef where
  session : Nat
  sender : Word
  peers4 : List Word
  peers6 : List (BitVec 128)
deriving DecidableEq, Repr

/-- A program image. `regs` gives the register fields whose Reset column says "img" (address and value), `regsQ` those that differ in unit Q
(R302); `orders` the order tables of rings A0, A1, B0, B1 (R259), with window positions, 0x400 for P or the single unit and 0x401 for Q;
`code` and `initial` words by offset in the half and by data SRAM address. -/
structure Program where
  imgId : Word
  base : Word
  compat : Nat
  famlvl : Nat
  seg : Nat
  symbolTable : List SymbolEntry
  tasks : List TaskDef
  objects : List Nat
  objectNumbers : List Nat
  bindings : List (Nat × Word)
  code : List (Nat × Word)
  declared : List (Nat × Nat)
  scratchDeclared : List (Nat × Nat)
  bank0 : Nat
  bank1 : Nat
  bankWords : Nat
  imageLayout : List (Nat × ImgSource)
  initial : List (Nat × Word)
  ive : List Word
  regs : List (Nat × Word)
  regsQ : List (Nat × Word)
  orders : List (List Nat)
  windowTable : Word
  sessions : List SessionDef
  channelRecord : List Word
deriving DecidableEq, Repr

/-- Where a code violation or a stall is seen (R43): a pea's stage group, a voter, an IVE half (0 not attributable, 1, 2, 3
both), or the vital half of the boundary bridge (R354). -/
inductive FaultSite where
  | pea (p : PeaId) (group : Nat)
  | voter (v : Nat)
  | ive (half : Nat)
  | bridge
deriving DecidableEq, Repr

/-- What a stretch of the IVE's scrub finds (R168): nothing (`passes` full passes ended, `corrected` single-bit errors), a
difference between the halves, or an uncorrectable word of a table or of the state store in a half. -/
inductive IveFinding where
  | clean (passes corrected : Nat)
  | difference
  | badTable (half : Nat)
  | badState (half : Nat)
deriving DecidableEq, Repr

/-- What the two halves of the IVE find while they decide a token (R166, R167): agreement, with the single-bit errors corrected on the
way and whether their state digests have come apart since (R201), a difference, or an uncorrectable word of a table or of the state store in a
half. -/
inductive IveCheck where
  | agree (corrected : Nat) (apart : Bool)
  | differ
  | badTable (half : Nat)
  | badState (half : Nat)
deriving DecidableEq, Repr

/-- An IP address. -/
inductive IpAddr where
  | v4 (a : Word)
  | v6 (a : BitVec 128)
deriving DecidableEq, Repr

/-- The vital envelope (R311). `rsv` and `rsv20` are its reserved bytes 2 to 3 and 20 to 23. -/
structure Envelope where
  ever : Byte
  keyid : Byte
  rsv : BitVec 16
  sender : Word
  tsend : BitVec 64
  ackseq : Word
  rsv20 : Word
  mac : BitVec 64
deriving DecidableEq, Repr

/-- The channels of the SFB that see something (R223). -/
inductive SfbChannel where
  | both | sfb1 | sfb2
deriving DecidableEq, Repr

/-- What is found not to be open though it is to be (R213, R217): a channel, the group switch, or VRD. -/
inductive StuckAt where
  | channel (c : Fin 32)
  | group
  | vrd
deriving DecidableEq, Repr

/-- An input of a safety function in demand, A or B, and the channels of the SFB that see it (R223, R225). -/
structure SfbSight where
  onB : Bool
  seenBy : SfbChannel
deriving DecidableEq, Repr

/-- What a boundary meets: the delivery of the image has not ended (R35); the ports on whose IN no code group has come since the boundary
before. -/
structure BoundarySight where
  late : Bool
  dark : List (Fin 4)
deriving DecidableEq, Repr

/-- The position whose timer expires, and whether the two voters differ on it (R78, R81, R82). -/
structure VoterTimer where
  position : Nat
  differ : Bool
deriving DecidableEq, Repr

/-- What is read back of a staged image (R142, R198): bits of words that the pea, and the banks of half 1 and half 2 of the IVE, hold
otherwise than written. -/
structure ReadBack where
  pea : List (Nat × Word)
  ive1 : List (Nat × Word)
  ive2 : List (Nat × Word)
deriving DecidableEq, Repr

/-- What a JREAD asks for, and the journal entries, by index, whose check fails (R326). -/
structure JournalRead where
  count : Byte
  spoilt : List Word
deriving DecidableEq, Repr

/-- An OHP message as it arrives (R304, R305): port, source address and port, the header fields but TYPE (which the command
names), the value of the payload's reserved bytes, any bytes beyond the payload the command names, and the envelope. -/
structure OhpMsg where
  port : Fin 2
  src : IpAddr
  srcPort : BitVec 16
  magic : BitVec 16
  ver : Byte
  session : Byte
  flags : Byte
  len : BitVec 16
  sseq : Word
  sepoch : Word
  tag : Word
  status : Byte
  unit : Byte
  detail : BitVec 16
  rsv : Word
  tail : List Byte
  env : Option Envelope
deriving DecidableEq, Repr

/-- What a step of START finds (R391): in step 1 a user calibration or a repair record whose CRC fails, in step 3 a seal whose CRC
or serial does not match, in step 5 the energy stage test and the seven results of the injection test of each voter (R102). -/
structure StartFinding where
  calBad : Bool
  repairBad : Bool
  sealBad : Bool
  energyOk : Bool
  v1 : BitVec 7
  v2 : BitVec 7
deriving DecidableEq, Repr

/-- An operation of a key package (R411); `bad` is one that is not well formed. -/
inductive KeyOp where
  | sessionKey (session slot : Nat) (key : List Byte)
  | retire (session slot : Nat)
  | imageKey (program : Bool) (gen : Nat) (key : List Byte)
  | lifecycle (target : Nat) (ownerHash : List Byte)
  | bad
deriving DecidableEq, Repr

/-- What the plaintext of an image holds (R415): firmware, a program with the outcome of its UBC part's seal, or the operations of a
key package. -/
inductive ImageContent where
  | firmware
  | program (p : Program) (soundSeal : Bool)
  | keys (ops : List KeyOp)
deriving DecidableEq, Repr

/-- What a host port ignores (R303): a frame that is discarded, or an OHP message of a reserved type, which is refused. -/
inductive Ignored where
  | frame
  | reservedType (m : OhpMsg) (type : Byte)
deriving DecidableEq, Repr

/-- An update transfer datagram as it arrives (R417, R421): on a host port, or on SVC (`none`), with whether the frame's CRC held, the
source, and the header fields but TYPE, which the command names. -/
structure UpdMsg where
  port : Option (Fin 2)
  src : IpAddr
  ver : Byte
  session : Byte
  flags : Byte
  len : BitVec 16
  xid : Word
  offset : Word
  crcOk : Bool
deriving DecidableEq, Repr

/-- An update transfer datagram sent (R417). -/
structure UpdOut where
  port : Option (Fin 2)
  type : Byte
  session : Byte
  xid : Word
  payload : List Byte
deriving DecidableEq, Repr

/-! ### Input images and what crosses the twin link (spec 01, 09) -/

/-- A window as it was received: the 16 element status codes (4 bits each, element 0 lowest), the input sample counter and
whether its seal was valid. -/
structure RxWindow where
  status : BitVec 64
  cnt : Byte
deriving DecidableEq, Repr

/-- The input entry of one controller (R31, R32). -/
structure CtrlEntry where
  addr : Nat
  status : BitVec 64
  cnt : Byte
  age : Nat
  lost : Bool
  heard : Bool
  lostCycles : Nat
  rxA : Option RxWindow
  rxB : Option RxWindow
deriving DecidableEq, Repr

/-- A request record of R317 as an image carries it. -/
structure ReqRec where
  num : Word
  session : Nat
  kind : Byte
  params : List Word
  stamp : Nat
deriving DecidableEq, Repr

/-- A closed input image (R31 to R34). -/
structure Image where
  rc : Word
  entries : List CtrlEntry
  localIn : Word
  localLost : Word
  sfb : Word
  reqs : List ReqRec
deriving DecidableEq, Repr

/-- An OHP message sent (R304 to R306). -/
structure OhpOut where
  port : Fin 2
  dst : IpAddr
  dstPort : BitVec 16
  type : Byte
  session : Nat
  sseq : Word
  sepoch : Word
  tag : Word
  status : Byte
  unit : Byte
  detail : BitVec 16
  payload : List Byte
  env : Option Envelope
deriving DecidableEq, Repr

/-- A vital host message that a non-active unit forwards (R288, R312): OPEN, CLOSE or a REQUEST with its kind and parameters. -/
inductive HostReq where
  | opening (nonce : BitVec 64)
  | closing
  | request (kind : Byte) (params : List Word)
deriving DecidableEq, Repr

/-- An ORDER record (R288): what the partner needs to journal a request, to carry out one addressed to it, and to follow a new
session epoch. -/
structure OrderRec where
  num : Word
  session : Nat
  sseq : Word
  stamp : Nat
  kind : Byte
  sepoch : Word
  params : List Word
  imgRc : Word
  claim : Word
  serial : Word
  digest : List Byte
  mac : BitVec 64
deriving DecidableEq, Repr

/-- The fields of a twin frame but its payload, as they are received (R281), with the serial of its sender, which only the seal holds, and
whether only the code groups of R233 occurred in it. -/
structure TwinHdr where
  type : Byte
  flags : Byte
  len : BitVec 16
  seq : Word
  vcyc : Word
  serial : Word
  check : Word
  codeOk : Bool
deriving DecidableEq, Repr

/-- What the active unit has done with a session, as its partner gets to know it (R310): the session as it stands, the message taken last
with its MAC and its reply, and the nonce of an OPEN. -/
structure SessNews where
  session : Nat
  isOpen : Bool
  sepoch : Word
  key : Nat
  txSeq : Word
  taken : Option (Word × BitVec 64 × Option OhpOut)
  nonce : Option (BitVec 64)
deriving DecidableEq, Repr

/-- What a FWD frame carries (R288): a request that waits for its order, with its stamp once it has one (R299), the
response to one, news of a session (R310), or the decision of a request whose target is the sender (R453). -/
inductive FwdBody where
  | request (m : OhpMsg) (r : HostReq) (stamp : Option Nat)
  | response (o : OhpOut)
  | session (n : SessNews)
  | decided (num : Word) (code : Nat)
deriving DecidableEq, Repr

/-- The payload of a twin frame (R282, R284). -/
inductive TwinBody where
  | sync (n offset : Word) (time : Nat) (rc : Word)
  | probe (n : Word)
  | echo (n turnaround : Word)
  | readyStart (letter id1 compat : Nat)
  | xferReq (imgId tblId : Word)
  | xferAccept (cycle : Word)
  | xferRefuse (cause : Nat)
  | xferNeed (cycle : Word) (blocks : List Nat)
  | xarm (x build : Word)
  | xready (build : Word)
  | xgo (x : Word)
  | xabort (x : Word) (code : Nat)
  | swapArm (cycle : Word) (epoch : Nat)
  | swapAck (cycle : Word)
  | swapGo (cycle : Word)
  | swapAbort (cycle : Word) (code : Nat)
  | sched (cycle : Word) (kind : Nat)
  | image (img : Image)
  | order (o : OrderRec)
  | fwd (f : FwdBody)
  | status (n claim : Word) (state tflags : Nat) (dig sdig : BitVec 64)
  | bdig (n : Word) (digests : List (BitVec 64))
  | block (number : Nat) (cycle : Word) (words : List Word)
  | pad
deriving DecidableEq, Repr

/-- One of the frames that carry an input image, by its number (R287). -/
structure ImagePart where
  image : Image
  part : Nat
deriving DecidableEq, Repr

/-- One of the three frames that carry the block digests, by its number (R282). -/
structure DigestPart where
  digests : List (BitVec 64)
  part : Nat
deriving DecidableEq, Repr

/-! ### The Snirin ring (spec 08) -/

/-- The header of a frame as the guardian of a port sees it (R266). -/
structure OrderRx where
  port : Fin 4
  header : List Byte
deriving DecidableEq, Repr

/-- A ring frame (R235): the 32 bytes of its header, its windows of 32 bytes (unit windows first) and the 6 bytes of its trailer.
`codeOk` says that only the code groups of R233 occurred in it. -/
structure RingFrame where
  header : List Byte
  windows : List (List Byte)
  trailer : List Byte
  codeOk : Bool
deriving DecidableEq, Repr

/-- A slip of the elastic buffer (R251): before data code group `pos` of the frame, counted from the header, a group is inserted
(`group`) or one is dropped (`none`). -/
structure Slip where
  pos : Nat
  group : Option (BitVec 4)
deriving DecidableEq, Repr

/-- A frame as a port receives it: the slip of the port's elastic buffer in it, and the frequency of IN less the own clock in units of
0.1 ppm (R252); `ago` is the number of ticks since its start delimiter arrived at IN. -/
structure RingRx where
  frame : RingFrame
  slip : Option Slip
  drift : Int
  ago : Nat
deriving DecidableEq, Repr

/-- The commands: one constructor for each row of the opcode table, in its order. -/
inductive Instr where
  /-- VITAL_CYCLE_BOUNDARY (R127). -/
  | vitalCycleBoundary (b : BoundarySight) (bad : List PeaId)
  /-- TASK_DEADLINE (R129). -/
  | taskDeadline
  /-- COMMIT_POINT (R37, R201). -/
  | commitPoint
  /-- IVE_TIMER_EXPIRY (R190). -/
  | iveTimerExpiry
  /-- RING_CYCLE_START (R248). -/
  | ringCycleStart
  /-- COMMAND_SECTION_COMPOSE (R207). -/
  | commandSectionCompose
  /-- IMAGE_CLOSE (R31). -/
  | imageClose
  /-- FRAME_RETURN (R263). -/
  | frameReturn (r : Fin 4) (f : RingRx)
  /-- COLD_FRAME (R255). -/
  | coldFrame (r : Fin 4) (f : RingRx)
  /-- SURVEY_FRAME (R257). -/
  | surveyFrame (r : Fin 4) (f : RingRx)
  /-- RUN_FRAME (R249). -/
  | runFrame (r : Fin 4) (f : RingRx)
  /-- STOP_FRAME (R258). -/
  | stopFrame (r : Fin 4) (f : RingRx)
  /-- BYPASS_ORDER (R266). -/
  | bypassOrder (o : OrderRx)
  /-- CUT_NEXT_ORDER (R266). -/
  | cutNextOrder (o : OrderRx)
  /-- JOIN_ORDER (R266). -/
  | joinOrder (o : OrderRx)
  /-- CUT_SIGNAL_DETECTED (R266). -/
  | cutSignalDetected (r : Fin 4)
  /-- RELAY_OPERATED (R261). -/
  | relayOperated (r : Fin 4)
  /-- LISTEN_TIMEOUT (R254). -/
  | listenTimeout (r : Fin 4)
  /-- PASS_TIMEOUT (R254). -/
  | passTimeout (r : Fin 4)
  /-- BACKOFF_END (R255). -/
  | backoffEnd (r : Fin 4)
  /-- COLD_TO_SURVEY (R255). -/
  | coldToSurvey (r : Fin 4)
  /-- SURVEY_END (R257). -/
  | surveyEnd (r : Fin 4)
  /-- STOP_SEQUENCE_END (R258). -/
  | stopSequenceEnd (r : Fin 4)
  /-- HALT (R258). -/
  | halt (r : Fin 4)
  /-- READMIT (R267). -/
  | readmit (r : Fin 4) (pos : BitVec 10)
  /-- RING_HANDBACK (R280). -/
  | ringHandback (r : Fin 4)
  /-- HEARTBEAT_TRANSITION (R87). -/
  | heartbeatTransition (voter : Bool)
  /-- RESERVOIR_DISCHARGED (R205). -/
  | reservoirDischarged
  /-- CODE_VIOLATION (R43). -/
  | codeViolation (site : FaultSite)
  /-- STALL_TIMEOUT (R43). -/
  | stallTimeout (site : FaultSite)
  /-- TIMEBASE_WINDOW_END (R64). -/
  | timebaseWindowEnd (count : Nat)
  /-- OSCILLATOR_STOPPED (R65). -/
  | oscillatorStopped (b : Bool)
  /-- CORE_RAIL_OUT_OF_WINDOW (R57). -/
  | coreRailOutOfWindow (high : Bool)
  /-- TOKEN_COPY_ARRIVAL (R81). -/
  | tokenCopyArrival (p : PeaId) (mask : BitVec 128) (differ : Bool)
  /-- SKEW_TIMER_EXPIRY (R82). -/
  | skewTimerExpiry (x : VoterTimer)
  /-- SPLIT_TIMER_EXPIRY (R81). -/
  | splitTimerExpiry (x : VoterTimer)
  /-- HELD_RELEASE (R77). -/
  | heldRelease (p : PeaId)
  /-- PATH_RETEST_END (R98). -/
  | pathRetestEnd (p : PeaId) (pass : Bool)
  /-- PEA_SELF_TEST_END (R398). -/
  | peaSelfTestEnd (p : PeaId) (pass : Bool) (repairs : List Word)
  /-- REJOIN_WINDOW (R100). -/
  | rejoinWindow
  /-- REJOIN_TIMEOUT (R101). -/
  | rejoinTimeout
  /-- RESEED_COPY (R96). -/
  | reseedCopy
  /-- ROTATION_TEST_DUE (R99). -/
  | rotationTestDue
  /-- ROTATION_TEST_RETRY (R99). -/
  | rotationTestRetry
  /-- ROT_REQ (R99). -/
  | rotReq
  /-- PEA_SCRUB_SLICE (R49). -/
  | peaScrubSlice (p : PeaId) (words : Nat) (strikes : List (MemKind × Nat × Option Nat))
  /-- IVE_SCRUB (R168). -/
  | iveScrub (finding : IveFinding)
  /-- IVE_LOCK (R184). -/
  | iveLock (h : IveCheck)
  /-- IVE_POINT (R185). -/
  | ivePoint (h : IveCheck)
  /-- IVE_SIGNAL (R186). -/
  | iveSignal (h : IveCheck)
  /-- IVE_RELEASE_NORMAL (R188). -/
  | iveReleaseNormal (h : IveCheck)
  /-- IVE_RELEASE_CANCEL (R188). -/
  | iveReleaseCancel (h : IveCheck)
  /-- IVE_RELEASE_EMERGENCY (R188). -/
  | iveReleaseEmergency (h : IveCheck)
  /-- IVE_LIGHT_CHECK (R183). -/
  | iveLightCheck (h : IveCheck)
  /-- MOV (R107). -/
  | mov (p : PeaId) (w : BitVec 24)
  /-- LDI (R107). -/
  | ldi (p : PeaId) (w : BitVec 24)
  /-- LDIH (R107). -/
  | ldih (p : PeaId) (w : BitVec 24)
  /-- VCONST (R107). -/
  | vconst (p : PeaId) (w : BitVec 24)
  /-- LD (R112). -/
  | ld (p : PeaId) (w : BitVec 24)
  /-- ST (R117). -/
  | st (p : PeaId) (w : BitVec 24)
  /-- SYMH (R107). -/
  | symh (p : PeaId) (w : BitVec 24)
  /-- LDX (R107). -/
  | ldx (p : PeaId) (w : BitVec 24)
  /-- STX (R107). -/
  | stx (p : PeaId) (w : BitVec 24)
  /-- ADD (R115). -/
  | add (p : PeaId) (w : BitVec 24)
  /-- SUB (R115). -/
  | sub (p : PeaId) (w : BitVec 24)
  /-- MUL (R115). -/
  | mul (p : PeaId) (w : BitVec 24)
  /-- DIV (R115). -/
  | div (p : PeaId) (w : BitVec 24)
  /-- MIN (R107). -/
  | min (p : PeaId) (w : BitVec 24)
  /-- MAX (R107). -/
  | max (p : PeaId) (w : BitVec 24)
  /-- NEG (R107). -/
  | neg (p : PeaId) (w : BitVec 24)
  /-- ADDI (R107). -/
  | addi (p : PeaId) (w : BitVec 24)
  /-- AND (R107). -/
  | andOp (p : PeaId) (w : BitVec 24)
  /-- OR (R107). -/
  | orOp (p : PeaId) (w : BitVec 24)
  /-- XOR (R107). -/
  | xorOp (p : PeaId) (w : BitVec 24)
  /-- SHL (R107). -/
  | shl (p : PeaId) (w : BitVec 24)
  /-- SHR (R107). -/
  | shr (p : PeaId) (w : BitVec 24)
  /-- CEQ (R107). -/
  | ceq (p : PeaId) (w : BitVec 24)
  /-- CLT (R107). -/
  | clt (p : PeaId) (w : BitVec 24)
  /-- VCEQ (R114). -/
  | vceq (p : PeaId) (w : BitVec 24)
  /-- VCLT (R114). -/
  | vclt (p : PeaId) (w : BitVec 24)
  /-- VAND (R113). -/
  | vand (p : PeaId) (w : BitVec 24)
  /-- VOR (R113). -/
  | vor (p : PeaId) (w : BitVec 24)
  /-- VNOT (R113). -/
  | vnot (p : PeaId) (w : BitVec 24)
  /-- VXOR (R113). -/
  | vxor (p : PeaId) (w : BitVec 24)
  /-- VTONB (R113). -/
  | vtonb (p : PeaId) (w : BitVec 24)
  /-- VASSERT (R107). -/
  | vassert (p : PeaId) (w : BitVec 24)
  /-- BR (R109). -/
  | br (p : PeaId) (w : BitVec 24)
  /-- BT (R109). -/
  | bt (p : PeaId) (w : BitVec 24)
  /-- BF (R109). -/
  | bf (p : PeaId) (w : BitVec 24)
  /-- BNZ (R109). -/
  | bnz (p : PeaId) (w : BitVec 24)
  /-- BZ (R109). -/
  | bz (p : PeaId) (w : BitVec 24)
  /-- CALL (R109). -/
  | call (p : PeaId) (w : BitVec 24)
  /-- RET (R109). -/
  | ret (p : PeaId) (w : BitVec 24)
  /-- LOOP (R109). -/
  | loop (p : PeaId) (w : BitVec 24)
  /-- TSTART (R118). -/
  | tstart (p : PeaId) (w : BitVec 24)
  /-- TSTOP (R118). -/
  | tstop (p : PeaId) (w : BitVec 24)
  /-- TREAD (R118). -/
  | tread (p : PeaId) (w : BitVec 24)
  /-- TEXP (R118). -/
  | texp (p : PeaId) (w : BitVec 24)
  /-- EDGE (R120). -/
  | edge (p : PeaId) (w : BitVec 24)
  /-- EMIT_CMD (R121). -/
  | emitCmd (p : PeaId) (w : BitVec 24)
  /-- EMIT_POINT (R121). -/
  | emitPoint (p : PeaId) (w : BitVec 24)
  /-- EMIT_SIGNAL (R121). -/
  | emitSignal (p : PeaId) (w : BitVec 24)
  /-- EMIT_LOCK (R121). -/
  | emitLock (p : PeaId) (w : BitVec 24)
  /-- EMIT_RELEASE (R121). -/
  | emitRelease (p : PeaId) (w : BitVec 24)
  /-- EMIT_HRES (R121). -/
  | emitHres (p : PeaId) (w : BitVec 24)
  /-- END (R74). -/
  | endOp (p : PeaId) (w : BitVec 24)
  /-- TRAP (R122). -/
  | trap (p : PeaId) (w : BitVec 24)
  /-- EXCHANGE_CYCLE (R148). -/
  | exchangeCycle
  /-- MIGRATION_END (R150). -/
  | migrationEnd (p : PeaId)
  /-- STAGED_IMAGE_VERIFIED (R142, R198). -/
  | stagedImageVerified (p : PeaId) (found : ReadBack)
  /-- XREADY_TIMEOUT (R145). -/
  | xreadyTimeout
  /-- OPEN (R310). -/
  | openSession (m : OhpMsg) (nonce : BitVec 64)
  /-- CLOSE (R452). -/
  | closeSession (m : OhpMsg)
  /-- KEEP (R306). -/
  | keep (m : OhpMsg)
  /-- REG_READ (R347). -/
  | regRead (m : OhpMsg) (addr : Word) (words : BitVec 16)
  /-- REG_WRITE (R338). -/
  | regWrite (m : OhpMsg) (addr : Word) (words : BitVec 16) (data : List Word)
  /-- POSTED_WRITE_OUTCOME (R349). -/
  | postedWriteOutcome (conflict : Bool)
  /-- FENCE (R350). -/
  | fence (m : OhpMsg)
  /-- FENCE_ANSWER (R350). -/
  | fenceAnswer (lane : Fin 16)
  /-- PROGRAM_REQUEST (R313). -/
  | programRequest (m : OhpMsg) (kind : Byte) (params : List Word)
  /-- FORCE_SET (R158). -/
  | forceSet (m : OhpMsg) (sym elem value : Word)
  /-- FORCE_CLEAR (R158). -/
  | forceClear (m : OhpMsg) (sym elem : Word)
  /-- FORCE_CLEAR_ALL (R158). -/
  | forceClearAll (m : OhpMsg)
  /-- EXCHANGE_ARM (R144). -/
  | exchangeArm (m : OhpMsg) (flags : Word) (time : BitVec 64) (build : Word)
  /-- EXCHANGE_CANCEL (R144). -/
  | exchangeCancel (m : OhpMsg)
  /-- SWAP_REQUEST_ARM (R298). -/
  | swapRequestArm (m : OhpMsg) (time : BitVec 64)
  /-- SWAP_REQUEST_CANCEL (R298). -/
  | swapRequestCancel (m : OhpMsg)
  /-- SAFE_REQUEST (R453). -/
  | safeRequest (m : OhpMsg) (target : Word)
  /-- RESTART_REQUEST (R453). -/
  | restartRequest (m : OhpMsg) (target : Word)
  /-- RESTRICT_END (R296). -/
  | restrictEnd (m : OhpMsg)
  /-- RVWRITE (R339). -/
  | rvwrite (m : OhpMsg) (addr mask value : Word)
  /-- REC_CLEAR (R375). -/
  | recClear (m : OhpMsg)
  /-- ACTIVATE (R418). -/
  | activate (m : OhpMsg) (slot : Word) (time : BitVec 64)
  /-- TIMESET (R405). -/
  | timeset (m : OhpMsg) (time : BitVec 64)
  /-- QREAD (R320). -/
  | qread (m : OhpMsg) (queue index : Byte)
  /-- QCONSUME (R320). -/
  | qconsume (m : OhpMsg) (queue : Byte) (seq : Word)
  /-- QUE_CONSUME_WRITE (R329). -/
  | queConsumeWrite (c : Fin 4) (q : Fin 64) (seq : Word)
  /-- JREAD (R326). -/
  | jread (m : OhpMsg) (num : Word) (read : JournalRead)
  /-- WAKE (R408). -/
  | wake (m : OhpMsg) (serial : Word)
  /-- RESULT_TIMEOUT (R318). -/
  | resultTimeout (num : Word)
  /-- SESSION_IDLE_TIMEOUT (R310). -/
  | sessionIdleTimeout (lane : Fin 16)
  /-- SESSION_UNBLOCK (R312). -/
  | sessionUnblock (lane : Fin 16)
  /-- SESSION_PURGE (R322). -/
  | sessionPurge (lane : Fin 16)
  /-- COALESCE_WINDOW_END (R374). -/
  | coalesceWindowEnd
  /-- HOST_LINK_CHANGE (R301). -/
  | hostLinkChange (x : Fin 2) (up fdx : Bool)
  /-- ARP_REQUEST (R303). -/
  | arpRequest (x : Fin 2) (target : Word)
  /-- ICMP_ECHO_REQUEST (R303). -/
  | icmpEchoRequest (x : Fin 2) (dst src : IpAddr) (data : List Byte)
  /-- NEIGHBOUR_SOLICITATION (R303). -/
  | neighbourSolicitation (x : Fin 2) (target : BitVec 128)
  /-- MLD_QUERY (R303). -/
  | mldQuery (x : Fin 2)
  /-- DUPLICATE_ADDRESS_DETECTION (R302). -/
  | duplicateAddressDetection (x : Fin 2) (linkLocal duplicate : Bool)
  /-- IGNORED_FRAME (R303). -/
  | ignoredFrame (x : Fin 2) (f : Ignored)
  /-- SYNC_FRAME (R285). -/
  | syncFrame (h : TwinHdr) (n offset : Word) (time : Nat) (rc : Word)
  /-- PROBE_FRAME (R285). -/
  | probeFrame (h : TwinHdr) (n : Word)
  /-- ECHO_FRAME (R285). -/
  | echoFrame (h : TwinHdr) (n turnaround : Word)
  /-- PROBE_INTERVAL (R285). -/
  | probeInterval
  /-- READY_START (R278). -/
  | readyStart (h : TwinHdr) (letter id1 compat : Nat)
  /-- XFER_REQ (R291). -/
  | xferReq (h : TwinHdr) (imgId tblId : Word)
  /-- XFER_ACCEPT (R291). -/
  | xferAccept (h : TwinHdr) (cycle : Word)
  /-- XFER_REFUSE (R291). -/
  | xferRefuse (h : TwinHdr) (cause : Nat)
  /-- XFER_NEED (R291). -/
  | xferNeed (h : TwinHdr) (cycle : Word) (blocks : List Nat)
  /-- XARM (R145). -/
  | xarm (h : TwinHdr) (x build : Word)
  /-- XREADY (R145). -/
  | xready (h : TwinHdr) (build : Word)
  /-- XGO (R146). -/
  | xgo (h : TwinHdr) (x : Word)
  /-- XABORT (R146). -/
  | xabort (h : TwinHdr) (x : Word) (code : Nat)
  /-- SWAP_ARM (R298). -/
  | swapArm (h : TwinHdr) (cycle : Word) (epoch : Nat)
  /-- SWAP_ACK (R298). -/
  | swapAck (h : TwinHdr) (cycle : Word)
  /-- SWAP_GO (R299). -/
  | swapGo (h : TwinHdr) (cycle : Word)
  /-- SWAP_ABORT (R299). -/
  | swapAbort (h : TwinHdr) (cycle : Word) (code : Nat)
  /-- SCHED (R29). -/
  | sched (h : TwinHdr) (cycle : Word) (kind : Nat)
  /-- SWAP_ACK_TIMEOUT (R298). -/
  | swapAckTimeout
  /-- SWAP_CYCLE (R299). -/
  | swapCycle
  /-- IMAGE_FRAME (R287). -/
  | imageFrame (h : TwinHdr) (x : ImagePart)
  /-- ORDER_FRAME (R288). -/
  | orderFrame (h : TwinHdr) (o : OrderRec)
  /-- FWD_FRAME (R288). -/
  | fwdFrame (h : TwinHdr) (f : FwdBody)
  /-- STATUS_FRAME (R289). -/
  | statusFrame (h : TwinHdr) (n claim : Word) (st tflags : Nat) (dig sdig : BitVec 64)
  /-- BDIG_FRAME (R292). -/
  | bdigFrame (h : TwinHdr) (n : Word) (x : DigestPart)
  /-- STATE_FRAME (R290). -/
  | stateFrame (h : TwinHdr) (number : Nat) (cycle : Word) (words : List Word)
  /-- PAD_FRAME (R282). -/
  | padFrame (h : TwinHdr)
  /-- LINK_DOWN_TIMEOUT (R283). -/
  | linkDownTimeout
  /-- FIRST_ROLE_EVALUATION (R278). -/
  | firstRoleEvaluation
  /-- XFER_RETRY (R293). -/
  | xferRetry
  /-- XFER_CONVERGENCE_TIMEOUT (R293). -/
  | xferConvergenceTimeout
  /-- ACTIVATION_CYCLE (R419). -/
  | activationCycle
  /-- ACTIVATION_SWAP (R419). -/
  | activationSwap
  /-- TRIAL_TIMEOUT (R419). -/
  | trialTimeout
  /-- UPDATE_BEGIN (R417). -/
  | updateBegin (u : UpdMsg) (kind : Byte) (length : Word)
  /-- UPDATE_DATA (R417). -/
  | updateData (u : UpdMsg) (data : List Byte)
  /-- UPDATE_END (R417). -/
  | updateEnd (u : UpdMsg) (sigOk gtagOk : Bool) (content : ImageContent)
  /-- UPDATE_ABORT (R417). -/
  | updateAbort (u : UpdMsg)
  /-- UPDATE_QUERY (R417). -/
  | updateQuery (u : UpdMsg)
  /-- UPDATE_INFO (R417). -/
  | updateInfo (u : UpdMsg)
  /-- UPDATE_REBOOT (R417). -/
  | updateReboot (u : UpdMsg)
  /-- UPDATE_TIMEOUT (R417). -/
  | updateTimeout
  /-- FIELD_REFRESH (R432): the byte errors that each frame suffers on its way (an empty list for none), what the channels read back, and
  the measured currents and voltages. -/
  | fieldRefresh (downErr upErr : List Byte) (act : Word) (grp : Nat) (meas : List (Nat × Nat × Nat))
  /-- UPLINK_TIMEOUT (R433). -/
  | uplinkTimeout
  /-- DOWNLINK_TIMEOUT (R215). -/
  | downlinkTimeout
  /-- READBACK_FAULT (R213). -/
  | readbackFault (c : Fin 32)
  /-- STUCK_ON (R213). -/
  | stuckOn (x : StuckAt)
  /-- OFF_PULSE (R214). -/
  | offPulse (c : Fin 32) (falls : Bool)
  /-- OVERLOAD_LATCH (R428). -/
  | overloadLatch (c : Fin 32)
  /-- THERMAL_TRIP (R428). -/
  | thermalTrip (c : Fin 32)
  /-- GROUP_TRIP (R430). -/
  | groupTrip
  /-- GRPRST (R430). -/
  | grprst
  /-- CHFAULT_CLEAR (R213). -/
  | chfaultClear (mask : Word)
  /-- VF_CHANGE (R431). -/
  | vfChange (ok : Bool)
  /-- TPS_FOLDBACK (R435). -/
  | tpsFoldback (k : Fin 4)
  /-- TEST_PULSE (R227). -/
  | testPulse (k : Fin 4) (low sfbLow : Word)
  /-- SFB_DEMAND (R223, R225). -/
  | sfbDemand (f : Fin 8) (x : SfbSight)
  /-- SFB_DEMAND_END (R226). -/
  | sfbDemandEnd (f : Fin 8)
  /-- SFB_RESET (R225). -/
  | sfbReset (f : Fin 8)
  /-- SFB_DISC_FAULT (R226). -/
  | sfbDiscFault (f : Fin 8)
  /-- SFB_CHDIFF (R226). -/
  | sfbChdiff
  /-- LOR_CHANNEL_EDGE (R221). -/
  | lorChannelEdge (chB active : Bool)
  /-- LOR_STUCK (R221). -/
  | lorStuck (chB : Bool)
  /-- SAFE_AUTO_RESTART (R220). -/
  | safeAutoRestart
  /-- FEED_FAIL (R436). -/
  | feedFail (feedB : Bool)
  /-- FEED_OVERVOLTAGE (R436). -/
  | feedOvervoltage (feedB : Bool)
  /-- FEED_RETURN (R436). -/
  | feedReturn (feedB : Bool)
  /-- HOLDUP_SEQUENCE_END (R437). -/
  | holdupSequenceEnd
  /-- HOLDUP_CHARGED (R438). -/
  | holdupCharged
  /-- EXTERNAL_RESET (R389). -/
  | externalReset (a b : Bool)
  /-- RESET_RELEASE (R390). -/
  | resetRelease (svcBreak : Bool)
  /-- START_STEP_COMPLETE (R391). -/
  | startStepComplete (f : StartFinding)
  /-- BIST_SLICE_END (R394). -/
  | bistSliceEnd (pass : Bool) (detail : BitVec 16) (noSpare : Bool) (repairs : List Word)
  /-- STRAP_CHANGE (R9). -/
  | strapChange (straps : BitVec 4)
  /-- TAMPER (R412). -/
  | tamper (mesh : Bool)
  /-- WAKE_INPUT (R408). -/
  | wakeInput (active : Bool)
  /-- TIME_ALARM (R408). -/
  | timeAlarm
  /-- PPS_EDGE (R406). -/
  | ppsEdge
  /-- PPS_TIMEOUT (R406). -/
  | ppsTimeout
  /-- TIMEKEEPER_ALIGN (R402). -/
  | timekeeperAlign
  /-- TIME_FLOOR_SAVE (R403). -/
  | timeFloorSave
  /-- BRIDGE_PATH_RESET (R354). -/
  | bridgePathReset
  /-- RECORDER_WRITE (R368). -/
  | recorderWrite (n : Nat)
  /-- RECORDS_LOST_REPORT (R370). -/
  | recordsLostReport
  /-- RECORDER_ERASE_END (R376). -/
  | recorderEraseEnd
  /-- FIRMWARE_RECORD (R364). -/
  | firmwareRecord (core : Fin 4) (source : Word) (body : List Word)
  /-- SNAP (R382). -/
  | snap (c : Fin 4)
  /-- PERIODIC_SNAPSHOT (R382). -/
  | periodicSnapshot
  /-- SAMPLE_CLOSE (R384). -/
  | sampleClose (p : PeaId)
  /-- DOORBELL_RING (R341). -/
  | doorbellRing (c : Fin 4) (source : BitVec 10)
  /-- DOORBELL_WITHDRAW (R346). -/
  | doorbellWithdraw (c : Fin 4) (source : BitVec 10)
  /-- IRQ_CLAIM (R342). -/
  | irqClaim (c : Fin 4)
  /-- IRQ_DONE (R343). -/
  | irqDone (c : Fin 4) (source : BitVec 10)
  /-- CRC_GO (R356). -/
  | crcGo (c e : Fin 4)
  /-- CRC_RUN_END (R355). -/
  | crcRunEnd (e : Fin 4)
  /-- BANK_MODE_WRITE (R401). -/
  | bankModeWrite (c : Fin 4) (b : Fin 16) (mode : BitVec 2)
  /-- CAL_USER_WRITE (R413). -/
  | calUserWrite (c : Fin 4) (idx : Fin 8) (value : Word)
  /-- CAL_CLEAR (R413). -/
  | calClear (c : Fin 4)
  /-- EVT_CLEAR (R336). -/
  | evtClear (c : Fin 4) (page : Byte) (mask hw : Word)
  /-- EVTEN_WRITE (R336). -/
  | evtenWrite (c : Fin 4) (page : Byte) (value : Word)
  /-- EVTSET_WRITE (R336). -/
  | evtsetWrite (c : Fin 4) (page : Byte) (value : Word)
  /-- STATCLR (R335). -/
  | statclr (c : Fin 4) (page : Byte) (race : List (Nat × Nat × Nat))
  /-- PAGE_LOCK (R337). -/
  | pageLock (c : Fin 4) (page : Byte) (value : Word)
  /-- PAGE_LOCK_TIMEOUT (R337). -/
  | pageLockTimeout (page : Byte)
  /-- REGISTER_WRITE (R14). -/
  | registerWrite (c : Fin 4) (addr value : Word)
  /-- UNDEFINED_OPCODE (R106). -/
  | undefinedOpcode (p : PeaId) (w : Word)
  /-- FIELD_INPUT_SAMPLE (R426). -/
  | fieldInputSample (raw : Word)
  /-- LOR_PAIR_TIMEOUT (R221). -/
  | lorPairTimeout
  /-- TPS_FOLDBACK_END (R435). -/
  | tpsFoldbackEnd (k : Fin 4)
  /-- FEED_RECONNECT (R436). -/
  | feedReconnect (feedB : Bool)
  /-- TIMEKEEPER_SUPPLY_BREAK (R402). -/
  | timekeeperSupplyBreak
  /-- TWIN_FRAME_SENT (R282). -/
  | twinFrameSent
  /-- PEA_SELF_TEST_TIMEOUT (R98). -/
  | peaSelfTestTimeout (p : PeaId)
deriving DecidableEq, Repr

end Sys2Proof
end

