-- ==== Sys2Proof/Decode.lean ====
section
/-! DEFINITION. The words that spell commands.  The table gives no command any bits: commands come as events, not as words, so none is
spelled by a word. -/

namespace Sys2Proof

/-- The command that a word spells by the table's bits: no row has any. -/
def decodeTableWord (_nbits _w : Nat) : Option Instr := none

end Sys2Proof
end

