-- ==== Sys2Proof/Config.lean ====
section
/-! DEFINITION. The free values: results and contents that the spec leaves open, as constants with no body, so that no proof
can rest on a value of theirs. Each is named in a row of the assumption log. -/

namespace Sys2Proof.Config

/-- The stage group that a fault report names where R45, R54 and R122 do not say which group detects it, by trap cause (0 for
a program check mismatch): the trap causes but VBOOL, DIVZ and VCMP. (DESIGN CHOICE, log entry 11) -/
opaque faultGroup : Nat → BitVec 4

/-- How many instructions are past decode in a pea that enters HELD (R77), by the tick: the spec bounds the tokens they may add, not
their number. (DESIGN CHOICE, log entry 68) -/
opaque pastDecode : Nat → Nat

/-- The code of a record for an event that a rule says is recorded and R363 gives no code: 0 a symbol that a program exchange retypes, 1 an
array whose LEN it changes (R150), 2 a held trigger that it drops (R153), 3 a block of START (R393), 4 a repair record whose CRC fails
(R395), 5 a slice that fails at shut-down (R396), 6 a user calibration record that is rejected (R413). (DESIGN CHOICE, log entry 26) -/
opaque unlistedCode : Nat → BitVec 16

/-- The next state of the sampling shift register of R383, whose polynomial the spec does not give. (DESIGN CHOICE, log entry 12) -/
opaque lfsrNext : Word → Word

/-- Whether a state of the sampling shift register picks the instruction, with a probability of 1 in 2^N (R383). (DESIGN CHOICE, log entry 12) -/
opaque lfsrPick : Nat → Word → Bool

/-- The time of the IVE decision of a number, ns, before the bound of R196 is applied to it. (DESIGN CHOICE, log entry 13) -/
opaque iveCheckNs : Nat → BitVec 16

/-- The words of the IVE's state store with their addresses (R201), from the state as a list of numbers: the spec does not give the
layout. (DESIGN CHOICE, log entry 14) -/
opaque iveStateStore : List Nat → List (BitVec 21 × Word)

/-- Which ring's window an entry takes where the two input sample counters differ by 128, so that neither is the higher one (R31, R243):
the first ring's, by the first ring's counter. (DESIGN CHOICE, log entry 15) -/
opaque counterTie : BitVec 8 → Bool

/-- Station time at a start without a valid timekeeper (R403), by the number of the start: station time is then not SET. (DESIGN CHOICE,
log entry 16) -/
opaque unsetTime : Nat → BitVec 64

/-- What a register of live measurements reads (R16), by its address and the tick. (DESIGN CHOICE, log entry 17) -/
opaque liveWord : Nat → Nat → Word

/-- Spare columns of a bank that factory repair has left free (R395). (DESIGN CHOICE, log entry 18) -/
opaque bankSpares : Nat → BitVec 12

/-- The IPv4 link-local address that a unit in SPROUT chooses from its serial under RFC 3927 (R420). (DESIGN CHOICE, log entry 19) -/
opaque linkLocal4 : Word → Word

/-- The place of a journal entry in the journal's area of module MRAM (R324), by its index. (DESIGN CHOICE, log entry 20) -/
opaque journalPlace : Word → BitVec 16

/-- Whether the partner's slot of a number holds a VALID image of a build (R418), by slot, build and tick: the spec does not say how a
unit learns it. (DESIGN CHOICE, log entry 21) -/
opaque partnerHolds : Nat → Word → Nat → Bool

/-- How many ticks the scrub engine of a pea reads in a slice (R379, R380), by pea and tick: the spec gives the words of a slice, not its
time. (DESIGN CHOICE, log entry 80) -/
opaque scrubTicks : Nat → Nat → Nat

end Sys2Proof.Config
end

