-- ==== Sys2Proof/Machine/Crypto.lean ====
section
/-! DEFINITION. Byte order, check values and the cryptographic primitives the spec names: CRC of R355 and the CRC-32C of R72,
SHA-256 (FIPS 180-4, R324), AES-128 and AES-128-CMAC (NIST SP 800-38B, R311), and the 64-bit digest mixer's helpers. -/

namespace Sys2Proof.Machine

/-- The `n` bytes of `v`, least significant byte first. -/
def leBytes (n : Nat) (v : Nat) : List Byte :=
  (List.range n).map fun i => BitVec.ofNat 8 (v / 2 ^ (8 * i))

/-- The number spelt by bytes, least significant byte first. -/
def leNat : List Byte → Nat
  | [] => 0
  | b :: bs => b.toNat + 256 * leNat bs

/-- The bytes of one word, least significant byte first. -/
def wordBytes (w : Word) : List Byte := leBytes 4 w.toNat

/-- The bytes of words in order, each least significant byte first. -/
def wordsBytes (ws : List Word) : List Byte := ws.flatMap wordBytes

/-- `bs` cut or padded with zero bytes to `n` bytes. -/
def padBytes (n : Nat) (bs : List Byte) : List Byte := (bs ++ List.replicate (n - bs.length) 0).take n

/-- `bs` with its order of bits turned round. -/
def reverseBits (w : Nat) (v : Nat) : Nat :=
  (List.range w).foldl (fun a i => a * 2 + (v / 2 ^ i) % 2) 0

/-- One bit of the register of R355. -/
def crcBit (w poly reg : Nat) : Nat :=
  if reg.testBit (w - 1) then ((reg * 2) ^^^ poly) % 2 ^ w else (reg * 2) % 2 ^ w

/-- One byte of the loop of R355. -/
def crcByte (w poly : Nat) (refin : Bool) (reg : Nat) (b : Byte) : Nat :=
  let x := if refin then reverseBits 8 b.toNat else b.toNat
  let r := reg ^^^ (x * 2 ^ (w - 8))
  (List.range 8).foldl (fun a _ => crcBit w poly a) (r % 2 ^ w)

/-- The check value of R355 over bytes (the fold bytes come first in `bs`). -/
def crcGeneric (w poly init : Nat) (refin refout inv : Bool) (bs : List Byte) : Nat :=
  let reg := bs.foldl (crcByte w (poly % 2 ^ w) refin) (init % 2 ^ w)
  let reg := if refout then reverseBits w reg else reg
  if inv then reg ^^^ (2 ^ w - 1) else reg

/-- CRC-32C with the parameters of R72: polynomial 0x1EDC_6F41, reflected, initial value and final inversion all ones. -/
def crc32c (bs : List Byte) : Word :=
  BitVec.ofNat 32 (crcGeneric 32 0x1EDC6F41 0xFFFFFFFF true true true bs)

/-- Eight-byte polynomial step of AES: multiplication by x in GF(2^8) modulo 0x11B. -/
def xtime (b : Byte) : Byte := if b.msb then (b <<< 1) ^^^ 0x1B else b <<< 1

/-- Multiplication in GF(2^8) modulo 0x11B. -/
def gmul (a b : Byte) : Byte :=
  ((List.range 8).foldl (fun (p : Byte × Byte) i =>
    (if b.getLsbD i then p.1 ^^^ p.2 else p.1, xtime p.2)) (0, a)).1

/-- The square of a byte in GF(2^8). -/
def gsq (a : Byte) : Byte := gmul a a

/-- The multiplicative inverse in GF(2^8), `a ^ 254`; 0 for 0. -/
def ginv (a : Byte) : Byte :=
  let a2 := gsq a; let a4 := gsq a2; let a8 := gsq a4; let a16 := gsq a8
  let a32 := gsq a16; let a64 := gsq a32; let a128 := gsq a64
  gmul a2 (gmul a4 (gmul a8 (gmul a16 (gmul a32 (gmul a64 a128)))))

/-- The S-box of AES. -/
def aesSub (a : Byte) : Byte :=
  let b := ginv a
  b ^^^ b.rotateLeft 1 ^^^ b.rotateLeft 2 ^^^ b.rotateLeft 3 ^^^ b.rotateLeft 4 ^^^ 0x63

/-- The byte `i` of a list of bytes, 0 past its end. -/
def byteAt (bs : List Byte) (i : Nat) : Byte := bs.getD i 0

/-- Byte-wise exclusive or. -/
def xorBytes (a b : List Byte) : List Byte := List.zipWith (· ^^^ ·) a b

/-- The next round key of AES-128 from the present one. -/
def aesNextKey (rcon : Byte) (k : List Byte) : List Byte :=
  let t := [aesSub (byteAt k 13) ^^^ rcon, aesSub (byteAt k 14), aesSub (byteAt k 15), aesSub (byteAt k 12)]
  let w0 := xorBytes (k.take 4) t
  let w1 := xorBytes ((k.drop 4).take 4) w0
  let w2 := xorBytes ((k.drop 8).take 4) w1
  let w3 := xorBytes ((k.drop 12).take 4) w2
  w0 ++ w1 ++ w2 ++ w3

/-- SubBytes and ShiftRows of AES, the state in column order. -/
def aesSubShift (st : List Byte) : List Byte :=
  (List.range 16).map fun i => aesSub (byteAt st ((i + 4 * (i % 4)) % 16))

/-- MixColumns of AES. -/
def aesMix (st : List Byte) : List Byte :=
  (List.range 16).map fun i =>
    let c := 4 * (i / 4)
    let a := byteAt st (c + i % 4)
    let b := byteAt st (c + (i + 1) % 4)
    let d := byteAt st (c + (i + 2) % 4)
    let e := byteAt st (c + (i + 3) % 4)
    xtime a ^^^ (xtime b ^^^ b) ^^^ d ^^^ e

/-- Rounds 1 to 9 of AES-128 with the round constants given. -/
def aesRounds : List Byte → List Byte → List Byte → List Byte
  | [], k, st => xorBytes (aesSubShift st) (aesNextKey 0x36 k)
  | rc :: rcs, k, st =>
    let k' := aesNextKey rc k
    aesRounds rcs k' (xorBytes (aesMix (aesSubShift st)) k')

/-- AES-128 of one 16-byte block. -/
def aes128 (key block : List Byte) : List Byte :=
  aesRounds [0x01, 0x02, 0x04, 0x08, 0x10, 0x20, 0x40, 0x80, 0x1B] key (xorBytes block key)

/-- Doubling in GF(2^128) as NIST SP 800-38B gives the subkeys. -/
def cmacDouble (b : List Byte) : List Byte :=
  let v := b.foldl (fun a x => a * 256 + x.toNat) 0
  let d := (v * 2) % 2 ^ 128
  let d := if v.testBit 127 then d ^^^ 0x87 else d
  (leBytes 16 d).reverse

/-- The chain of AES-128-CMAC over the message in blocks; the fuel is the number of blocks. -/
def cmacLoop (key : List Byte) : Nat → List Byte → List Byte → List Byte
  | 0, _, x => x
  | n + 1, msg, x =>
    if msg.length ≤ 16 then
      let k1 := cmacDouble (aes128 key (List.replicate 16 0))
      let last := if msg.length = 16 then xorBytes msg k1
        else xorBytes (padBytes 16 (msg ++ [0x80])) (cmacDouble k1)
      aes128 key (xorBytes x last)
    else cmacLoop key n (msg.drop 16) (aes128 key (xorBytes x (msg.take 16)))

/-- AES-128-CMAC (NIST SP 800-38B). -/
def aesCmac (key msg : List Byte) : List Byte :=
  cmacLoop key (msg.length / 16 + 1) msg (List.replicate 16 0)

/-- `n` words spelt by a number, the most significant first. -/
def wordsOfNat (n v : Nat) : List Word := (List.range n).map fun i => BitVec.ofNat 32 (v / 2 ^ (32 * (n - 1 - i)))

/-- The constants of the 64 rounds of SHA-256, eight to a number. -/
def shaConstants : List Word :=
  ([0x428a2f9871374491b5c0fbcfe9b5dba53956c25b59f111f1923f82a4ab1c5ed5,
    0xd807aa9812835b01243185be550c7dc372be5d7480deb1fe9bdc06a7c19bf174,
    0xe49b69c1efbe47860fc19dc6240ca1cc2de92c6f4a7484aa5cb0a9dc76f988da,
    0x983e5152a831c66db00327c8bf597fc7c6e00bf3d5a7914706ca635114292967].flatMap (wordsOfNat 8)) ++
  ([0x27b70a852e1b21384d2c6dfc53380d13650a7354766a0abb81c2c92e92722c85,
    0xa2bfe8a1a81a664bc24b8b70c76c51a3d192e819d6990624f40e3585106aa070,
    0x19a4c1161e376c082748774c34b0bcb5391c0cb34ed8aa4a5b9cca4f682e6ff3,
    0x748f82ee78a5636f84c878148cc7020890befffaa4506cebbef9a3f7c67178f2].flatMap (wordsOfNat 8))

/-- The sum of a word over rotations to the right, the form of each of SHA-256's four sigma functions. -/
def rotSum (x : Word) (by_ : List Nat) : Word := by_.foldl (fun acc r => acc ^^^ x.rotateRight r) 0

/-- The message schedule: `n` further words in front of those already there, the newest first. -/
def shaSchedule : Nat → List Word → List Word
  | 0, ws => ws
  | n + 1, ws =>
    let back := fun (t : Nat) => ws.getD (t - 1) 0
    let small0 := rotSum (back 15) [7, 18] ^^^ (back 15 >>> 3)
    let small1 := rotSum (back 2) [17, 19] ^^^ (back 2 >>> 10)
    shaSchedule n ((back 16 + back 7 + small0 + small1) :: ws)

/-- One round of SHA-256 on its two registers of four words, the newest word of each first: `kw` is the round's constant plus its word. -/
def shaRound (st : List Word × List Word) (kw : Word) : List Word × List Word :=
  let top := fun (i : Nat) => st.1.getD i 0
  let low := fun (i : Nat) => st.2.getD i 0
  let choice := low 2 ^^^ (low 0 &&& (low 1 ^^^ low 2))
  let majority := (top 0 &&& (top 1 ||| top 2)) ||| (top 1 &&& top 2)
  let feed := kw + low 3 + choice + rotSum (low 0) [6, 11, 25]
  ((feed + majority + rotSum (top 0) [2, 13, 22]) :: st.1.take 3, (feed + top 3) :: st.2.take 3)

/-- The compression of one block into the eight chaining words. -/
def shaBlock (h : List Word) (block : List Byte) : List Word :=
  let first := wordsOfNat 16 (leNat block.reverse)
  let kws := List.zipWith (· + ·) shaConstants (shaSchedule 48 first.reverse).reverse
  let r := kws.foldl shaRound (h.take 4, h.drop 4)
  List.zipWith (· + ·) h (r.1 ++ r.2)

/-- The blocks of a padded message through the compression; the fuel is their number. -/
def shaBlocks : Nat → List Byte → List Word → List Word
  | 0, _, h => h
  | n + 1, bs, h => shaBlocks n (bs.drop 64) (shaBlock h (bs.take 64))

/-- SHA-256 (FIPS 180-4): a 1 bit, zeros, and the length in bits as 8 bytes fill the message up to whole blocks. -/
def sha256 (msg : List Byte) : List Byte :=
  let blocks := (msg.length + 72) / 64
  let zeros := 64 * blocks - msg.length - 9
  let padded := msg ++ 0x80 :: List.replicate zeros 0 ++ (leBytes 8 (8 * msg.length)).reverse
  (shaBlocks blocks padded
    (wordsOfNat 8 0x6a09e667bb67ae853c6ef372a54ff53a510e527f9b05688c1f83d9ab5be0cd19)).flatMap
    fun w => (wordBytes w).reverse

end Sys2Proof.Machine
end

