-- ==== Sys2Proof/Machine/Fields.lean ====
section
/-! DEFINITION. The names of the registers and of their fields, as the register tables of the spec give them: a register
is its address (0x4000_0000 + page × 0x1000 + offset, spec 00), a field its register and bits.  A register of PEA_x,
RNG_x or HSTx takes the pea, port or host link number; an array takes its index; event bits are numbers. -/

namespace Sys2Proof.Machine

/-- A field: the address of its register and its bit range. -/
structure Field where
  addr : Nat
  hi : Nat
  lo : Nat
deriving DecidableEq, Repr

/-- The address of the register at `off` of `page` (R331). -/
def regAddr (page off : Nat) : Nat := 0x40000000 + page * 0x1000 + off

namespace Page

def SYS : Nat := 0x00
def PWR : Nat := 0x01
def TIME : Nat := 0x02
def CAL : Nat := 0x03
def SEC : Nat := 0x04
def PEA (x : Nat) : Nat := 0x08 + x
def POD : Nat := 0x0B
def VOTE : Nat := 0x0C
def PROG : Nat := 0x10
def TASK : Nat := 0x11
def FORCE : Nat := 0x12
def IVE : Nat := 0x18
def IVT : Nat := 0x19
def OUT : Nat := 0x20
def SFB : Nat := 0x21
def FIO : Nat := 0x22
def RNG (x : Nat) : Nat := 0x28 + x
def RSCH : Nat := 0x2C
def TWIN : Nat := 0x30
def HST (x : Nat) : Nat := 0x38 + x
def SESS : Nat := 0x3A
def QUE : Nat := 0x3B
def IRQ : Nat := 0x40
def BRG : Nat := 0x41
def CRC : Nat := 0x42
def EVR : Nat := 0x48
def JRN : Nat := 0x49
def PMON : Nat := 0x4A
def BIST : Nat := 0x50
def MEM : Nat := 0x51
def UPD : Nat := 0x58

end Page

namespace Reg

def SYS_CAP0 : Nat := 0x40000008
def SYS_CAP1 : Nat := 0x4000000C
def SYS_STAT : Nat := 0x40000010
def SYS_SERIAL : Nat := 0x40000040
def SYS_START : Nat := 0x40000044
def SYS_STARTCNT : Nat := 0x40000048
def PWR_SLEEP : Nat := 0x40001040
def PWR_WAKEEN : Nat := 0x40001044
def PWR_WAKESRC : Nat := 0x40001048
def PWR_PARKPORT : Nat := 0x4000104C
def PWR_VIN : Nat := 0x40001050
def PWR_VF : Nat := 0x40001054
def PWR_HOLD : Nat := 0x40001058
def PWR_VCORE : Nat := 0x40001080
def PWR_DVSCTRL : Nat := 0x40001084
def PWR_DVSPARAM : Nat := 0x40001088
def PWR_DVSSTAT : Nat := 0x4000108C
def TIME_STAT : Nat := 0x40002010
def TIME_CTRL : Nat := 0x40002020
def TIME_NOWLO : Nat := 0x40002040
def TIME_NOWHI : Nat := 0x40002044
def TIME_ALARMLO : Nat := 0x40002048
def TIME_ALARMHI : Nat := 0x4000204C
def TIME_SLEW : Nat := 0x40002050
def TIME_PPS : Nat := 0x40002054
def TIME_TBCHK : Nat := 0x400020C0
def TIME_TBPHASE : Nat := 0x400020C4
def TIME_TBWORST : Nat := 0x400020C8
def CAL_STAT : Nat := 0x40003010
def CAL_CTRL : Nat := 0x40003020
def CAL_FACTi (i : Nat) : Nat := 0x40003100 + 4 * i
def CAL_USERi (i : Nat) : Nat := 0x40003140 + 4 * i
def CAL_EFFi (i : Nat) : Nat := 0x40003180 + 4 * i
def SEC_STAT : Nat := 0x40004010
def SEC_SLOTS : Nat := 0x40004040
def SEC_GEN : Nat := 0x40004044
def SEC_TAMPER : Nat := 0x40004048
def SEC_TAMPTLO : Nat := 0x4000404C
def SEC_TAMPTHI : Nat := 0x40004050
def SEC_DEVPUBj (i : Nat) : Nat := 0x40004100 + 4 * i
def SEC_OWNERj (i : Nat) : Nat := 0x40004140 + 4 * i
def PEA_x_CAP0 (x : Nat) : Nat := 0x40008008 + 0x1000 * x
def PEA_x_CAP1 (x : Nat) : Nat := 0x4000800C + 0x1000 * x
def PEA_x_STAT (x : Nat) : Nat := 0x40008010 + 0x1000 * x
def PEA_x_CTRL (x : Nat) : Nat := 0x40008020 + 0x1000 * x
def PEA_x_CYCLE (x : Nat) : Nat := 0x40008040 + 0x1000 * x
def PEA_x_CMPL (x : Nat) : Nat := 0x40008044 + 0x1000 * x
def PEA_x_MARGIN (x : Nat) : Nat := 0x40008048 + 0x1000 * x
def PEA_x_MARGINMIN (x : Nat) : Nat := 0x4000804C + 0x1000 * x
def PEA_x_OPS (x : Nat) : Nat := 0x40008050 + 0x1000 * x
def PEA_x_DRFILL (x : Nat) : Nat := 0x40008054 + 0x1000 * x
def PEA_x_ECCCNT (x : Nat) : Nat := 0x40008058 + 0x1000 * x
def PEA_x_MEMERR (x : Nat) : Nat := 0x4000805C + 0x1000 * x
def PEA_x_FAULT (x : Nat) : Nat := 0x40008060 + 0x1000 * x
def PEA_x_FAULTCNT (x : Nat) : Nat := 0x40008064 + 0x1000 * x
def PEA_x_TRAPPC (x : Nat) : Nat := 0x40008068 + 0x1000 * x
def PEA_x_IMGRC (x : Nat) : Nat := 0x4000806C + 0x1000 * x
def PEA_x_SCRUB (x : Nat) : Nat := 0x40008070 + 0x1000 * x
def PEA_x_PROGCHK (x : Nat) : Nat := 0x40008074 + 0x1000 * x
def POD_CAP0 : Nat := 0x4000B008
def POD_CAP1 : Nat := 0x4000B00C
def POD_STAT : Nat := 0x4000B010
def POD_CTRL : Nat := 0x4000B020
def POD_EVICT : Nat := 0x4000B040
def POD_EVICTCYC : Nat := 0x4000B044
def POD_EVICTCNT : Nat := 0x4000B048
def POD_RESEED : Nat := 0x4000B04C
def POD_RESEEDCNT : Nat := 0x4000B050
def POD_ROTCTRL : Nat := 0x4000B054
def POD_ROTNEXT : Nat := 0x4000B058
def POD_ROTLAST : Nat := 0x4000B05C
def POD_REJOIN : Nat := 0x4000B060
def POD_DIGLO : Nat := 0x4000B064
def POD_DIGHI : Nat := 0x4000B068
def POD_DIGCYC : Nat := 0x4000B06C
def VOTE_CAP0 : Nat := 0x4000C008
def VOTE_CAP1 : Nat := 0x4000C00C
def VOTE_STAT : Nat := 0x4000C010
def VOTE_CTRL : Nat := 0x4000C020
def VOTE_SKEW : Nat := 0x4000C040
def VOTE_FLAG : Nat := 0x4000C044
def VOTE_FLAGTAG : Nat := 0x4000C048
def VOTE_FLAGCNT : Nat := 0x4000C04C
def VOTE_SKEWMAX : Nat := 0x4000C050
def VOTE_TOKENS : Nat := 0x4000C054
def VOTE_CBUF : Nat := 0x4000C058
def VOTE_INJ : Nat := 0x4000C05C
def VOTE_KFAULT : Nat := 0x4000C060
def PROG_STAT : Nat := 0x40010010
def PROG_CTRL : Nat := 0x40010020
def PROG_IMGID : Nat := 0x40010040
def PROG_IMGVER : Nat := 0x40010044
def PROG_CYCLE : Nat := 0x40010048
def PROG_LC : Nat := 0x4001004C
def PROG_SYMS : Nat := 0x40010050
def PROG_DECL : Nat := 0x40010054
def PROG_OBJ : Nat := 0x40010058
def PROG_MAXTOK : Nat := 0x4001005C
def PROG_MAXOPS : Nat := 0x40010060
def PROG_BUDGET : Nat := 0x40010064
def PROG_CHECK : Nat := 0x40010068
def PROG_CODESZ : Nat := 0x4001006C
def PROG_TASKMAP : Nat := 0x40010070
def PROG_REFUSE : Nat := 0x40010074
def PROG_XSTAT : Nat := 0x40010080
def PROG_XCYCLE : Nat := 0x40010084
def PROG_XIMG : Nat := 0x40010088
def PROG_XBASE : Nat := 0x4001008C
def PROG_XTIME : Nat := 0x40010090
def PROG_XSYMS : Nat := 0x40010094
def PROG_XNEW : Nat := 0x40010098
def PROG_XFORCE : Nat := 0x4001009C
def TASK_STAT : Nat := 0x40011010
def TASK_CTRL : Nat := 0x40011020
def TASK_RELVEC : Nat := 0x40011040
def TASK_SKIPVEC : Nat := 0x40011044
def TASK_OVRVEC : Nat := 0x40011048
def TASK_HELDVEC : Nat := 0x4001104C
def TASK_SAFE : Nat := 0x40011050
def TASK_SAFECYC : Nat := 0x40011054
def TASK_CFGs (i : Nat) : Nat := 0x40011100 + 4 * i
def TASK_STATs (i : Nat) : Nat := 0x40011180 + 4 * i
def TASK_OPSs (i : Nat) : Nat := 0x40011200 + 4 * i
def FORCE_CAP0 : Nat := 0x40012008
def FORCE_STAT : Nat := 0x40012010
def FORCE_CTRL : Nat := 0x40012020
def FORCE_LAST : Nat := 0x40012040
def FORCE_REFCNT : Nat := 0x40012044
def FORCE_SYMe (i : Nat) : Nat := 0x40012100 + 16 * i
def FORCE_ELEMe (i : Nat) : Nat := 0x40012104 + 16 * i
def FORCE_VALe (i : Nat) : Nat := 0x40012108 + 16 * i
def FORCE_CYCe (i : Nat) : Nat := 0x4001210C + 16 * i
def IVE_CAP0 : Nat := 0x40018008
def IVE_CAP1 : Nat := 0x4001800C
def IVE_STAT : Nat := 0x40018010
def IVE_CTRL : Nat := 0x40018020
def IVE_TBLID : Nat := 0x40018040
def IVE_TBLCHK : Nat := 0x40018044
def IVE_HOLD : Nat := 0x40018048
def IVE_CYCCNT : Nat := 0x4001804C
def IVE_BUSY : Nat := 0x40018050
def IVE_CHKMAX : Nat := 0x40018054
def IVE_REFTOT : Nat := 0x40018058
def IVE_WDRTOT : Nat := 0x4001805C
def IVE_LASTREF : Nat := 0x40018060
def IVE_LASTREQ : Nat := 0x40018064
def IVE_LASTCYC : Nat := 0x40018068
def IVE_SDIGLO : Nat := 0x4001806C
def IVE_SDIGHI : Nat := 0x40018070
def IVE_KFAULT : Nat := 0x40018074
def IVE_LOADERR : Nat := 0x40018078
def IVE_SCRUB : Nat := 0x4001807C
def IVT_CTRL : Nat := 0x40019020
def IVT_ADDR : Nat := 0x40019040
def IVT_DATA : Nat := 0x40019044
def IVT_RAW : Nat := 0x40019048
def OUT_CAP0 : Nat := 0x40020008
def OUT_STAT : Nat := 0x40020010
def OUT_CTRL : Nat := 0x40020020
def OUT_CMD : Nat := 0x40020040
def OUT_ACT : Nat := 0x40020044
def OUT_CHFAULT : Nat := 0x40020048
def OUT_DARKEN : Nat := 0x4002004C
def OUT_SAFE : Nat := 0x40020050
def OUT_SAFECYC : Nat := 0x40020054
def OUT_SAFECFG : Nat := 0x40020058
def OUT_SAFECNT : Nat := 0x4002005C
def OUT_RINGEN : Nat := 0x40020060
def OUT_BARCNT : Nat := 0x40020064
def SFB_CAP0 : Nat := 0x40021008
def SFB_STAT : Nat := 0x40021010
def SFB_CTRL : Nat := 0x40021020
def SFB_LOR : Nat := 0x40021040
def SFB_TPS : Nat := 0x40021044
def SFB_CFGf (i : Nat) : Nat := 0x40021100 + 4 * i
def SFB_MASKf (i : Nat) : Nat := 0x40021140 + 4 * i
def SFB_STATf (i : Nat) : Nat := 0x40021180 + 4 * i
def FIO_CAP0 : Nat := 0x40022008
def FIO_CAP1 : Nat := 0x4002200C
def FIO_STAT : Nat := 0x40022010
def FIO_CTRL : Nat := 0x40022020
def FIO_IN : Nat := 0x40022040
def FIO_RAW : Nat := 0x40022044
def FIO_LOST : Nat := 0x40022048
def FIO_GRPI : Nat := 0x4002204C
def FIO_LINKERR : Nat := 0x40022050
def FIO_REFSEQ : Nat := 0x40022054
def FIO_CFGc (i : Nat) : Nat := 0x40022100 + 4 * i
def FIO_CHc (i : Nat) : Nat := 0x40022180 + 4 * i
def RNG_x_CAP0 (x : Nat) : Nat := 0x40028008 + 0x1000 * x
def RNG_x_CAP1 (x : Nat) : Nat := 0x4002800C + 0x1000 * x
def RNG_x_STAT (x : Nat) : Nat := 0x40028010 + 0x1000 * x
def RNG_x_CTRL (x : Nat) : Nat := 0x40028020 + 0x1000 * x
def RNG_x_CYCLE (x : Nat) : Nat := 0x40028040 + 0x1000 * x
def RNG_x_MCLAIM (x : Nat) : Nat := 0x40028044 + 0x1000 * x
def RNG_x_MSERIAL (x : Nat) : Nat := 0x40028048 + 0x1000 * x
def RNG_x_ROT (x : Nat) : Nat := 0x4002804C + 0x1000 * x
def RNG_x_HOPS (x : Nat) : Nat := 0x40028050 + 0x1000 * x
def RNG_x_WIN (x : Nat) : Nat := 0x40028054 + 0x1000 * x
def RNG_x_ERR (x : Nat) : Nat := 0x40028058 + 0x1000 * x
def RNG_x_SUSPECT (x : Nat) : Nat := 0x4002805C + 0x1000 * x
def RNG_x_SUSPCYC (x : Nat) : Nat := 0x40028060 + 0x1000 * x
def RNG_x_DRIFT (x : Nat) : Nat := 0x40028064 + 0x1000 * x
def RNG_x_COLD (x : Nat) : Nat := 0x40028068 + 0x1000 * x
def RNG_x_READMIT (x : Nat) : Nat := 0x4002806C + 0x1000 * x
def RSCH_CAP0 : Nat := 0x4002C008
def RSCH_STAT : Nat := 0x4002C010
def RSCH_NWIN : Nat := 0x4002C040
def RSCH_SCHEDID : Nat := 0x4002C044
def RSCH_NUNIT : Nat := 0x4002C048
def RSCH_ORDSEL : Nat := 0x4002C04C
def RSCH_ORDDATA : Nat := 0x4002C050
def RSCH_ORDLEN01 : Nat := 0x4002C054
def RSCH_ORDLEN23 : Nat := 0x4002C058
def RSCH_MISMATCH : Nat := 0x4002C05C
def RSCH_SCHEDFOR : Nat := 0x4002C060
def TWIN_CAP0 : Nat := 0x40030008
def TWIN_STAT : Nat := 0x40030010
def TWIN_CTRL : Nat := 0x40030020
def TWIN_CLAIM : Nat := 0x40030040
def TWIN_PCLAIM : Nat := 0x40030044
def TWIN_PSERIAL : Nat := 0x40030048
def TWIN_EPOCH : Nat := 0x4003004C
def TWIN_ALIGN : Nat := 0x40030050
def TWIN_LINKDLY : Nat := 0x40030054
def TWIN_XFER : Nat := 0x40030058
def TWIN_XFERLAST : Nat := 0x4003005C
def TWIN_DIGCMP : Nat := 0x40030060
def TWIN_DIGMISS : Nat := 0x40030064
def TWIN_WITNESS : Nat := 0x40030068
def TWIN_WITCFG : Nat := 0x4003006C
def TWIN_SWAP : Nat := 0x40030070
def TWIN_SWAPCYC : Nat := 0x40030074
def TWIN_LINKERR : Nat := 0x40030078
def TWIN_ROLECHG : Nat := 0x4003007C
def TWIN_ROLECYC : Nat := 0x40030080
def HSTx_STAT (x : Nat) : Nat := 0x40038010 + 0x1000 * x
def HSTx_CTRL (x : Nat) : Nat := 0x40038020 + 0x1000 * x
def HSTx_MACLO (x : Nat) : Nat := 0x40038040 + 0x1000 * x
def HSTx_MACHI (x : Nat) : Nat := 0x40038044 + 0x1000 * x
def HSTx_IP4 (x : Nat) : Nat := 0x40038048 + 0x1000 * x
def HSTx_IP4GW (x : Nat) : Nat := 0x4003804C + 0x1000 * x
def HSTx_PREFIX (x : Nat) : Nat := 0x40038050 + 0x1000 * x
def HSTx_IP6i (x : Nat) (i : Nat) : Nat := 0x40038060 + 0x1000 * x + 4 * i
def HSTx_IP6GWi (x : Nat) (i : Nat) : Nat := 0x40038070 + 0x1000 * x + 4 * i
def HSTx_RXCNT (x : Nat) : Nat := 0x40038080 + 0x1000 * x
def HSTx_DROP (x : Nat) : Nat := 0x40038084 + 0x1000 * x
def SESS_STAT : Nat := 0x4003A010
def SESS_CTRL : Nat := 0x4003A020
def SESS_DOMAIN : Nat := 0x4003A040
def SESS_REQNUM : Nat := 0x4003A044
def SESS_CFGs (i : Nat) : Nat := 0x4003A100 + 16 * i
def SESS_STATEs (i : Nat) : Nat := 0x4003A104 + 16 * i
def SESS_SEQs (i : Nat) : Nat := 0x4003A108 + 16 * i
def SESS_EPOCHs (i : Nat) : Nat := 0x4003A10C + 16 * i
def SESS_ERRs (i : Nat) : Nat := 0x4003A200 + 4 * i
def SESS_LOSSs (i : Nat) : Nat := 0x4003A240 + 4 * i
def QUE_STAT : Nat := 0x4003B010
def QUE_CFGq (i : Nat) : Nat := 0x4003B100 + 16 * i
def QUE_HEADq (i : Nat) : Nat := 0x4003B104 + 16 * i
def QUE_FILLq (i : Nat) : Nat := 0x4003B108 + 16 * i
def QUE_CONSUMEq (i : Nat) : Nat := 0x4003B10C + 16 * i
def IRQ_CAP0 : Nat := 0x40040008
def IRQ_CTRL : Nat := 0x40040020
def IRQ_DOORBELL : Nat := 0x40040040
def IRQ_RINGCNT : Nat := 0x40040044
def IRQ_SPURCNT : Nat := 0x40040048
def IRQ_CLAIMc (i : Nat) : Nat := 0x40040080 + 16 * i
def IRQ_CLAIMEDc (i : Nat) : Nat := 0x40040084 + 16 * i
def IRQ_DONEc (i : Nat) : Nat := 0x40040088 + 16 * i
def IRQ_THRc (i : Nat) : Nat := 0x4004008C + 16 * i
def IRQ_SRCn (i : Nat) : Nat := 0x40040100 + 4 * i
def BRG_CAP0 : Nat := 0x40041008
def BRG_STAT : Nat := 0x40041010
def BRG_CTRL : Nat := 0x40041020
def BRG_VTS : Nat := 0x40041040
def BRG_VTSDROP : Nat := 0x40041044
def BRG_BACKOFF : Nat := 0x40041048
def BRG_LOGHEAD : Nat := 0x4004104C
def BRG_ERRLOG0i (i : Nat) : Nat := 0x40041100 + 16 * i
def BRG_ERRLOG1i (i : Nat) : Nat := 0x40041104 + 16 * i
def BRG_ERRLOG2i (i : Nat) : Nat := 0x40041108 + 16 * i
def BRG_ERRLOG3i (i : Nat) : Nat := 0x4004110C + 16 * i
def BRG_PERRs (i : Nat) : Nat := 0x40041200 + 4 * i
def BRG_PERRCc (i : Nat) : Nat := 0x40041240 + 4 * i
def CRC_CAP0 : Nat := 0x40042008
def CRC_STAT : Nat := 0x40042010
def CRC_CFGe (i : Nat) : Nat := 0x40042100 + 64 * i
def CRC_POLYLOe (i : Nat) : Nat := 0x40042104 + 64 * i
def CRC_POLYHIe (i : Nat) : Nat := 0x40042108 + 64 * i
def CRC_INITLOe (i : Nat) : Nat := 0x4004210C + 64 * i
def CRC_INITHIe (i : Nat) : Nat := 0x40042110 + 64 * i
def CRC_FOLDLOe (i : Nat) : Nat := 0x40042114 + 64 * i
def CRC_FOLDHIe (i : Nat) : Nat := 0x40042118 + 64 * i
def CRC_SRCe (i : Nat) : Nat := 0x4004211C + 64 * i
def CRC_LENe (i : Nat) : Nat := 0x40042120 + 64 * i
def CRC_GOe (i : Nat) : Nat := 0x40042124 + 64 * i
def CRC_RESLOe (i : Nat) : Nat := 0x40042128 + 64 * i
def CRC_RESHIe (i : Nat) : Nat := 0x4004212C + 64 * i
def CRC_RESSTe (i : Nat) : Nat := 0x40042130 + 64 * i
def EVR_CAP0 : Nat := 0x40048008
def EVR_CAP1 : Nat := 0x4004800C
def EVR_STAT : Nat := 0x40048010
def EVR_CTRL : Nat := 0x40048020
def EVR_MODE : Nat := 0x40048040
def EVR_NEXTSEQ : Nat := 0x40048044
def EVR_WSLOT : Nat := 0x40048048
def EVR_OLDEST : Nat := 0x4004804C
def EVR_ROOTUSED : Nat := 0x40048050
def EVR_STAGE : Nat := 0x40048054
def EVR_RATE : Nat := 0x40048058
def EVR_LOSSc (i : Nat) : Nat := 0x40048060 + 4 * i
def EVR_LOSSQ49 : Nat := 0x40048070
def EVR_SUBs (i : Nat) : Nat := 0x40048100 + 4 * i
def JRN_CAP0 : Nat := 0x40049008
def JRN_STAT : Nat := 0x40049010
def JRN_CTRL : Nat := 0x40049020
def JRN_NEWEST : Nat := 0x40049040
def JRN_OLDEST : Nat := 0x40049044
def JRN_SEALCNT : Nat := 0x40049048
def PMON_CAP0 : Nat := 0x4004A008
def PMON_STAT : Nat := 0x4004A010
def PMON_CTRL : Nat := 0x4004A020
def PMON_GATE : Nat := 0x4004A040
def PMON_SAMPCFG : Nat := 0x4004A044
def PMON_SAMPTASK : Nat := 0x4004A048
def PMON_SEED : Nat := 0x4004A04C
def PMON_SAMPLOST : Nat := 0x4004A050
def PMON_SAMPCNT : Nat := 0x4004A054
def PMON_SNAPCYC : Nat := 0x4004A058
def PMON_SNAPPER : Nat := 0x4004A05C
def PMON_TICKLOa : Nat := 0x4004A100
def PMON_TICKHIa : Nat := 0x4004A104
def PMON_EVSELa_i (i : Nat) : Nat := 0x4004A110 + 4 * i
def PMON_CNTa_i (i : Nat) : Nat := 0x4004A130 + 4 * i
def PMON_OVFa : Nat := 0x4004A150
def PMON_TICKLOb : Nat := 0x4004A180
def PMON_TICKHIb : Nat := 0x4004A184
def PMON_EVSELb_i (i : Nat) : Nat := 0x4004A190 + 4 * i
def PMON_CNTb_i (i : Nat) : Nat := 0x4004A1B0 + 4 * i
def PMON_OVFb : Nat := 0x4004A1D0
def PMON_TICKLOc : Nat := 0x4004A200
def PMON_TICKHIc : Nat := 0x4004A204
def PMON_EVSELc_i (i : Nat) : Nat := 0x4004A210 + 4 * i
def PMON_CNTc_i (i : Nat) : Nat := 0x4004A230 + 4 * i
def PMON_OVFc : Nat := 0x4004A250
def PMON_PODi (i : Nat) : Nat := 0x4004A300 + 4 * i
def PMON_PODSNAPi (i : Nat) : Nat := 0x4004A400 + 4 * i
def BIST_STAT : Nat := 0x40050010
def BIST_PASS : Nat := 0x40050040
def BIST_FAIL : Nat := 0x40050044
def BIST_SEAL : Nat := 0x40050048
def BIST_DUR : Nat := 0x4005004C
def BIST_REPAIRS : Nat := 0x40050050
def MEM_BANKb (i : Nat) : Nat := 0x40051100 + 4 * i
def MEM_CONFb (i : Nat) : Nat := 0x40051140 + 4 * i
def UPD_STAT : Nat := 0x40058010
def UPD_XID : Nat := 0x40058040
def UPD_XOFF : Nat := 0x40058044
def UPD_REJECT : Nat := 0x40058048
def UPD_ACT : Nat := 0x4005804C
def UPD_ACTCYC : Nat := 0x40058050
def UPD_SVNFLOOR : Nat := 0x40058054
def UPD_SLOTk (i : Nat) : Nat := 0x40058100 + 16 * i
def UPD_SLOTIDk (i : Nat) : Nat := 0x40058104 + 16 * i
def UPD_SLOTBASEk (i : Nat) : Nat := 0x40058108 + 16 * i
def UPD_SLOTLENk (i : Nat) : Nat := 0x4005810C + 16 * i

end Reg

namespace Fld

def SYS_CAP0_LANES : Field := ⟨Reg.SYS_CAP0, 31, 24⟩
def SYS_CAP0_RINGS : Field := ⟨Reg.SYS_CAP0, 23, 16⟩
def SYS_CAP0_FIOCH : Field := ⟨Reg.SYS_CAP0, 15, 8⟩
def SYS_CAP0_GRADE : Field := ⟨Reg.SYS_CAP0, 0, 0⟩
def SYS_CAP1_QUEUES : Field := ⟨Reg.SYS_CAP1, 23, 16⟩
def SYS_CAP1_SESSIONS : Field := ⟨Reg.SYS_CAP1, 15, 8⟩
def SYS_CAP1_TWIN : Field := ⟨Reg.SYS_CAP1, 0, 0⟩
def SYS_STAT_AGAIN : Field := ⟨Reg.SYS_STAT, 31, 31⟩
def SYS_STAT_LC : Field := ⟨Reg.SYS_STAT, 13, 12⟩
def SYS_STAT_STRAPS : Field := ⟨Reg.SYS_STAT, 11, 8⟩
def SYS_STAT_STATE : Field := ⟨Reg.SYS_STAT, 3, 0⟩
def SYS_SERIAL_SERIAL : Field := ⟨Reg.SYS_SERIAL, 31, 0⟩
def SYS_START_CAUSE : Field := ⟨Reg.SYS_START, 31, 28⟩
def SYS_START_SEAL : Field := ⟨Reg.SYS_START, 27, 25⟩
def SYS_START_BLOCK : Field := ⟨Reg.SYS_START, 24, 22⟩
def SYS_START_SPROUT : Field := ⟨Reg.SYS_START, 21, 19⟩
def SYS_START_DUR_MS : Field := ⟨Reg.SYS_START, 15, 0⟩
def SYS_STARTCNT_COUNT : Field := ⟨Reg.SYS_STARTCNT, 31, 0⟩
def PWR_SLEEP_RESULT : Field := ⟨Reg.PWR_SLEEP, 15, 8⟩
def PWR_SLEEP_OP : Field := ⟨Reg.PWR_SLEEP, 1, 0⟩
def PWR_WAKEEN_ALARM : Field := ⟨Reg.PWR_WAKEEN, 2, 2⟩
def PWR_WAKEEN_OHP : Field := ⟨Reg.PWR_WAKEEN, 1, 1⟩
def PWR_WAKEEN_PIN : Field := ⟨Reg.PWR_WAKEEN, 0, 0⟩
def PWR_WAKESRC_VALID : Field := ⟨Reg.PWR_WAKESRC, 31, 31⟩
def PWR_WAKESRC_SESSION : Field := ⟨Reg.PWR_WAKESRC, 19, 16⟩
def PWR_WAKESRC_SRC : Field := ⟨Reg.PWR_WAKESRC, 2, 0⟩
def PWR_PARKPORT_PORT : Field := ⟨Reg.PWR_PARKPORT, 0, 0⟩
def PWR_VIN_VINB : Field := ⟨Reg.PWR_VIN, 31, 16⟩
def PWR_VIN_VINA : Field := ⟨Reg.PWR_VIN, 15, 0⟩
def PWR_VF_VF : Field := ⟨Reg.PWR_VF, 15, 0⟩
def PWR_HOLD_READY : Field := ⟨Reg.PWR_HOLD, 31, 31⟩
def PWR_HOLD_LAST_MS : Field := ⟨Reg.PWR_HOLD, 15, 0⟩
def PWR_VCORE_MEAS : Field := ⟨Reg.PWR_VCORE, 31, 16⟩
def PWR_VCORE_SET : Field := ⟨Reg.PWR_VCORE, 5, 0⟩
def PWR_DVSCTRL_FIXED : Field := ⟨Reg.PWR_DVSCTRL, 9, 4⟩
def PWR_DVSCTRL_MODE : Field := ⟨Reg.PWR_DVSCTRL, 0, 0⟩
def PWR_DVSPARAM_DOWN_HOLD : Field := ⟨Reg.PWR_DVSPARAM, 31, 24⟩
def PWR_DVSPARAM_UP_STEP : Field := ⟨Reg.PWR_DVSPARAM, 23, 21⟩
def PWR_DVSPARAM_FLOOR : Field := ⟨Reg.PWR_DVSPARAM, 20, 16⟩
def PWR_DVSPARAM_BAND : Field := ⟨Reg.PWR_DVSPARAM, 13, 8⟩
def PWR_DVSPARAM_TGT : Field := ⟨Reg.PWR_DVSPARAM, 6, 0⟩
def PWR_DVSSTAT_MAXCNT : Field := ⟨Reg.PWR_DVSSTAT, 23, 16⟩
def PWR_DVSSTAT_LIMPEA : Field := ⟨Reg.PWR_DVSSTAT, 9, 8⟩
def PWR_DVSSTAT_MMIN : Field := ⟨Reg.PWR_DVSSTAT, 6, 0⟩
def TIME_STAT_AGAIN : Field := ⟨Reg.TIME_STAT, 31, 31⟩
def TIME_STAT_TK_VALID : Field := ⟨Reg.TIME_STAT, 6, 6⟩
def TIME_STAT_PPS_OK : Field := ⟨Reg.TIME_STAT, 5, 5⟩
def TIME_STAT_SLEWING : Field := ⟨Reg.TIME_STAT, 4, 4⟩
def TIME_STAT_SRC : Field := ⟨Reg.TIME_STAT, 3, 2⟩
def TIME_STAT_SET : Field := ⟨Reg.TIME_STAT, 0, 0⟩
def TIME_CTRL_STATCLR : Field := ⟨Reg.TIME_CTRL, 1, 1⟩
def TIME_CTRL_PPS_EN : Field := ⟨Reg.TIME_CTRL, 0, 0⟩
def TIME_NOWLO_NOW : Field := ⟨Reg.TIME_NOWLO, 31, 0⟩
def TIME_NOWHI_NOW : Field := ⟨Reg.TIME_NOWHI, 31, 0⟩
def TIME_ALARMLO_ALARM : Field := ⟨Reg.TIME_ALARMLO, 31, 0⟩
def TIME_ALARMHI_ALARM : Field := ⟨Reg.TIME_ALARMHI, 31, 0⟩
def TIME_SLEW_REMAIN : Field := ⟨Reg.TIME_SLEW, 31, 0⟩
def TIME_PPS_IGNORED : Field := ⟨Reg.TIME_PPS, 31, 24⟩
def TIME_PPS_ERR : Field := ⟨Reg.TIME_PPS, 23, 0⟩
def TIME_TBCHK_VALID : Field := ⟨Reg.TIME_TBCHK, 31, 31⟩
def TIME_TBCHK_FAULT : Field := ⟨Reg.TIME_TBCHK, 30, 30⟩
def TIME_TBCHK_DIFF : Field := ⟨Reg.TIME_TBCHK, 15, 0⟩
def TIME_TBPHASE_PHASE : Field := ⟨Reg.TIME_TBPHASE, 31, 0⟩
def TIME_TBWORST_WORST : Field := ⟨Reg.TIME_TBWORST, 15, 0⟩
def CAL_STAT_AGAIN : Field := ⟨Reg.CAL_STAT, 31, 31⟩
def CAL_STAT_PENDING : Field := ⟨Reg.CAL_STAT, 2, 2⟩
def CAL_STAT_USERBAD : Field := ⟨Reg.CAL_STAT, 1, 1⟩
def CAL_STAT_USER : Field := ⟨Reg.CAL_STAT, 0, 0⟩
def CAL_CTRL_CLEAR : Field := ⟨Reg.CAL_CTRL, 0, 0⟩
def CAL_FACTi_VALUE (i : Nat) : Field := ⟨(Reg.CAL_FACTi i), 15, 0⟩
def CAL_USERi_OFFSET (i : Nat) : Field := ⟨(Reg.CAL_USERi i), 15, 0⟩
def CAL_EFFi_VALUE (i : Nat) : Field := ⟨(Reg.CAL_EFFi i), 15, 0⟩
def SEC_STAT_AGAIN : Field := ⟨Reg.SEC_STAT, 31, 31⟩
def SEC_STAT_LC : Field := ⟨Reg.SEC_STAT, 9, 8⟩
def SEC_STAT_OWNER : Field := ⟨Reg.SEC_STAT, 4, 4⟩
def SEC_STAT_FWKEY : Field := ⟨Reg.SEC_STAT, 3, 3⟩
def SEC_STAT_PGKEY : Field := ⟨Reg.SEC_STAT, 2, 2⟩
def SEC_STAT_TAMPER : Field := ⟨Reg.SEC_STAT, 1, 1⟩
def SEC_STAT_WIPED : Field := ⟨Reg.SEC_STAT, 0, 0⟩
def SEC_SLOTS_FILLED : Field := ⟨Reg.SEC_SLOTS, 31, 0⟩
def SEC_GEN_PG : Field := ⟨Reg.SEC_GEN, 15, 8⟩
def SEC_GEN_FW : Field := ⟨Reg.SEC_GEN, 7, 0⟩
def SEC_TAMPER_VALID : Field := ⟨Reg.SEC_TAMPER, 31, 31⟩
def SEC_TAMPER_CAUSE : Field := ⟨Reg.SEC_TAMPER, 1, 0⟩
def SEC_TAMPTLO_TIME : Field := ⟨Reg.SEC_TAMPTLO, 31, 0⟩
def SEC_TAMPTHI_TIME : Field := ⟨Reg.SEC_TAMPTHI, 31, 0⟩
def SEC_DEVPUBj_KEY (i : Nat) : Field := ⟨(Reg.SEC_DEVPUBj i), 31, 0⟩
def SEC_OWNERj_HASH (i : Nat) : Field := ⟨(Reg.SEC_OWNERj i), 31, 0⟩
def PEA_x_CAP0_MRAM_MIB (x : Nat) : Field := ⟨(Reg.PEA_x_CAP0 x), 31, 24⟩
def PEA_x_CAP0_SRAM_MIB (x : Nat) : Field := ⟨(Reg.PEA_x_CAP0 x), 23, 16⟩
def PEA_x_CAP0_SCR_16K (x : Nat) : Field := ⟨(Reg.PEA_x_CAP0 x), 15, 8⟩
def PEA_x_CAP0_DR_DEPTH (x : Nat) : Field := ⟨(Reg.PEA_x_CAP0 x), 7, 0⟩
def PEA_x_CAP1_TASKS (x : Nat) : Field := ⟨(Reg.PEA_x_CAP1 x), 23, 16⟩
def PEA_x_CAP1_REGS (x : Nat) : Field := ⟨(Reg.PEA_x_CAP1 x), 15, 8⟩
def PEA_x_CAP1_ENC (x : Nat) : Field := ⟨(Reg.PEA_x_CAP1 x), 1, 0⟩
def PEA_x_STAT_AGAIN (x : Nat) : Field := ⟨(Reg.PEA_x_STAT x), 31, 31⟩
def PEA_x_STAT_SCRUBSKIP (x : Nat) : Field := ⟨(Reg.PEA_x_STAT x), 6, 6⟩
def PEA_x_STAT_OVERRUN (x : Nat) : Field := ⟨(Reg.PEA_x_STAT x), 5, 5⟩
def PEA_x_STAT_IN_SERVICE (x : Nat) : Field := ⟨(Reg.PEA_x_STAT x), 4, 4⟩
def PEA_x_STAT_STATE (x : Nat) : Field := ⟨(Reg.PEA_x_STAT x), 3, 0⟩
def PEA_x_CTRL_STATCLR (x : Nat) : Field := ⟨(Reg.PEA_x_CTRL x), 1, 1⟩
def PEA_x_CTRL_SCRUB_EN (x : Nat) : Field := ⟨(Reg.PEA_x_CTRL x), 0, 0⟩
def PEA_x_CYCLE_CYCLE (x : Nat) : Field := ⟨(Reg.PEA_x_CYCLE x), 31, 0⟩
def PEA_x_CMPL_VALID (x : Nat) : Field := ⟨(Reg.PEA_x_CMPL x), 31, 31⟩
def PEA_x_CMPL_OVR (x : Nat) : Field := ⟨(Reg.PEA_x_CMPL x), 30, 30⟩
def PEA_x_CMPL_CMPL (x : Nat) : Field := ⟨(Reg.PEA_x_CMPL x), 22, 0⟩
def PEA_x_MARGIN_MARGIN (x : Nat) : Field := ⟨(Reg.PEA_x_MARGIN x), 31, 0⟩
def PEA_x_MARGINMIN_MARGINMIN (x : Nat) : Field := ⟨(Reg.PEA_x_MARGINMIN x), 31, 0⟩
def PEA_x_OPS_OPS (x : Nat) : Field := ⟨(Reg.PEA_x_OPS x), 31, 0⟩
def PEA_x_DRFILL_MAX (x : Nat) : Field := ⟨(Reg.PEA_x_DRFILL x), 13, 8⟩
def PEA_x_DRFILL_NOW (x : Nat) : Field := ⟨(Reg.PEA_x_DRFILL x), 5, 0⟩
def PEA_x_ECCCNT_CTX (x : Nat) : Field := ⟨(Reg.PEA_x_ECCCNT x), 31, 24⟩
def PEA_x_ECCCNT_SCR (x : Nat) : Field := ⟨(Reg.PEA_x_ECCCNT x), 23, 16⟩
def PEA_x_ECCCNT_SRAM (x : Nat) : Field := ⟨(Reg.PEA_x_ECCCNT x), 15, 8⟩
def PEA_x_ECCCNT_MRAM (x : Nat) : Field := ⟨(Reg.PEA_x_ECCCNT x), 7, 0⟩
def PEA_x_MEMERR_VALID (x : Nat) : Field := ⟨(Reg.PEA_x_MEMERR x), 31, 31⟩
def PEA_x_MEMERR_UNCORR (x : Nat) : Field := ⟨(Reg.PEA_x_MEMERR x), 30, 30⟩
def PEA_x_MEMERR_MEM (x : Nat) : Field := ⟨(Reg.PEA_x_MEMERR x), 29, 28⟩
def PEA_x_MEMERR_ADDR (x : Nat) : Field := ⟨(Reg.PEA_x_MEMERR x), 20, 0⟩
def PEA_x_FAULT_VALID (x : Nat) : Field := ⟨(Reg.PEA_x_FAULT x), 31, 31⟩
def PEA_x_FAULT_KIND (x : Nat) : Field := ⟨(Reg.PEA_x_FAULT x), 27, 24⟩
def PEA_x_FAULT_GROUP (x : Nat) : Field := ⟨(Reg.PEA_x_FAULT x), 19, 16⟩
def PEA_x_FAULT_TASK (x : Nat) : Field := ⟨(Reg.PEA_x_FAULT x), 12, 8⟩
def PEA_x_FAULT_CAUSE (x : Nat) : Field := ⟨(Reg.PEA_x_FAULT x), 7, 0⟩
def PEA_x_FAULTCNT_CODEVIO (x : Nat) : Field := ⟨(Reg.PEA_x_FAULTCNT x), 31, 24⟩
def PEA_x_FAULTCNT_STALL (x : Nat) : Field := ⟨(Reg.PEA_x_FAULTCNT x), 23, 16⟩
def PEA_x_FAULTCNT_TRAP (x : Nat) : Field := ⟨(Reg.PEA_x_FAULTCNT x), 15, 8⟩
def PEA_x_FAULTCNT_ECC_UNCORR (x : Nat) : Field := ⟨(Reg.PEA_x_FAULTCNT x), 7, 0⟩
def PEA_x_TRAPPC_TASK (x : Nat) : Field := ⟨(Reg.PEA_x_TRAPPC x), 31, 27⟩
def PEA_x_TRAPPC_WADDR (x : Nat) : Field := ⟨(Reg.PEA_x_TRAPPC x), 20, 0⟩
def PEA_x_IMGRC_IMGRC (x : Nat) : Field := ⟨(Reg.PEA_x_IMGRC x), 31, 0⟩
def PEA_x_SCRUB_PASSES (x : Nat) : Field := ⟨(Reg.PEA_x_SCRUB x), 31, 16⟩
def PEA_x_SCRUB_SKIPPED (x : Nat) : Field := ⟨(Reg.PEA_x_SCRUB x), 15, 0⟩
def PEA_x_PROGCHK_PROGCHK (x : Nat) : Field := ⟨(Reg.PEA_x_PROGCHK x), 31, 0⟩
def POD_CAP0_LANES : Field := ⟨Reg.POD_CAP0, 31, 24⟩
def POD_CAP0_RESEED_MAX : Field := ⟨Reg.POD_CAP0, 23, 16⟩
def POD_CAP0_DATA_BLKS : Field := ⟨Reg.POD_CAP0, 15, 0⟩
def POD_CAP1_SCR_BLKS : Field := ⟨Reg.POD_CAP1, 15, 8⟩
def POD_CAP1_DIG_BITS : Field := ⟨Reg.POD_CAP1, 7, 0⟩
def POD_STAT_AGAIN : Field := ⟨Reg.POD_STAT, 31, 31⟩
def POD_STAT_INSVC : Field := ⟨Reg.POD_STAT, 10, 8⟩
def POD_STAT_MODE : Field := ⟨Reg.POD_STAT, 5, 4⟩
def POD_STAT_ROT : Field := ⟨Reg.POD_STAT, 1, 1⟩
def POD_STAT_REJOIN : Field := ⟨Reg.POD_STAT, 0, 0⟩
def POD_CTRL_STATCLR : Field := ⟨Reg.POD_CTRL, 1, 1⟩
def POD_CTRL_ROT_REQ : Field := ⟨Reg.POD_CTRL, 0, 0⟩
def POD_EVICT_VALID : Field := ⟨Reg.POD_EVICT, 31, 31⟩
def POD_EVICT_REASON : Field := ⟨Reg.POD_EVICT, 27, 24⟩
def POD_EVICT_PEA : Field := ⟨Reg.POD_EVICT, 17, 16⟩
def POD_EVICTCYC_CYCLE : Field := ⟨Reg.POD_EVICTCYC, 31, 0⟩
def POD_EVICTCNT_C : Field := ⟨Reg.POD_EVICTCNT, 23, 16⟩
def POD_EVICTCNT_B : Field := ⟨Reg.POD_EVICTCNT, 15, 8⟩
def POD_EVICTCNT_A : Field := ⟨Reg.POD_EVICTCNT, 7, 0⟩
def POD_RESEED_VALID : Field := ⟨Reg.POD_RESEED, 31, 31⟩
def POD_RESEED_PEA : Field := ⟨Reg.POD_RESEED, 30, 29⟩
def POD_RESEED_WINCNT : Field := ⟨Reg.POD_RESEED, 28, 27⟩
def POD_RESEED_FIRSTBLK : Field := ⟨Reg.POD_RESEED, 26, 16⟩
def POD_RESEED_BLOCKS : Field := ⟨Reg.POD_RESEED, 3, 0⟩
def POD_RESEEDCNT_C : Field := ⟨Reg.POD_RESEEDCNT, 23, 16⟩
def POD_RESEEDCNT_B : Field := ⟨Reg.POD_RESEEDCNT, 15, 8⟩
def POD_RESEEDCNT_A : Field := ⟨Reg.POD_RESEEDCNT, 7, 0⟩
def POD_ROTCTRL_INTERVAL : Field := ⟨Reg.POD_ROTCTRL, 15, 8⟩
def POD_ROTCTRL_ROT_EN : Field := ⟨Reg.POD_ROTCTRL, 0, 0⟩
def POD_ROTNEXT_SECONDS : Field := ⟨Reg.POD_ROTNEXT, 31, 0⟩
def POD_ROTLAST_VALID : Field := ⟨Reg.POD_ROTLAST, 31, 31⟩
def POD_ROTLAST_PASS : Field := ⟨Reg.POD_ROTLAST, 30, 30⟩
def POD_ROTLAST_PEA : Field := ⟨Reg.POD_ROTLAST, 29, 28⟩
def POD_ROTLAST_DUR_MS : Field := ⟨Reg.POD_ROTLAST, 15, 0⟩
def POD_REJOIN_PHASE : Field := ⟨Reg.POD_REJOIN, 31, 30⟩
def POD_REJOIN_PEA : Field := ⟨Reg.POD_REJOIN, 29, 28⟩
def POD_REJOIN_DONOR : Field := ⟨Reg.POD_REJOIN, 27, 26⟩
def POD_REJOIN_CYCLES : Field := ⟨Reg.POD_REJOIN, 23, 16⟩
def POD_REJOIN_BLKLEFT : Field := ⟨Reg.POD_REJOIN, 15, 0⟩
def POD_DIGLO_DIGLO : Field := ⟨Reg.POD_DIGLO, 31, 0⟩
def POD_DIGHI_DIGHI : Field := ⟨Reg.POD_DIGHI, 31, 0⟩
def POD_DIGCYC_CYCLE : Field := ⟨Reg.POD_DIGCYC, 31, 0⟩
def VOTE_CAP0_VOTERS : Field := ⟨Reg.VOTE_CAP0, 31, 24⟩
def VOTE_CAP0_DR_DEPTH : Field := ⟨Reg.VOTE_CAP0, 23, 16⟩
def VOTE_CAP0_HOLD_AT : Field := ⟨Reg.VOTE_CAP0, 15, 8⟩
def VOTE_CAP0_RESUME_AT : Field := ⟨Reg.VOTE_CAP0, 7, 0⟩
def VOTE_CAP1_CBUF : Field := ⟨Reg.VOTE_CAP1, 15, 0⟩
def VOTE_STAT_AGAIN : Field := ⟨Reg.VOTE_STAT, 31, 31⟩
def VOTE_STAT_LAG : Field := ⟨Reg.VOTE_STAT, 6, 4⟩
def VOTE_STAT_INJ_OK : Field := ⟨Reg.VOTE_STAT, 3, 3⟩
def VOTE_STAT_HB : Field := ⟨Reg.VOTE_STAT, 2, 2⟩
def VOTE_STAT_V2_OK : Field := ⟨Reg.VOTE_STAT, 1, 1⟩
def VOTE_STAT_V1_OK : Field := ⟨Reg.VOTE_STAT, 0, 0⟩
def VOTE_CTRL_STATCLR : Field := ⟨Reg.VOTE_CTRL, 1, 1⟩
def VOTE_SKEW_SKEW : Field := ⟨Reg.VOTE_SKEW, 15, 0⟩
def VOTE_FLAG_VALID : Field := ⟨Reg.VOTE_FLAG, 31, 31⟩
def VOTE_FLAG_KIND : Field := ⟨Reg.VOTE_FLAG, 27, 24⟩
def VOTE_FLAG_PEA : Field := ⟨Reg.VOTE_FLAG, 17, 16⟩
def VOTE_FLAG_TASK : Field := ⟨Reg.VOTE_FLAG, 12, 8⟩
def VOTE_FLAG_TKIND : Field := ⟨Reg.VOTE_FLAG, 2, 0⟩
def VOTE_FLAGTAG_TAG : Field := ⟨Reg.VOTE_FLAGTAG, 31, 0⟩
def VOTE_FLAGCNT_C : Field := ⟨Reg.VOTE_FLAGCNT, 23, 16⟩
def VOTE_FLAGCNT_B : Field := ⟨Reg.VOTE_FLAGCNT, 15, 8⟩
def VOTE_FLAGCNT_A : Field := ⟨Reg.VOTE_FLAGCNT, 7, 0⟩
def VOTE_SKEWMAX_VALID : Field := ⟨Reg.VOTE_SKEWMAX, 31, 31⟩
def VOTE_SKEWMAX_PEA : Field := ⟨Reg.VOTE_SKEWMAX, 17, 16⟩
def VOTE_SKEWMAX_TICKS : Field := ⟨Reg.VOTE_SKEWMAX, 15, 0⟩
def VOTE_TOKENS_TOKENS : Field := ⟨Reg.VOTE_TOKENS, 31, 0⟩
def VOTE_CBUF_MAX : Field := ⟨Reg.VOTE_CBUF, 31, 16⟩
def VOTE_CBUF_NOW : Field := ⟨Reg.VOTE_CBUF, 15, 0⟩
def VOTE_INJ_VALID : Field := ⟨Reg.VOTE_INJ, 31, 31⟩
def VOTE_INJ_PASS : Field := ⟨Reg.VOTE_INJ, 30, 30⟩
def VOTE_INJ_V2 : Field := ⟨Reg.VOTE_INJ, 14, 8⟩
def VOTE_INJ_V1 : Field := ⟨Reg.VOTE_INJ, 6, 0⟩
def VOTE_KFAULT_VALID : Field := ⟨Reg.VOTE_KFAULT, 31, 31⟩
def VOTE_KFAULT_CAUSE : Field := ⟨Reg.VOTE_KFAULT, 27, 24⟩
def VOTE_KFAULT_VOTER : Field := ⟨Reg.VOTE_KFAULT, 17, 16⟩
def PROG_STAT_AGAIN : Field := ⟨Reg.PROG_STAT, 31, 31⟩
def PROG_STAT_SLOT : Field := ⟨Reg.PROG_STAT, 2, 2⟩
def PROG_STAT_STAGED : Field := ⟨Reg.PROG_STAT, 1, 1⟩
def PROG_STAT_LOADED : Field := ⟨Reg.PROG_STAT, 0, 0⟩
def PROG_IMGID_IMGID : Field := ⟨Reg.PROG_IMGID, 31, 0⟩
def PROG_IMGVER_COMPAT : Field := ⟨Reg.PROG_IMGVER, 31, 24⟩
def PROG_IMGVER_FAMLVL : Field := ⟨Reg.PROG_IMGVER, 23, 20⟩
def PROG_IMGVER_SEG : Field := ⟨Reg.PROG_IMGVER, 1, 0⟩
def PROG_CYCLE_K : Field := ⟨Reg.PROG_CYCLE, 30, 28⟩
def PROG_CYCLE_TV_MS : Field := ⟨Reg.PROG_CYCLE, 7, 0⟩
def PROG_LC_LC : Field := ⟨Reg.PROG_LC, 17, 0⟩
def PROG_SYMS_COUNT : Field := ⟨Reg.PROG_SYMS, 19, 0⟩
def PROG_DECL_WORDS : Field := ⟨Reg.PROG_DECL, 20, 0⟩
def PROG_OBJ_TIMERS : Field := ⟨Reg.PROG_OBJ, 31, 16⟩
def PROG_OBJ_EDGES : Field := ⟨Reg.PROG_OBJ, 15, 0⟩
def PROG_MAXTOK_MAXTOK : Field := ⟨Reg.PROG_MAXTOK, 15, 0⟩
def PROG_MAXOPS_MAXOPS : Field := ⟨Reg.PROG_MAXOPS, 31, 0⟩
def PROG_BUDGET_BUDGET : Field := ⟨Reg.PROG_BUDGET, 31, 0⟩
def PROG_CHECK_CHECK : Field := ⟨Reg.PROG_CHECK, 31, 0⟩
def PROG_CODESZ_WORDS : Field := ⟨Reg.PROG_CODESZ, 20, 0⟩
def PROG_TASKMAP_MAP : Field := ⟨Reg.PROG_TASKMAP, 31, 0⟩
def PROG_REFUSE_VALID : Field := ⟨Reg.PROG_REFUSE, 31, 31⟩
def PROG_REFUSE_DETAIL : Field := ⟨Reg.PROG_REFUSE, 23, 8⟩
def PROG_REFUSE_CODE : Field := ⟨Reg.PROG_REFUSE, 7, 0⟩
def PROG_XSTAT_PHASE : Field := ⟨Reg.PROG_XSTAT, 31, 28⟩
def PROG_XSTAT_DROPF : Field := ⟨Reg.PROG_XSTAT, 25, 25⟩
def PROG_XSTAT_ALONE : Field := ⟨Reg.PROG_XSTAT, 24, 24⟩
def PROG_XSTAT_PEAS : Field := ⟨Reg.PROG_XSTAT, 23, 16⟩
def PROG_XCYCLE_X : Field := ⟨Reg.PROG_XCYCLE, 31, 0⟩
def PROG_XIMG_IMGID : Field := ⟨Reg.PROG_XIMG, 31, 0⟩
def PROG_XBASE_BASE : Field := ⟨Reg.PROG_XBASE, 31, 0⟩
def PROG_XTIME_MEAS : Field := ⟨Reg.PROG_XTIME, 31, 16⟩
def PROG_XTIME_EST : Field := ⟨Reg.PROG_XTIME, 15, 0⟩
def PROG_XSYMS_RELOC : Field := ⟨Reg.PROG_XSYMS, 31, 16⟩
def PROG_XSYMS_RETYPED : Field := ⟨Reg.PROG_XSYMS, 15, 8⟩
def PROG_XNEW_NEW : Field := ⟨Reg.PROG_XNEW, 31, 0⟩
def PROG_XFORCE_DROPPED : Field := ⟨Reg.PROG_XFORCE, 15, 8⟩
def PROG_XFORCE_CARRIED : Field := ⟨Reg.PROG_XFORCE, 7, 0⟩
def TASK_STAT_AGAIN : Field := ⟨Reg.TASK_STAT, 31, 31⟩
def TASK_STAT_LATEWORK : Field := ⟨Reg.TASK_STAT, 0, 0⟩
def TASK_CTRL_STATCLR : Field := ⟨Reg.TASK_CTRL, 1, 1⟩
def TASK_RELVEC_REL : Field := ⟨Reg.TASK_RELVEC, 31, 0⟩
def TASK_SKIPVEC_SKIP : Field := ⟨Reg.TASK_SKIPVEC, 31, 0⟩
def TASK_OVRVEC_OVR : Field := ⟨Reg.TASK_OVRVEC, 31, 0⟩
def TASK_HELDVEC_HELD : Field := ⟨Reg.TASK_HELDVEC, 31, 16⟩
def TASK_SAFE_VALID : Field := ⟨Reg.TASK_SAFE, 31, 31⟩
def TASK_SAFE_SLOT : Field := ⟨Reg.TASK_SAFE, 4, 0⟩
def TASK_SAFECYC_CYCLE : Field := ⟨Reg.TASK_SAFECYC, 31, 0⟩
def TASK_CFGs_PRESENT (i : Nat) : Field := ⟨(Reg.TASK_CFGs i), 31, 31⟩
def TASK_CFGs_VITAL (i : Nat) : Field := ⟨(Reg.TASK_CFGs i), 30, 30⟩
def TASK_CFGs_EVENT (i : Nat) : Field := ⟨(Reg.TASK_CFGs i), 29, 29⟩
def TASK_CFGs_PRIO (i : Nat) : Field := ⟨(Reg.TASK_CFGs i), 28, 26⟩
def TASK_CFGs_PERIOD (i : Nat) : Field := ⟨(Reg.TASK_CFGs i), 25, 16⟩
def TASK_CFGs_PHASE (i : Nat) : Field := ⟨(Reg.TASK_CFGs i), 15, 8⟩
def TASK_CFGs_TRIG (i : Nat) : Field := ⟨(Reg.TASK_CFGs i), 2, 0⟩
def TASK_STATs_STALE (i : Nat) : Field := ⟨(Reg.TASK_STATs i), 31, 24⟩
def TASK_STATs_SKIPS (i : Nat) : Field := ⟨(Reg.TASK_STATs i), 23, 16⟩
def TASK_STATs_OVRCNT (i : Nat) : Field := ⟨(Reg.TASK_STATs i), 15, 8⟩
def TASK_STATs_HELD (i : Nat) : Field := ⟨(Reg.TASK_STATs i), 1, 1⟩
def TASK_STATs_ACTIVE (i : Nat) : Field := ⟨(Reg.TASK_STATs i), 0, 0⟩
def TASK_OPSs_OPS (i : Nat) : Field := ⟨(Reg.TASK_OPSs i), 31, 0⟩
def FORCE_CAP0_ENTRIES : Field := ⟨Reg.FORCE_CAP0, 31, 0⟩
def FORCE_STAT_AGAIN : Field := ⟨Reg.FORCE_STAT, 31, 31⟩
def FORCE_STAT_COUNT : Field := ⟨Reg.FORCE_STAT, 6, 0⟩
def FORCE_CTRL_STATCLR : Field := ⟨Reg.FORCE_CTRL, 0, 0⟩
def FORCE_LAST_VALID : Field := ⟨Reg.FORCE_LAST, 31, 31⟩
def FORCE_LAST_RESULT : Field := ⟨Reg.FORCE_LAST, 23, 20⟩
def FORCE_LAST_SYM : Field := ⟨Reg.FORCE_LAST, 19, 0⟩
def FORCE_REFCNT_COUNT : Field := ⟨Reg.FORCE_REFCNT, 15, 0⟩
def FORCE_SYMe_VALID (i : Nat) : Field := ⟨(Reg.FORCE_SYMe i), 31, 31⟩
def FORCE_SYMe_TYPE (i : Nat) : Field := ⟨(Reg.FORCE_SYMe i), 30, 28⟩
def FORCE_SYMe_IMAGE (i : Nat) : Field := ⟨(Reg.FORCE_SYMe i), 27, 27⟩
def FORCE_SYMe_CARRIED (i : Nat) : Field := ⟨(Reg.FORCE_SYMe i), 26, 26⟩
def FORCE_SYMe_SYM (i : Nat) : Field := ⟨(Reg.FORCE_SYMe i), 19, 0⟩
def FORCE_ELEMe_ELEM (i : Nat) : Field := ⟨(Reg.FORCE_ELEMe i), 23, 0⟩
def FORCE_VALe_VALUE (i : Nat) : Field := ⟨(Reg.FORCE_VALe i), 31, 0⟩
def FORCE_CYCe_CYCLE (i : Nat) : Field := ⟨(Reg.FORCE_CYCe i), 31, 0⟩
def IVE_CAP0_ROUTES : Field := ⟨Reg.IVE_CAP0, 31, 16⟩
def IVE_CAP0_SIGNALS : Field := ⟨Reg.IVE_CAP0, 15, 0⟩
def IVE_CAP1_SECTIONS : Field := ⟨Reg.IVE_CAP1, 31, 16⟩
def IVE_CAP1_POINTS : Field := ⟨Reg.IVE_CAP1, 15, 4⟩
def IVE_CAP1_VARIANTS : Field := ⟨Reg.IVE_CAP1, 3, 0⟩
def IVE_STAT_AGAIN : Field := ⟨Reg.IVE_STAT, 31, 31⟩
def IVE_STAT_KFAULT : Field := ⟨Reg.IVE_STAT, 5, 5⟩
def IVE_STAT_STAGED : Field := ⟨Reg.IVE_STAT, 4, 4⟩
def IVE_STAT_BANK : Field := ⟨Reg.IVE_STAT, 3, 3⟩
def IVE_STAT_BUSY : Field := ⟨Reg.IVE_STAT, 2, 2⟩
def IVE_STAT_H2_OK : Field := ⟨Reg.IVE_STAT, 1, 1⟩
def IVE_STAT_H1_OK : Field := ⟨Reg.IVE_STAT, 0, 0⟩
def IVE_CTRL_STATCLR : Field := ⟨Reg.IVE_CTRL, 1, 1⟩
def IVE_CTRL_SCRUB_EN : Field := ⟨Reg.IVE_CTRL, 0, 0⟩
def IVE_TBLID_TBLID : Field := ⟨Reg.IVE_TBLID, 31, 0⟩
def IVE_TBLCHK_TBLCHK : Field := ⟨Reg.IVE_TBLCHK, 31, 0⟩
def IVE_HOLD_ROUTES : Field := ⟨Reg.IVE_HOLD, 31, 16⟩
def IVE_HOLD_TIMERS : Field := ⟨Reg.IVE_HOLD, 15, 0⟩
def IVE_CYCCNT_FULL : Field := ⟨Reg.IVE_CYCCNT, 31, 16⟩
def IVE_CYCCNT_REFUSED : Field := ⟨Reg.IVE_CYCCNT, 15, 0⟩
def IVE_BUSY_MAX : Field := ⟨Reg.IVE_BUSY, 31, 16⟩
def IVE_BUSY_NOW : Field := ⟨Reg.IVE_BUSY, 15, 0⟩
def IVE_CHKMAX_KIND : Field := ⟨Reg.IVE_CHKMAX, 18, 16⟩
def IVE_CHKMAX_NS : Field := ⟨Reg.IVE_CHKMAX, 15, 0⟩
def IVE_REFTOT_REFTOT : Field := ⟨Reg.IVE_REFTOT, 31, 0⟩
def IVE_WDRTOT_WDRTOT : Field := ⟨Reg.IVE_WDRTOT, 31, 0⟩
def IVE_LASTREF_VALID : Field := ⟨Reg.IVE_LASTREF, 31, 31⟩
def IVE_LASTREF_WDR : Field := ⟨Reg.IVE_LASTREF, 30, 30⟩
def IVE_LASTREF_KIND : Field := ⟨Reg.IVE_LASTREF, 29, 27⟩
def IVE_LASTREF_CODE : Field := ⟨Reg.IVE_LASTREF, 23, 16⟩
def IVE_LASTREF_OBJECT : Field := ⟨Reg.IVE_LASTREF, 15, 0⟩
def IVE_LASTREQ_P1 : Field := ⟨Reg.IVE_LASTREQ, 31, 0⟩
def IVE_LASTCYC_CYCLE : Field := ⟨Reg.IVE_LASTCYC, 31, 0⟩
def IVE_SDIGLO_SDIGLO : Field := ⟨Reg.IVE_SDIGLO, 31, 0⟩
def IVE_SDIGHI_SDIGHI : Field := ⟨Reg.IVE_SDIGHI, 31, 0⟩
def IVE_KFAULT_VALID : Field := ⟨Reg.IVE_KFAULT, 31, 31⟩
def IVE_KFAULT_CAUSE : Field := ⟨Reg.IVE_KFAULT, 27, 24⟩
def IVE_KFAULT_HALF : Field := ⟨Reg.IVE_KFAULT, 17, 16⟩
def IVE_LOADERR_VALID : Field := ⟨Reg.IVE_LOADERR, 31, 31⟩
def IVE_LOADERR_CODE : Field := ⟨Reg.IVE_LOADERR, 27, 24⟩
def IVE_LOADERR_DETAIL : Field := ⟨Reg.IVE_LOADERR, 19, 0⟩
def IVE_SCRUB_PASSES : Field := ⟨Reg.IVE_SCRUB, 31, 16⟩
def IVE_SCRUB_CORR : Field := ⟨Reg.IVE_SCRUB, 15, 8⟩
def IVT_CTRL_HALF : Field := ⟨Reg.IVT_CTRL, 1, 1⟩
def IVT_CTRL_BANK : Field := ⟨Reg.IVT_CTRL, 0, 0⟩
def IVT_ADDR_ADDR : Field := ⟨Reg.IVT_ADDR, 19, 0⟩
def IVT_DATA_DATA : Field := ⟨Reg.IVT_DATA, 31, 0⟩
def IVT_RAW_RAW : Field := ⟨Reg.IVT_RAW, 31, 0⟩
def OUT_CAP0_LOCAL : Field := ⟨Reg.OUT_CAP0, 31, 24⟩
def OUT_CAP0_PUMPS : Field := ⟨Reg.OUT_CAP0, 23, 16⟩
def OUT_CAP0_HOLD : Field := ⟨Reg.OUT_CAP0, 15, 8⟩
def OUT_CAP0_MAXOFF : Field := ⟨Reg.OUT_CAP0, 7, 0⟩
def OUT_STAT_AGAIN : Field := ⟨Reg.OUT_STAT, 31, 31⟩
def OUT_STAT_STUCK : Field := ⟨Reg.OUT_STAT, 7, 7⟩
def OUT_STAT_GROUP : Field := ⟨Reg.OUT_STAT, 6, 6⟩
def OUT_STAT_VRD : Field := ⟨Reg.OUT_STAT, 5, 5⟩
def OUT_STAT_PUMP : Field := ⟨Reg.OUT_STAT, 4, 4⟩
def OUT_STAT_MODE : Field := ⟨Reg.OUT_STAT, 3, 0⟩
def OUT_CTRL_STATCLR : Field := ⟨Reg.OUT_CTRL, 0, 0⟩
def OUT_CMD_CMD : Field := ⟨Reg.OUT_CMD, 31, 0⟩
def OUT_ACT_ACT : Field := ⟨Reg.OUT_ACT, 31, 0⟩
def OUT_CHFAULT_FAULT : Field := ⟨Reg.OUT_CHFAULT, 31, 0⟩
def OUT_DARKEN_DARK : Field := ⟨Reg.OUT_DARKEN, 31, 0⟩
def OUT_SAFE_VALID : Field := ⟨Reg.OUT_SAFE, 31, 31⟩
def OUT_SAFE_LOCKOUT : Field := ⟨Reg.OUT_SAFE, 30, 30⟩
def OUT_SAFE_CAUSE : Field := ⟨Reg.OUT_SAFE, 27, 24⟩
def OUT_SAFE_DETAIL : Field := ⟨Reg.OUT_SAFE, 15, 0⟩
def OUT_SAFECYC_CYCLE : Field := ⟨Reg.OUT_SAFECYC, 31, 0⟩
def OUT_SAFECFG_AUTO : Field := ⟨Reg.OUT_SAFECFG, 31, 31⟩
def OUT_SAFECFG_HOLD : Field := ⟨Reg.OUT_SAFECFG, 15, 0⟩
def OUT_SAFECNT_WIN : Field := ⟨Reg.OUT_SAFECNT, 23, 16⟩
def OUT_SAFECNT_TOTAL : Field := ⟨Reg.OUT_SAFECNT, 15, 0⟩
def OUT_RINGEN_B1 : Field := ⟨Reg.OUT_RINGEN, 31, 24⟩
def OUT_RINGEN_B0 : Field := ⟨Reg.OUT_RINGEN, 23, 16⟩
def OUT_RINGEN_A1 : Field := ⟨Reg.OUT_RINGEN, 15, 8⟩
def OUT_RINGEN_A0 : Field := ⟨Reg.OUT_RINGEN, 7, 0⟩
def OUT_BARCNT_COUNT : Field := ⟨Reg.OUT_BARCNT, 15, 0⟩
def SFB_CAP0_FUNCS : Field := ⟨Reg.SFB_CAP0, 31, 24⟩
def SFB_CAP0_TPS : Field := ⟨Reg.SFB_CAP0, 23, 16⟩
def SFB_CAP0_MAXREACT : Field := ⟨Reg.SFB_CAP0, 15, 8⟩
def SFB_STAT_AGAIN : Field := ⟨Reg.SFB_STAT, 31, 31⟩
def SFB_STAT_CFGERR : Field := ⟨Reg.SFB_STAT, 30, 30⟩
def SFB_STAT_CHDIFF : Field := ⟨Reg.SFB_STAT, 29, 29⟩
def SFB_STAT_LOCKED : Field := ⟨Reg.SFB_STAT, 23, 16⟩
def SFB_STAT_DEMAND : Field := ⟨Reg.SFB_STAT, 15, 8⟩
def SFB_STAT_FAULT : Field := ⟨Reg.SFB_STAT, 7, 0⟩
def SFB_CTRL_STATCLR : Field := ⟨Reg.SFB_CTRL, 0, 0⟩
def SFB_LOR_STUCK : Field := ⟨Reg.SFB_LOR, 31, 31⟩
def SFB_LOR_A : Field := ⟨Reg.SFB_LOR, 30, 30⟩
def SFB_LOR_B : Field := ⟨Reg.SFB_LOR, 29, 29⟩
def SFB_LOR_LAST : Field := ⟨Reg.SFB_LOR, 23, 16⟩
def SFB_LOR_COUNT : Field := ⟨Reg.SFB_LOR, 15, 0⟩
def SFB_TPS_OVL : Field := ⟨Reg.SFB_TPS, 3, 0⟩
def SFB_CFGf_EN (i : Nat) : Field := ⟨(Reg.SFB_CFGf i), 31, 31⟩
def SFB_CFGf_KSAFE (i : Nat) : Field := ⟨(Reg.SFB_CFGf i), 30, 30⟩
def SFB_CFGf_VRDCUT (i : Nat) : Field := ⟨(Reg.SFB_CFGf i), 29, 29⟩
def SFB_CFGf_RESTART (i : Nat) : Field := ⟨(Reg.SFB_CFGf i), 28, 28⟩
def SFB_CFGf_MODE (i : Nat) : Field := ⟨(Reg.SFB_CFGf i), 27, 27⟩
def SFB_CFGf_FILT (i : Nat) : Field := ⟨(Reg.SFB_CFGf i), 26, 25⟩
def SFB_CFGf_TPSB (i : Nat) : Field := ⟨(Reg.SFB_CFGf i), 24, 22⟩
def SFB_CFGf_TPSA (i : Nat) : Field := ⟨(Reg.SFB_CFGf i), 21, 19⟩
def SFB_CFGf_CHB (i : Nat) : Field := ⟨(Reg.SFB_CFGf i), 18, 14⟩
def SFB_CFGf_CHA (i : Nat) : Field := ⟨(Reg.SFB_CFGf i), 13, 9⟩
def SFB_CFGf_DISC (i : Nat) : Field := ⟨(Reg.SFB_CFGf i), 8, 0⟩
def SFB_MASKf_MASK (i : Nat) : Field := ⟨(Reg.SFB_MASKf i), 31, 0⟩
def SFB_STATf_DEMAND (i : Nat) : Field := ⟨(Reg.SFB_STATf i), 31, 31⟩
def SFB_STATf_LOCKED (i : Nat) : Field := ⟨(Reg.SFB_STATf i), 30, 30⟩
def SFB_STATf_FAULT (i : Nat) : Field := ⟨(Reg.SFB_STATf i), 29, 29⟩
def SFB_STATf_FCAUSE (i : Nat) : Field := ⟨(Reg.SFB_STATf i), 28, 26⟩
def SFB_STATf_INA (i : Nat) : Field := ⟨(Reg.SFB_STATf i), 25, 25⟩
def SFB_STATf_INB (i : Nat) : Field := ⟨(Reg.SFB_STATf i), 24, 24⟩
def SFB_STATf_DEMCNT (i : Nat) : Field := ⟨(Reg.SFB_STATf i), 15, 0⟩
def FIO_CAP0_CH : Field := ⟨Reg.FIO_CAP0, 31, 24⟩
def FIO_CAP0_TPS : Field := ⟨Reg.FIO_CAP0, 23, 16⟩
def FIO_CAP0_GROUP_A : Field := ⟨Reg.FIO_CAP0, 15, 8⟩
def FIO_CAP0_REFR_US : Field := ⟨Reg.FIO_CAP0, 7, 0⟩
def FIO_CAP1_ILIM_MA : Field := ⟨Reg.FIO_CAP1, 31, 16⟩
def FIO_CAP1_FILTMAX : Field := ⟨Reg.FIO_CAP1, 15, 8⟩
def FIO_CAP1_FILTMIN : Field := ⟨Reg.FIO_CAP1, 7, 0⟩
def FIO_STAT_AGAIN : Field := ⟨Reg.FIO_STAT, 31, 31⟩
def FIO_STAT_CFGOK : Field := ⟨Reg.FIO_STAT, 5, 5⟩
def FIO_STAT_FPWR : Field := ⟨Reg.FIO_STAT, 4, 4⟩
def FIO_STAT_VF_OK : Field := ⟨Reg.FIO_STAT, 3, 3⟩
def FIO_STAT_GRPTRIP : Field := ⟨Reg.FIO_STAT, 2, 2⟩
def FIO_STAT_UPOK : Field := ⟨Reg.FIO_STAT, 1, 1⟩
def FIO_STAT_DNOK : Field := ⟨Reg.FIO_STAT, 0, 0⟩
def FIO_CTRL_STATCLR : Field := ⟨Reg.FIO_CTRL, 1, 1⟩
def FIO_CTRL_GRPRST : Field := ⟨Reg.FIO_CTRL, 0, 0⟩
def FIO_IN_IN : Field := ⟨Reg.FIO_IN, 31, 0⟩
def FIO_RAW_RAW : Field := ⟨Reg.FIO_RAW, 31, 0⟩
def FIO_LOST_LOST : Field := ⟨Reg.FIO_LOST, 31, 0⟩
def FIO_GRPI_MAX : Field := ⟨Reg.FIO_GRPI, 31, 16⟩
def FIO_GRPI_NOW : Field := ⟨Reg.FIO_GRPI, 15, 0⟩
def FIO_LINKERR_UP : Field := ⟨Reg.FIO_LINKERR, 31, 16⟩
def FIO_LINKERR_DOWN : Field := ⟨Reg.FIO_LINKERR, 15, 0⟩
def FIO_REFSEQ_SEQ : Field := ⟨Reg.FIO_REFSEQ, 15, 0⟩
def FIO_CFGc_MODE (i : Nat) : Field := ⟨(Reg.FIO_CFGc i), 31, 28⟩
def FIO_CFGc_TPS (i : Nat) : Field := ⟨(Reg.FIO_CFGc i), 26, 24⟩
def FIO_CFGc_FILT (i : Nat) : Field := ⟨(Reg.FIO_CFGc i), 7, 0⟩
def FIO_CHc_CURRENT (i : Nat) : Field := ⟨(Reg.FIO_CHc i), 31, 20⟩
def FIO_CHc_VOLT (i : Nat) : Field := ⟨(Reg.FIO_CHc i), 19, 12⟩
def FIO_CHc_STATUS (i : Nat) : Field := ⟨(Reg.FIO_CHc i), 3, 0⟩
def RNG_x_CAP0_MAXWIN (x : Nat) : Field := ⟨(Reg.RNG_x_CAP0 x), 31, 16⟩
def RNG_x_CAP0_UNITWIN (x : Nat) : Field := ⟨(Reg.RNG_x_CAP0 x), 15, 8⟩
def RNG_x_CAP0_WINBYTES (x : Nat) : Field := ⟨(Reg.RNG_x_CAP0 x), 7, 0⟩
def RNG_x_CAP1_ELEMS (x : Nat) : Field := ⟨(Reg.RNG_x_CAP1 x), 31, 24⟩
def RNG_x_CAP1_TOL_PPM (x : Nat) : Field := ⟨(Reg.RNG_x_CAP1 x), 23, 16⟩
def RNG_x_CAP1_MAX_PPM (x : Nat) : Field := ⟨(Reg.RNG_x_CAP1 x), 15, 8⟩
def RNG_x_CAP1_BUFCG (x : Nat) : Field := ⟨(Reg.RNG_x_CAP1 x), 7, 0⟩
def RNG_x_STAT_AGAIN (x : Nat) : Field := ⟨(Reg.RNG_x_STAT x), 31, 31⟩
def RNG_x_STAT_JOINOK (x : Nat) : Field := ⟨(Reg.RNG_x_STAT x), 7, 7⟩
def RNG_x_STAT_INSERTED (x : Nat) : Field := ⟨(Reg.RNG_x_STAT x), 6, 6⟩
def RNG_x_STAT_LINK (x : Nat) : Field := ⟨(Reg.RNG_x_STAT x), 5, 5⟩
def RNG_x_STAT_MASTER (x : Nat) : Field := ⟨(Reg.RNG_x_STAT x), 4, 4⟩
def RNG_x_STAT_ROLE (x : Nat) : Field := ⟨(Reg.RNG_x_STAT x), 3, 0⟩
def RNG_x_CTRL_STATCLR (x : Nat) : Field := ⟨(Reg.RNG_x_CTRL x), 1, 1⟩
def RNG_x_CTRL_HALT (x : Nat) : Field := ⟨(Reg.RNG_x_CTRL x), 0, 0⟩
def RNG_x_CYCLE_RCYC (x : Nat) : Field := ⟨(Reg.RNG_x_CYCLE x), 31, 0⟩
def RNG_x_MCLAIM_CLAIM (x : Nat) : Field := ⟨(Reg.RNG_x_MCLAIM x), 31, 0⟩
def RNG_x_MSERIAL_SERIAL (x : Nat) : Field := ⟨(Reg.RNG_x_MSERIAL x), 31, 0⟩
def RNG_x_ROT_MAX (x : Nat) : Field := ⟨(Reg.RNG_x_ROT x), 31, 16⟩
def RNG_x_ROT_LAST (x : Nat) : Field := ⟨(Reg.RNG_x_ROT x), 15, 0⟩
def RNG_x_HOPS_EXPECT (x : Nat) : Field := ⟨(Reg.RNG_x_HOPS x), 25, 16⟩
def RNG_x_HOPS_SEEN (x : Nat) : Field := ⟨(Reg.RNG_x_HOPS x), 9, 0⟩
def RNG_x_WIN_UNWRIT (x : Nat) : Field := ⟨(Reg.RNG_x_WIN x), 25, 16⟩
def RNG_x_WIN_VALID (x : Nat) : Field := ⟨(Reg.RNG_x_WIN x), 9, 0⟩
def RNG_x_ERR_SEAL (x : Nat) : Field := ⟨(Reg.RNG_x_ERR x), 31, 16⟩
def RNG_x_ERR_CMD (x : Nat) : Field := ⟨(Reg.RNG_x_ERR x), 15, 0⟩
def RNG_x_SUSPECT_VALID (x : Nat) : Field := ⟨(Reg.RNG_x_SUSPECT x), 31, 31⟩
def RNG_x_SUSPECT_OUTCOME (x : Nat) : Field := ⟨(Reg.RNG_x_SUSPECT x), 30, 29⟩
def RNG_x_SUSPECT_ORD (x : Nat) : Field := ⟨(Reg.RNG_x_SUSPECT x), 25, 16⟩
def RNG_x_SUSPECT_POS (x : Nat) : Field := ⟨(Reg.RNG_x_SUSPECT x), 9, 0⟩
def RNG_x_SUSPCYC_RCYC (x : Nat) : Field := ⟨(Reg.RNG_x_SUSPCYC x), 31, 0⟩
def RNG_x_DRIFT_PPM10 (x : Nat) : Field := ⟨(Reg.RNG_x_DRIFT x), 15, 0⟩
def RNG_x_COLD_TRIES (x : Nat) : Field := ⟨(Reg.RNG_x_COLD x), 23, 16⟩
def RNG_x_COLD_YIELDS (x : Nat) : Field := ⟨(Reg.RNG_x_COLD x), 15, 8⟩
def RNG_x_COLD_BACKOFF (x : Nat) : Field := ⟨(Reg.RNG_x_COLD x), 7, 0⟩
def RNG_x_READMIT_REQ (x : Nat) : Field := ⟨(Reg.RNG_x_READMIT x), 31, 31⟩
def RNG_x_READMIT_POS (x : Nat) : Field := ⟨(Reg.RNG_x_READMIT x), 9, 0⟩
def RSCH_CAP0_MAXWIN : Field := ⟨Reg.RSCH_CAP0, 31, 16⟩
def RSCH_CAP0_MAXNODES : Field := ⟨Reg.RSCH_CAP0, 15, 0⟩
def RSCH_STAT_AGAIN : Field := ⟨Reg.RSCH_STAT, 31, 31⟩
def RSCH_STAT_USED : Field := ⟨Reg.RSCH_STAT, 3, 0⟩
def RSCH_NWIN_BR1 : Field := ⟨Reg.RSCH_NWIN, 25, 16⟩
def RSCH_NWIN_BR0 : Field := ⟨Reg.RSCH_NWIN, 9, 0⟩
def RSCH_SCHEDID_SCHEDID : Field := ⟨Reg.RSCH_SCHEDID, 31, 0⟩
def RSCH_NUNIT_NUNIT : Field := ⟨Reg.RSCH_NUNIT, 1, 0⟩
def RSCH_ORDSEL_RING : Field := ⟨Reg.RSCH_ORDSEL, 17, 16⟩
def RSCH_ORDSEL_IDX : Field := ⟨Reg.RSCH_ORDSEL, 9, 0⟩
def RSCH_ORDDATA_VALID : Field := ⟨Reg.RSCH_ORDDATA, 31, 31⟩
def RSCH_ORDDATA_UNIT : Field := ⟨Reg.RSCH_ORDDATA, 30, 30⟩
def RSCH_ORDDATA_POS : Field := ⟨Reg.RSCH_ORDDATA, 9, 0⟩
def RSCH_ORDLEN01_A1 : Field := ⟨Reg.RSCH_ORDLEN01, 25, 16⟩
def RSCH_ORDLEN01_A0 : Field := ⟨Reg.RSCH_ORDLEN01, 9, 0⟩
def RSCH_ORDLEN23_B1 : Field := ⟨Reg.RSCH_ORDLEN23, 25, 16⟩
def RSCH_ORDLEN23_B0 : Field := ⟨Reg.RSCH_ORDLEN23, 9, 0⟩
def RSCH_MISMATCH_VALID : Field := ⟨Reg.RSCH_MISMATCH, 31, 31⟩
def RSCH_MISMATCH_RING : Field := ⟨Reg.RSCH_MISMATCH, 29, 28⟩
def RSCH_MISMATCH_HOP : Field := ⟨Reg.RSCH_MISMATCH, 25, 16⟩
def RSCH_MISMATCH_POS : Field := ⟨Reg.RSCH_MISMATCH, 9, 0⟩
def RSCH_SCHEDFOR_SCHEDID : Field := ⟨Reg.RSCH_SCHEDFOR, 31, 0⟩
def TWIN_CAP0_XBLKS : Field := ⟨Reg.TWIN_CAP0, 31, 16⟩
def TWIN_CAP0_NEEDMAX : Field := ⟨Reg.TWIN_CAP0, 15, 8⟩
def TWIN_CAP0_LINKS : Field := ⟨Reg.TWIN_CAP0, 7, 0⟩
def TWIN_STAT_AGAIN : Field := ⟨Reg.TWIN_STAT, 31, 31⟩
def TWIN_STAT_ROLECLASH : Field := ⟨Reg.TWIN_STAT, 11, 11⟩
def TWIN_STAT_RESTRICT : Field := ⟨Reg.TWIN_STAT, 10, 10⟩
def TWIN_STAT_SYNCED : Field := ⟨Reg.TWIN_STAT, 9, 9⟩
def TWIN_STAT_LINK : Field := ⟨Reg.TWIN_STAT, 8, 8⟩
def TWIN_STAT_WITNESS : Field := ⟨Reg.TWIN_STAT, 7, 6⟩
def TWIN_STAT_TWIN : Field := ⟨Reg.TWIN_STAT, 4, 4⟩
def TWIN_STAT_LETTER : Field := ⟨Reg.TWIN_STAT, 3, 3⟩
def TWIN_STAT_ROLE : Field := ⟨Reg.TWIN_STAT, 2, 0⟩
def TWIN_CTRL_STATCLR : Field := ⟨Reg.TWIN_CTRL, 1, 1⟩
def TWIN_CLAIM_CLAIM : Field := ⟨Reg.TWIN_CLAIM, 31, 0⟩
def TWIN_PCLAIM_PCLAIM : Field := ⟨Reg.TWIN_PCLAIM, 31, 0⟩
def TWIN_PSERIAL_PSERIAL : Field := ⟨Reg.TWIN_PSERIAL, 31, 0⟩
def TWIN_EPOCH_EPOCH : Field := ⟨Reg.TWIN_EPOCH, 23, 0⟩
def TWIN_ALIGN_MAX : Field := ⟨Reg.TWIN_ALIGN, 31, 24⟩
def TWIN_ALIGN_SRC : Field := ⟨Reg.TWIN_ALIGN, 23, 22⟩
def TWIN_ALIGN_ERR : Field := ⟨Reg.TWIN_ALIGN, 15, 0⟩
def TWIN_LINKDLY_DELAY : Field := ⟨Reg.TWIN_LINKDLY, 15, 0⟩
def TWIN_XFER_PHASE : Field := ⟨Reg.TWIN_XFER, 31, 29⟩
def TWIN_XFER_DONOR : Field := ⟨Reg.TWIN_XFER, 28, 28⟩
def TWIN_XFER_CYCLES : Field := ⟨Reg.TWIN_XFER, 23, 16⟩
def TWIN_XFER_BLKLEFT : Field := ⟨Reg.TWIN_XFER, 10, 0⟩
def TWIN_XFERLAST_VALID : Field := ⟨Reg.TWIN_XFERLAST, 31, 31⟩
def TWIN_XFERLAST_OK : Field := ⟨Reg.TWIN_XFERLAST, 30, 30⟩
def TWIN_XFERLAST_CAUSE : Field := ⟨Reg.TWIN_XFERLAST, 29, 26⟩
def TWIN_XFERLAST_DUR_MS : Field := ⟨Reg.TWIN_XFERLAST, 15, 0⟩
def TWIN_DIGCMP_RUN : Field := ⟨Reg.TWIN_DIGCMP, 31, 24⟩
def TWIN_DIGCMP_SRC : Field := ⟨Reg.TWIN_DIGCMP, 23, 22⟩
def TWIN_DIGCMP_NOCMP : Field := ⟨Reg.TWIN_DIGCMP, 15, 8⟩
def TWIN_DIGMISS_CYCLE : Field := ⟨Reg.TWIN_DIGMISS, 31, 0⟩
def TWIN_WITNESS_HEAR : Field := ⟨Reg.TWIN_WITNESS, 26, 16⟩
def TWIN_WITNESS_COVER : Field := ⟨Reg.TWIN_WITNESS, 10, 0⟩
def TWIN_WITCFG_QUORUM : Field := ⟨Reg.TWIN_WITCFG, 15, 8⟩
def TWIN_WITCFG_WCYC : Field := ⟨Reg.TWIN_WITCFG, 7, 0⟩
def TWIN_SWAP_ARMED : Field := ⟨Reg.TWIN_SWAP, 31, 31⟩
def TWIN_SWAP_REF : Field := ⟨Reg.TWIN_SWAP, 27, 24⟩
def TWIN_SWAP_NEWEPOCH : Field := ⟨Reg.TWIN_SWAP, 23, 0⟩
def TWIN_SWAPCYC_S : Field := ⟨Reg.TWIN_SWAPCYC, 31, 0⟩
def TWIN_LINKERR_DOWNS : Field := ⟨Reg.TWIN_LINKERR, 31, 16⟩
def TWIN_LINKERR_BAD : Field := ⟨Reg.TWIN_LINKERR, 15, 0⟩
def TWIN_ROLECHG_VALID : Field := ⟨Reg.TWIN_ROLECHG, 31, 31⟩
def TWIN_ROLECHG_CAUSE : Field := ⟨Reg.TWIN_ROLECHG, 27, 24⟩
def TWIN_ROLECHG_FROM : Field := ⟨Reg.TWIN_ROLECHG, 22, 20⟩
def TWIN_ROLECHG_TO : Field := ⟨Reg.TWIN_ROLECHG, 18, 16⟩
def TWIN_ROLECYC_CYCLE : Field := ⟨Reg.TWIN_ROLECYC, 31, 0⟩
def HSTx_STAT_AGAIN (x : Nat) : Field := ⟨(Reg.HSTx_STAT x), 31, 31⟩
def HSTx_STAT_V6 (x : Nat) : Field := ⟨(Reg.HSTx_STAT x), 3, 3⟩
def HSTx_STAT_V4 (x : Nat) : Field := ⟨(Reg.HSTx_STAT x), 2, 2⟩
def HSTx_STAT_FDX (x : Nat) : Field := ⟨(Reg.HSTx_STAT x), 1, 1⟩
def HSTx_STAT_LINK (x : Nat) : Field := ⟨(Reg.HSTx_STAT x), 0, 0⟩
def HSTx_CTRL_STATCLR (x : Nat) : Field := ⟨(Reg.HSTx_CTRL x), 0, 0⟩
def HSTx_MACLO_MACLO (x : Nat) : Field := ⟨(Reg.HSTx_MACLO x), 31, 0⟩
def HSTx_MACHI_MACHI (x : Nat) : Field := ⟨(Reg.HSTx_MACHI x), 15, 0⟩
def HSTx_IP4_IP4 (x : Nat) : Field := ⟨(Reg.HSTx_IP4 x), 31, 0⟩
def HSTx_IP4GW_IP4GW (x : Nat) : Field := ⟨(Reg.HSTx_IP4GW x), 31, 0⟩
def HSTx_PREFIX_P6 (x : Nat) : Field := ⟨(Reg.HSTx_PREFIX x), 15, 8⟩
def HSTx_PREFIX_P4 (x : Nat) : Field := ⟨(Reg.HSTx_PREFIX x), 7, 0⟩
def HSTx_IP6i_IP6 (x : Nat) (i : Nat) : Field := ⟨(Reg.HSTx_IP6i x i), 31, 0⟩
def HSTx_IP6GWi_IP6GW (x : Nat) (i : Nat) : Field := ⟨(Reg.HSTx_IP6GWi x i), 31, 0⟩
def HSTx_RXCNT_RXCNT (x : Nat) : Field := ⟨(Reg.HSTx_RXCNT x), 31, 0⟩
def HSTx_DROP_DROP (x : Nat) : Field := ⟨(Reg.HSTx_DROP x), 31, 0⟩
def SESS_STAT_AGAIN : Field := ⟨Reg.SESS_STAT, 31, 31⟩
def SESS_STAT_HALT : Field := ⟨Reg.SESS_STAT, 18, 18⟩
def SESS_STAT_OPEN : Field := ⟨Reg.SESS_STAT, 15, 0⟩
def SESS_CTRL_STATCLR : Field := ⟨Reg.SESS_CTRL, 0, 0⟩
def SESS_DOMAIN_DOMAIN : Field := ⟨Reg.SESS_DOMAIN, 31, 0⟩
def SESS_REQNUM_REQNUM : Field := ⟨Reg.SESS_REQNUM, 31, 0⟩
def SESS_CFGs_EN (i : Nat) : Field := ⟨(Reg.SESS_CFGs i), 31, 31⟩
def SESS_CFGs_CLASS (i : Nat) : Field := ⟨(Reg.SESS_CFGs i), 30, 29⟩
def SESS_CFGs_NOTIFY (i : Nat) : Field := ⟨(Reg.SESS_CFGs i), 28, 28⟩
def SESS_CFGs_PERMS (i : Nat) : Field := ⟨(Reg.SESS_CFGs i), 27, 20⟩
def SESS_CFGs_RATE (i : Nat) : Field := ⟨(Reg.SESS_CFGs i), 19, 10⟩
def SESS_CFGs_TOL (i : Nat) : Field := ⟨(Reg.SESS_CFGs i), 9, 0⟩
def SESS_STATEs_OPEN (i : Nat) : Field := ⟨(Reg.SESS_STATEs i), 31, 31⟩
def SESS_STATEs_BLOCKED (i : Nat) : Field := ⟨(Reg.SESS_STATEs i), 30, 30⟩
def SESS_STATEs_KEY (i : Nat) : Field := ⟨(Reg.SESS_STATEs i), 29, 29⟩
def SESS_SEQs_SSEQ (i : Nat) : Field := ⟨(Reg.SESS_SEQs i), 31, 0⟩
def SESS_EPOCHs_SEPOCH (i : Nat) : Field := ⟨(Reg.SESS_EPOCHs i), 31, 0⟩
def SESS_ERRs_GAPS (i : Nat) : Field := ⟨(Reg.SESS_ERRs i), 31, 24⟩
def SESS_ERRs_REPLAY (i : Nat) : Field := ⟨(Reg.SESS_ERRs i), 23, 16⟩
def SESS_ERRs_UNTIMELY (i : Nat) : Field := ⟨(Reg.SESS_ERRs i), 15, 8⟩
def SESS_ERRs_BADMAC (i : Nat) : Field := ⟨(Reg.SESS_ERRs i), 7, 0⟩
def SESS_LOSSs_LOST (i : Nat) : Field := ⟨(Reg.SESS_LOSSs i), 31, 0⟩
def QUE_STAT_AGAIN : Field := ⟨Reg.QUE_STAT, 31, 31⟩
def QUE_CFGq_DEPTH (i : Nat) : Field := ⟨(Reg.QUE_CFGq i), 31, 16⟩
def QUE_CFGq_ESIZE (i : Nat) : Field := ⟨(Reg.QUE_CFGq i), 15, 4⟩
def QUE_HEADq_HEAD (i : Nat) : Field := ⟨(Reg.QUE_HEADq i), 31, 0⟩
def QUE_FILLq_READY (i : Nat) : Field := ⟨(Reg.QUE_FILLq i), 31, 16⟩
def QUE_FILLq_USED (i : Nat) : Field := ⟨(Reg.QUE_FILLq i), 15, 0⟩
def QUE_CONSUMEq_SEQ (i : Nat) : Field := ⟨(Reg.QUE_CONSUMEq i), 31, 0⟩
def IRQ_CAP0_SOURCES : Field := ⟨Reg.IRQ_CAP0, 31, 16⟩
def IRQ_CAP0_CORES : Field := ⟨Reg.IRQ_CAP0, 15, 8⟩
def IRQ_CAP0_RINGS : Field := ⟨Reg.IRQ_CAP0, 7, 0⟩
def IRQ_CTRL_STATCLR : Field := ⟨Reg.IRQ_CTRL, 0, 0⟩
def IRQ_DOORBELL_WITHDRAW : Field := ⟨Reg.IRQ_DOORBELL, 31, 31⟩
def IRQ_DOORBELL_SOURCE : Field := ⟨Reg.IRQ_DOORBELL, 9, 0⟩
def IRQ_RINGCNT_RINGS : Field := ⟨Reg.IRQ_RINGCNT, 31, 0⟩
def IRQ_SPURCNT_SPUR : Field := ⟨Reg.IRQ_SPURCNT, 31, 0⟩
def IRQ_CLAIMc_CLAIM (i : Nat) : Field := ⟨(Reg.IRQ_CLAIMc i), 0, 0⟩
def IRQ_CLAIMEDc_VALID (i : Nat) : Field := ⟨(Reg.IRQ_CLAIMEDc i), 31, 31⟩
def IRQ_CLAIMEDc_SOURCE (i : Nat) : Field := ⟨(Reg.IRQ_CLAIMEDc i), 9, 0⟩
def IRQ_DONEc_SOURCE (i : Nat) : Field := ⟨(Reg.IRQ_DONEc i), 9, 0⟩
def IRQ_THRc_THRESH (i : Nat) : Field := ⟨(Reg.IRQ_THRc i), 3, 0⟩
def IRQ_SRCn_MASK (i : Nat) : Field := ⟨(Reg.IRQ_SRCn i), 31, 31⟩
def IRQ_SRCn_PRIO (i : Nat) : Field := ⟨(Reg.IRQ_SRCn i), 26, 24⟩
def IRQ_SRCn_TARGET (i : Nat) : Field := ⟨(Reg.IRQ_SRCn i), 20, 16⟩
def IRQ_SRCn_STATE (i : Nat) : Field := ⟨(Reg.IRQ_SRCn i), 1, 0⟩
def BRG_CAP0_VTS_KIB : Field := ⟨Reg.BRG_CAP0, 31, 16⟩
def BRG_CAP0_LOGS : Field := ⟨Reg.BRG_CAP0, 15, 8⟩
def BRG_CAP0_RETRIES : Field := ⟨Reg.BRG_CAP0, 7, 0⟩
def BRG_STAT_AGAIN : Field := ⟨Reg.BRG_STAT, 31, 31⟩
def BRG_STAT_PF_ON : Field := ⟨Reg.BRG_STAT, 1, 1⟩
def BRG_STAT_VITAL_UP : Field := ⟨Reg.BRG_STAT, 0, 0⟩
def BRG_CTRL_STATCLR : Field := ⟨Reg.BRG_CTRL, 1, 1⟩
def BRG_CTRL_PF_EN : Field := ⟨Reg.BRG_CTRL, 0, 0⟩
def BRG_VTS_MAX : Field := ⟨Reg.BRG_VTS, 31, 16⟩
def BRG_VTS_NOW : Field := ⟨Reg.BRG_VTS, 15, 0⟩
def BRG_VTSDROP_DROP : Field := ⟨Reg.BRG_VTSDROP, 31, 0⟩
def BRG_BACKOFF_BACKOFF : Field := ⟨Reg.BRG_BACKOFF, 31, 0⟩
def BRG_LOGHEAD_TOTAL : Field := ⟨Reg.BRG_LOGHEAD, 31, 16⟩
def BRG_LOGHEAD_NEXT : Field := ⟨Reg.BRG_LOGHEAD, 3, 0⟩
def BRG_ERRLOG0i_ADDR (i : Nat) : Field := ⟨(Reg.BRG_ERRLOG0i i), 31, 0⟩
def BRG_ERRLOG1i_CAUSE (i : Nat) : Field := ⟨(Reg.BRG_ERRLOG1i i), 31, 28⟩
def BRG_ERRLOG1i_CORE (i : Nat) : Field := ⟨(Reg.BRG_ERRLOG1i i), 27, 27⟩
def BRG_ERRLOG1i_ORIGIN (i : Nat) : Field := ⟨(Reg.BRG_ERRLOG1i i), 19, 16⟩
def BRG_ERRLOG2i_TAG (i : Nat) : Field := ⟨(Reg.BRG_ERRLOG2i i), 31, 0⟩
def BRG_ERRLOG3i_CYCLE (i : Nat) : Field := ⟨(Reg.BRG_ERRLOG3i i), 31, 0⟩
def BRG_PERRs_COUNT (i : Nat) : Field := ⟨(Reg.BRG_PERRs i), 31, 0⟩
def BRG_PERRCc_COUNT (i : Nat) : Field := ⟨(Reg.BRG_PERRCc i), 31, 0⟩
def CRC_CAP0_ENGINES : Field := ⟨Reg.CRC_CAP0, 31, 24⟩
def CRC_CAP0_WMAX : Field := ⟨Reg.CRC_CAP0, 23, 16⟩
def CRC_CAP0_WMIN : Field := ⟨Reg.CRC_CAP0, 15, 8⟩
def CRC_STAT_AGAIN : Field := ⟨Reg.CRC_STAT, 31, 31⟩
def CRC_STAT_BUSY : Field := ⟨Reg.CRC_STAT, 3, 0⟩
def CRC_CFGe_WIDTH (i : Nat) : Field := ⟨(Reg.CRC_CFGe i), 22, 16⟩
def CRC_CFGe_FOLDLEN (i : Nat) : Field := ⟨(Reg.CRC_CFGe i), 9, 8⟩
def CRC_CFGe_INV (i : Nat) : Field := ⟨(Reg.CRC_CFGe i), 2, 2⟩
def CRC_CFGe_REFOUT (i : Nat) : Field := ⟨(Reg.CRC_CFGe i), 1, 1⟩
def CRC_CFGe_REFIN (i : Nat) : Field := ⟨(Reg.CRC_CFGe i), 0, 0⟩
def CRC_POLYLOe_POLY (i : Nat) : Field := ⟨(Reg.CRC_POLYLOe i), 31, 0⟩
def CRC_POLYHIe_POLY (i : Nat) : Field := ⟨(Reg.CRC_POLYHIe i), 31, 0⟩
def CRC_INITLOe_INIT (i : Nat) : Field := ⟨(Reg.CRC_INITLOe i), 31, 0⟩
def CRC_INITHIe_INIT (i : Nat) : Field := ⟨(Reg.CRC_INITHIe i), 31, 0⟩
def CRC_FOLDLOe_FOLD (i : Nat) : Field := ⟨(Reg.CRC_FOLDLOe i), 31, 0⟩
def CRC_FOLDHIe_FOLD (i : Nat) : Field := ⟨(Reg.CRC_FOLDHIe i), 31, 0⟩
def CRC_SRCe_SRC (i : Nat) : Field := ⟨(Reg.CRC_SRCe i), 31, 0⟩
def CRC_LENe_LEN (i : Nat) : Field := ⟨(Reg.CRC_LENe i), 27, 0⟩
def CRC_GOe_GO (i : Nat) : Field := ⟨(Reg.CRC_GOe i), 0, 0⟩
def CRC_RESLOe_RES (i : Nat) : Field := ⟨(Reg.CRC_RESLOe i), 31, 0⟩
def CRC_RESHIe_RES (i : Nat) : Field := ⟨(Reg.CRC_RESHIe i), 31, 0⟩
def CRC_RESSTe_VALID (i : Nat) : Field := ⟨(Reg.CRC_RESSTe i), 31, 31⟩
def CRC_RESSTe_ERR (i : Nat) : Field := ⟨(Reg.CRC_RESSTe i), 30, 30⟩
def CRC_RESSTe_BUSY (i : Nat) : Field := ⟨(Reg.CRC_RESSTe i), 29, 29⟩
def EVR_CAP0_CIRC : Field := ⟨Reg.EVR_CAP0, 31, 0⟩
def EVR_CAP1_ROOT : Field := ⟨Reg.EVR_CAP1, 31, 16⟩
def EVR_CAP1_RATE : Field := ⟨Reg.EVR_CAP1, 15, 0⟩
def EVR_STAT_AGAIN : Field := ⟨Reg.EVR_STAT, 31, 31⟩
def EVR_STAT_CLEARING : Field := ⟨Reg.EVR_STAT, 2, 2⟩
def EVR_STAT_ROOTFULL : Field := ⟨Reg.EVR_STAT, 1, 1⟩
def EVR_STAT_OX7 : Field := ⟨Reg.EVR_STAT, 0, 0⟩
def EVR_CTRL_STATCLR : Field := ⟨Reg.EVR_CTRL, 0, 0⟩
def EVR_MODE_OX7 : Field := ⟨Reg.EVR_MODE, 0, 0⟩
def EVR_NEXTSEQ_RSEQ : Field := ⟨Reg.EVR_NEXTSEQ, 31, 0⟩
def EVR_WSLOT_SLOT : Field := ⟨Reg.EVR_WSLOT, 19, 0⟩
def EVR_OLDEST_RSEQ : Field := ⟨Reg.EVR_OLDEST, 31, 0⟩
def EVR_ROOTUSED_USED : Field := ⟨Reg.EVR_ROOTUSED, 14, 0⟩
def EVR_STAGE_MAX : Field := ⟨Reg.EVR_STAGE, 31, 16⟩
def EVR_STAGE_NOW : Field := ⟨Reg.EVR_STAGE, 15, 0⟩
def EVR_RATE_MAX : Field := ⟨Reg.EVR_RATE, 31, 16⟩
def EVR_RATE_LAST : Field := ⟨Reg.EVR_RATE, 15, 0⟩
def EVR_LOSSc_LOST (i : Nat) : Field := ⟨(Reg.EVR_LOSSc i), 31, 0⟩
def EVR_LOSSQ49_LOST : Field := ⟨Reg.EVR_LOSSQ49, 31, 0⟩
def EVR_SUBs_AREA (i : Nat) : Field := ⟨(Reg.EVR_SUBs i), 31, 17⟩
def EVR_SUBs_CLASS (i : Nat) : Field := ⟨(Reg.EVR_SUBs i), 3, 0⟩
def JRN_CAP0_ENTRIES : Field := ⟨Reg.JRN_CAP0, 31, 8⟩
def JRN_CAP0_BYTES : Field := ⟨Reg.JRN_CAP0, 7, 0⟩
def JRN_STAT_AGAIN : Field := ⟨Reg.JRN_STAT, 31, 31⟩
def JRN_STAT_WRAPPED : Field := ⟨Reg.JRN_STAT, 0, 0⟩
def JRN_CTRL_STATCLR : Field := ⟨Reg.JRN_CTRL, 0, 0⟩
def JRN_NEWEST_JIX : Field := ⟨Reg.JRN_NEWEST, 31, 0⟩
def JRN_OLDEST_JIX : Field := ⟨Reg.JRN_OLDEST, 31, 0⟩
def JRN_SEALCNT_COUNT : Field := ⟨Reg.JRN_SEALCNT, 31, 0⟩
def PMON_CAP0_PEACNT : Field := ⟨Reg.PMON_CAP0, 31, 24⟩
def PMON_CAP0_PODCNT : Field := ⟨Reg.PMON_CAP0, 23, 16⟩
def PMON_CAP0_NMIN : Field := ⟨Reg.PMON_CAP0, 15, 8⟩
def PMON_CAP0_NMAX : Field := ⟨Reg.PMON_CAP0, 7, 0⟩
def PMON_STAT_AGAIN : Field := ⟨Reg.PMON_STAT, 31, 31⟩
def PMON_STAT_SAMPOPEN : Field := ⟨Reg.PMON_STAT, 6, 4⟩
def PMON_STAT_GATED : Field := ⟨Reg.PMON_STAT, 2, 0⟩
def PMON_CTRL_SNAP : Field := ⟨Reg.PMON_CTRL, 1, 1⟩
def PMON_CTRL_STATCLR : Field := ⟨Reg.PMON_CTRL, 0, 0⟩
def PMON_GATE_GATE : Field := ⟨Reg.PMON_GATE, 2, 0⟩
def PMON_SAMPCFG_EN : Field := ⟨Reg.PMON_SAMPCFG, 31, 31⟩
def PMON_SAMPCFG_PEA : Field := ⟨Reg.PMON_SAMPCFG, 17, 16⟩
def PMON_SAMPCFG_N : Field := ⟨Reg.PMON_SAMPCFG, 12, 8⟩
def PMON_SAMPTASK_MASK : Field := ⟨Reg.PMON_SAMPTASK, 31, 0⟩
def PMON_SEED_SEED : Field := ⟨Reg.PMON_SEED, 31, 0⟩
def PMON_SAMPLOST_LOST : Field := ⟨Reg.PMON_SAMPLOST, 31, 0⟩
def PMON_SAMPCNT_COUNT : Field := ⟨Reg.PMON_SAMPCNT, 31, 0⟩
def PMON_SNAPCYC_CYCLE : Field := ⟨Reg.PMON_SNAPCYC, 31, 0⟩
def PMON_SNAPPER_PERIOD : Field := ⟨Reg.PMON_SNAPPER, 15, 0⟩
def PMON_TICKLOa_TICK : Field := ⟨Reg.PMON_TICKLOa, 31, 0⟩
def PMON_TICKHIa_TICK : Field := ⟨Reg.PMON_TICKHIa, 31, 0⟩
def PMON_EVSELa_i_EN (i : Nat) : Field := ⟨(Reg.PMON_EVSELa_i i), 31, 31⟩
def PMON_EVSELa_i_MODE (i : Nat) : Field := ⟨(Reg.PMON_EVSELa_i i), 30, 30⟩
def PMON_EVSELa_i_CHAIN (i : Nat) : Field := ⟨(Reg.PMON_EVSELa_i i), 29, 29⟩
def PMON_EVSELa_i_OVFEV (i : Nat) : Field := ⟨(Reg.PMON_EVSELa_i i), 28, 28⟩
def PMON_EVSELa_i_EVENT (i : Nat) : Field := ⟨(Reg.PMON_EVSELa_i i), 7, 0⟩
def PMON_CNTa_i_COUNT (i : Nat) : Field := ⟨(Reg.PMON_CNTa_i i), 31, 0⟩
def PMON_OVFa_OVF : Field := ⟨Reg.PMON_OVFa, 7, 0⟩
def PMON_TICKLOb_TICK : Field := ⟨Reg.PMON_TICKLOb, 31, 0⟩
def PMON_TICKHIb_TICK : Field := ⟨Reg.PMON_TICKHIb, 31, 0⟩
def PMON_EVSELb_i_EN (i : Nat) : Field := ⟨(Reg.PMON_EVSELb_i i), 31, 31⟩
def PMON_EVSELb_i_MODE (i : Nat) : Field := ⟨(Reg.PMON_EVSELb_i i), 30, 30⟩
def PMON_EVSELb_i_CHAIN (i : Nat) : Field := ⟨(Reg.PMON_EVSELb_i i), 29, 29⟩
def PMON_EVSELb_i_OVFEV (i : Nat) : Field := ⟨(Reg.PMON_EVSELb_i i), 28, 28⟩
def PMON_EVSELb_i_EVENT (i : Nat) : Field := ⟨(Reg.PMON_EVSELb_i i), 7, 0⟩
def PMON_CNTb_i_COUNT (i : Nat) : Field := ⟨(Reg.PMON_CNTb_i i), 31, 0⟩
def PMON_OVFb_OVF : Field := ⟨Reg.PMON_OVFb, 7, 0⟩
def PMON_TICKLOc_TICK : Field := ⟨Reg.PMON_TICKLOc, 31, 0⟩
def PMON_TICKHIc_TICK : Field := ⟨Reg.PMON_TICKHIc, 31, 0⟩
def PMON_EVSELc_i_EN (i : Nat) : Field := ⟨(Reg.PMON_EVSELc_i i), 31, 31⟩
def PMON_EVSELc_i_MODE (i : Nat) : Field := ⟨(Reg.PMON_EVSELc_i i), 30, 30⟩
def PMON_EVSELc_i_CHAIN (i : Nat) : Field := ⟨(Reg.PMON_EVSELc_i i), 29, 29⟩
def PMON_EVSELc_i_OVFEV (i : Nat) : Field := ⟨(Reg.PMON_EVSELc_i i), 28, 28⟩
def PMON_EVSELc_i_EVENT (i : Nat) : Field := ⟨(Reg.PMON_EVSELc_i i), 7, 0⟩
def PMON_CNTc_i_COUNT (i : Nat) : Field := ⟨(Reg.PMON_CNTc_i i), 31, 0⟩
def PMON_OVFc_OVF : Field := ⟨Reg.PMON_OVFc, 7, 0⟩
def PMON_PODi_COUNT (i : Nat) : Field := ⟨(Reg.PMON_PODi i), 31, 0⟩
def PMON_PODSNAPi_COUNT (i : Nat) : Field := ⟨(Reg.PMON_PODSNAPi i), 31, 0⟩
def BIST_STAT_AGAIN : Field := ⟨Reg.BIST_STAT, 31, 31⟩
def BIST_STAT_MODE : Field := ⟨Reg.BIST_STAT, 9, 8⟩
def BIST_STAT_SLICE : Field := ⟨Reg.BIST_STAT, 5, 0⟩
def BIST_PASS_MAP : Field := ⟨Reg.BIST_PASS, 31, 0⟩
def BIST_FAIL_VALID : Field := ⟨Reg.BIST_FAIL, 31, 31⟩
def BIST_FAIL_SLICE : Field := ⟨Reg.BIST_FAIL, 21, 16⟩
def BIST_FAIL_DETAIL : Field := ⟨Reg.BIST_FAIL, 15, 0⟩
def BIST_SEAL_VALID : Field := ⟨Reg.BIST_SEAL, 31, 31⟩
def BIST_SEAL_AGE_H : Field := ⟨Reg.BIST_SEAL, 15, 0⟩
def BIST_DUR_SHUT_MS : Field := ⟨Reg.BIST_DUR, 31, 16⟩
def BIST_DUR_START_MS : Field := ⟨Reg.BIST_DUR, 15, 0⟩
def BIST_REPAIRS_TOTAL : Field := ⟨Reg.BIST_REPAIRS, 31, 16⟩
def BIST_REPAIRS_NEW : Field := ⟨Reg.BIST_REPAIRS, 15, 0⟩
def MEM_BANKb_FAILED (i : Nat) : Field := ⟨(Reg.MEM_BANKb i), 31, 31⟩
def MEM_BANKb_OWNER (i : Nat) : Field := ⟨(Reg.MEM_BANKb i), 27, 24⟩
def MEM_BANKb_MODE (i : Nat) : Field := ⟨(Reg.MEM_BANKb i), 17, 16⟩
def MEM_BANKb_SPARES (i : Nat) : Field := ⟨(Reg.MEM_BANKb i), 15, 0⟩
def MEM_CONFb_RETRY (i : Nat) : Field := ⟨(Reg.MEM_CONFb i), 31, 0⟩
def UPD_STAT_AGAIN : Field := ⟨Reg.UPD_STAT, 31, 31⟩
def UPD_STAT_XFER : Field := ⟨Reg.UPD_STAT, 3, 2⟩
def UPD_STAT_TRIAL : Field := ⟨Reg.UPD_STAT, 1, 1⟩
def UPD_STAT_ARMED : Field := ⟨Reg.UPD_STAT, 0, 0⟩
def UPD_XID_XID : Field := ⟨Reg.UPD_XID, 31, 0⟩
def UPD_XOFF_NEXT : Field := ⟨Reg.UPD_XOFF, 31, 0⟩
def UPD_REJECT_VALID : Field := ⟨Reg.UPD_REJECT, 31, 31⟩
def UPD_REJECT_STEP : Field := ⟨Reg.UPD_REJECT, 19, 16⟩
def UPD_REJECT_STATUS : Field := ⟨Reg.UPD_REJECT, 7, 0⟩
def UPD_ACT_PHASE : Field := ⟨Reg.UPD_ACT, 30, 28⟩
def UPD_ACT_SLOT : Field := ⟨Reg.UPD_ACT, 1, 0⟩
def UPD_ACTCYC_A : Field := ⟨Reg.UPD_ACTCYC, 31, 0⟩
def UPD_SVNFLOOR_PG : Field := ⟨Reg.UPD_SVNFLOOR, 15, 8⟩
def UPD_SVNFLOOR_FW : Field := ⟨Reg.UPD_SVNFLOOR, 7, 0⟩
def UPD_SLOTk_VALID (i : Nat) : Field := ⟨(Reg.UPD_SLOTk i), 31, 31⟩
def UPD_SLOTk_ACTIVE (i : Nat) : Field := ⟨(Reg.UPD_SLOTk i), 30, 30⟩
def UPD_SLOTk_TRIAL (i : Nat) : Field := ⟨(Reg.UPD_SLOTk i), 29, 29⟩
def UPD_SLOTk_COMPAT (i : Nat) : Field := ⟨(Reg.UPD_SLOTk i), 23, 16⟩
def UPD_SLOTk_SVN (i : Nat) : Field := ⟨(Reg.UPD_SLOTk i), 15, 0⟩
def UPD_SLOTIDk_BUILD (i : Nat) : Field := ⟨(Reg.UPD_SLOTIDk i), 31, 0⟩
def UPD_SLOTBASEk_BASE (i : Nat) : Field := ⟨(Reg.UPD_SLOTBASEk i), 31, 0⟩
def UPD_SLOTLENk_LENGTH (i : Nat) : Field := ⟨(Reg.UPD_SLOTLENk i), 31, 0⟩

end Fld

namespace Evt

def SYS_STATE : Nat := 0
def SYS_BLOCKED : Nat := 1
def SYS_SEGMENT : Nat := 2
def SYS_STRAPCHG : Nat := 3
def SYS_RSTDISC : Nat := 4
def SYS_REVERT : Nat := 5
def SYS_SEALUSED : Nat := 6
def SYS_WAKE : Nat := 7
def PWR_SLEEP : Nat := 0
def PWR_WAKE : Nat := 1
def PWR_FEED : Nat := 2
def PWR_HOLDUP : Nat := 3
def TIME_SET : Nat := 0
def TIME_STEP : Nat := 1
def TIME_PPS_LOST : Nat := 2
def TIME_ALARM : Nat := 3
def CAL_USERBAD : Nat := 0
def CAL_WRITTEN : Nat := 1
def SEC_TAMPER : Nat := 0
def SEC_KEYS : Nat := 1
def SEC_LIFECYCLE : Nat := 2
def SEC_KEYREJ : Nat := 3
def PEA_CODEVIO : Nat := 0
def PEA_STALL : Nat := 1
def PEA_TRAP : Nat := 2
def PEA_ECC_CORR : Nat := 3
def PEA_ECC_UNCORR : Nat := 4
def PEA_PROG_MISMATCH : Nat := 5
def PEA_IMG_BAD : Nat := 6
def PEA_OVERRUN : Nat := 7
def PEA_SCRUB_SKIP : Nat := 8
def PEA_HELD : Nat := 9
def PEA_MARGIN_LOW : Nat := 10
def POD_RESEED : Nat := 0
def POD_EVICT : Nat := 1
def POD_REJOINED : Nat := 2
def POD_ROT_START : Nat := 3
def POD_ROT_DONE : Nat := 4
def POD_DUPLEX : Nat := 5
def POD_DRFAULT : Nat := 6
def POD_DIG_MINOR : Nat := 7
def POD_KFAULT : Nat := 8
def POD_ROT_DEFER : Nat := 9
def POD_REJOIN_FAIL : Nat := 10
def VOTE_CHKFAIL : Nat := 0
def VOTE_MISMATCH : Nat := 1
def VOTE_LATE : Nat := 2
def VOTE_SPLIT : Nat := 3
def VOTE_NOMAJ : Nat := 4
def VOTE_VCODEVIO : Nat := 5
def VOTE_VSTALL : Nat := 6
def VOTE_VDIFF : Nat := 7
def VOTE_HBSTOP : Nat := 8
def VOTE_CBUF_HIGH : Nat := 9
def VOTE_INJFAIL : Nat := 10
def VOTE_DR_OVF : Nat := 11
def PROG_LOADED : Nat := 0
def PROG_REFUSED : Nat := 1
def PROG_EXCHANGED : Nat := 2
def TASK_OVERRUN : Nat := 0
def TASK_SKIP : Nat := 1
def TASK_NV_SKIP : Nat := 2
def TASK_THREE_SKIP : Nat := 3
def TASK_TRIG_HELD : Nat := 4
def FORCE_SET : Nat := 0
def FORCE_CLEARED : Nat := 1
def FORCE_REFUSED : Nat := 2
def FORCE_CARRIED : Nat := 3
def FORCE_DROPPED : Nat := 4
def FORCE_CONFLICT : Nat := 5
def IVE_REFUSED : Nat := 0
def IVE_WITHDRAWN : Nat := 1
def IVE_APPROACH : Nat := 2
def IVE_TIMER_EXPIRED : Nat := 3
def IVE_EMERGENCY : Nat := 4
def IVE_LIST_FULL : Nat := 5
def IVE_EXPIRY_DEFER : Nat := 6
def IVE_SCRUB_CORR : Nat := 7
def IVE_KFAULT : Nat := 8
def IVE_LOADERR : Nat := 9
def OUT_LEAVE : Nat := 0
def OUT_SAFE : Nat := 1
def OUT_LOCKOUT : Nat := 2
def OUT_CHFAULT : Nat := 3
def OUT_STUCK_ON : Nat := 4
def OUT_DARKFAIL : Nat := 5
def OUT_BARRIER : Nat := 6
def SFB_DEMAND : Nat := 0
def SFB_RESET : Nat := 1
def SFB_DISC : Nat := 2
def SFB_TPFAULT : Nat := 3
def SFB_LOR_OK : Nat := 4
def SFB_LOR_VOID : Nat := 5
def SFB_CHDIFF : Nat := 6
def SFB_CFGERR : Nat := 7
def FIO_LINK : Nat := 0
def FIO_VF : Nat := 1
def FIO_GROUP : Nat := 2
def FIO_THERM : Nat := 3
def FIO_TPFAULT : Nat := 4
def RNG_DAMAGE : Nat := 0
def RNG_CUT : Nat := 1
def RNG_ROLECHG : Nat := 2
def RNG_DRIFT : Nat := 3
def RNG_OPEN : Nat := 4
def RNG_SURVEY : Nat := 5
def RSCH_ORDER : Nat := 0
def RSCH_SCHED : Nat := 1
def TWIN_LINK : Nat := 0
def TWIN_SYNC : Nat := 1
def TWIN_UNSYNC : Nat := 2
def TWIN_ROLE : Nat := 3
def TWIN_XFER : Nat := 4
def TWIN_REFUSED : Nat := 5
def HST_LINK : Nat := 0
def HST_HALFDUP : Nat := 1
def HST_DAD : Nat := 2
def HST_DROP : Nat := 3
def SESS_OPENED : Nat := 0
def SESS_CLOSED : Nat := 1
def SESS_BADMAC : Nat := 2
def SESS_UNTIMELY : Nat := 3
def SESS_REPLAY : Nat := 4
def SESS_BLOCKED : Nat := 5
def SESS_GAP : Nat := 6
def SESS_REFER : Nat := 7
def QUE_FULL : Nat := 0
def QUE_GAP : Nat := 1
def QUE_BUSY : Nat := 2
def QUE_STALE : Nat := 3
def IRQ_SPURIOUS : Nat := 0
def IRQ_BADDONE : Nat := 1
def IRQ_HOSTREJ : Nat := 2
def BRG_POSTERR : Nat := 0
def BRG_VTSFULL : Nat := 1
def BRG_RETRY : Nat := 2
def BRG_PATHRESET : Nat := 3
def CRC_END0 : Nat := 0
def CRC_END1 : Nat := 1
def CRC_END2 : Nat := 2
def CRC_END3 : Nat := 3
def EVR_CLASS0 : Nat := 0
def EVR_DROP : Nat := 1
def EVR_ROOTFULL : Nat := 2
def EVR_CLEARED : Nat := 3
def JRN_NOTFOUND : Nat := 0
def JRN_GAP : Nat := 1
def JRN_SEALERR : Nat := 2
def PMON_OVF : Nat := 0
def PMON_SAMPLOST : Nat := 1
def PMON_SNAPDONE : Nat := 2
def PMON_PODWRAP : Nat := 3
def PMON_TAGTRAP : Nat := 4
def BIST_PASS : Nat := 0
def BIST_FAIL : Nat := 1
def BIST_REPAIR : Nat := 2
def BIST_SEALED : Nat := 3
def MEM_OFFACC : Nat := 0
def MEM_NOSPARE : Nat := 1
def MEM_MODECHG : Nat := 2
def UPD_STORED : Nat := 0
def UPD_REJECTED : Nat := 1
def UPD_ACTPHASE : Nat := 2

end Evt

end Sys2Proof.Machine
end

