-- ==== Sys2Proof/Machine/RegMap.lean ====
section
/-! DEFINITION. The register map: for every page of R332 the registers of the page's own tables (offset, stride, count,
and each field's bits, access code (R14), reset value (R16), whether the Reset column says "img", and the legal range
of a field with reserved encodings (R18)).  The header that all pages share (R333) is added by `Machine/RegOps.lean`. -/

namespace Sys2Proof.Machine

/-- The access codes of R14. -/
inductive Access where
  | ro | rw | w1c | wo | rwl | rv
deriving DecidableEq, Repr

/-- One field of a register table. `legal = some (a, b)`: values outside `a` to `b` are reserved encodings (R18). -/
structure FieldDef where
  hi : Nat
  lo : Nat
  access : Access
  reset : Nat
  img : Bool
  legal : Option (Nat × Nat)
deriving DecidableEq, Repr

/-- One register, or an array of `count` registers `stride` bytes apart (`stride` 0 for a single register). -/
structure RegDef where
  off : Nat
  stride : Nat
  count : Nat
  fields : List FieldDef
deriving DecidableEq, Repr

/-- The registers of page 00. -/
def pageSys : List RegDef :=
  [⟨0x008, 0, 1, [⟨31, 24, .ro, 3, false, none⟩, ⟨23, 16, .ro, 4, false, none⟩, ⟨15, 8, .ro, 32, false, none⟩, ⟨0, 0, .ro, 0, false, none⟩]⟩,
   ⟨0x00C, 0, 1, [⟨23, 16, .ro, 64, false, none⟩, ⟨15, 8, .ro, 16, false, none⟩, ⟨0, 0, .ro, 1, false, none⟩]⟩,
   ⟨0x010, 0, 1, [⟨31, 31, .w1c, 0, false, none⟩, ⟨13, 12, .ro, 0, false, none⟩, ⟨11, 8, .ro, 0, false, none⟩, ⟨3, 0, .ro, 2, false, none⟩]⟩,
   ⟨0x040, 0, 1, [⟨31, 0, .ro, 0, false, none⟩]⟩,
   ⟨0x044, 0, 1, [⟨31, 28, .ro, 0, false, none⟩, ⟨27, 25, .ro, 0, false, none⟩, ⟨24, 22, .ro, 0, false, none⟩, ⟨21, 19, .ro, 0, false,
     none⟩, ⟨15, 0, .ro, 0, false, none⟩]⟩,
   ⟨0x048, 0, 1, [⟨31, 0, .ro, 0, false, none⟩]⟩]

/-- The registers of page 01. -/
def pagePwr : List RegDef :=
  [⟨0x040, 0, 1, [⟨15, 8, .ro, 0, false, none⟩, ⟨1, 0, .rv, 0, false, none⟩]⟩,
   ⟨0x044, 0, 1, [⟨2, 2, .rv, 0, true, none⟩, ⟨1, 1, .rv, 0, true, none⟩, ⟨0, 0, .rv, 0, true, none⟩]⟩,
   ⟨0x048, 0, 1, [⟨31, 31, .ro, 0, false, none⟩, ⟨19, 16, .ro, 0, false, none⟩, ⟨2, 0, .ro, 0, false, none⟩]⟩,
   ⟨0x04C, 0, 1, [⟨0, 0, .rv, 0, true, none⟩]⟩,
   ⟨0x050, 0, 1, [⟨31, 16, .ro, 0, false, none⟩, ⟨15, 0, .ro, 0, false, none⟩]⟩,
   ⟨0x054, 0, 1, [⟨15, 0, .ro, 0, false, none⟩]⟩,
   ⟨0x058, 0, 1, [⟨31, 31, .ro, 0, false, none⟩, ⟨15, 0, .ro, 0, false, none⟩]⟩,
   ⟨0x080, 0, 1, [⟨31, 16, .ro, 0, false, none⟩, ⟨5, 0, .ro, 36, false, none⟩]⟩,
   ⟨0x084, 0, 1, [⟨9, 4, .rwl, 36, false, some (0, 36)⟩, ⟨0, 0, .rwl, 0, false, none⟩]⟩,
   ⟨0x088, 0, 1, [⟨31, 24, .rwl, 16, false, some (1, 255)⟩, ⟨23, 21, .rwl, 1, false, some (1, 7)⟩, ⟨20, 16, .rwl, 10, false, some (5, 20)⟩,
     ⟨13, 8, .rwl, 15, false, some (5, 40)⟩, ⟨6, 0, .rwl, 40, false, some (10, 80)⟩]⟩,
   ⟨0x08C, 0, 1, [⟨23, 16, .ro, 0, false, none⟩, ⟨9, 8, .ro, 0, false, none⟩, ⟨6, 0, .ro, 0, false, none⟩]⟩]

/-- The registers of page 02. -/
def pageTime : List RegDef :=
  [⟨0x010, 0, 1, [⟨31, 31, .w1c, 0, false, none⟩, ⟨6, 6, .ro, 0, false, none⟩, ⟨5, 5, .ro, 0, false, none⟩, ⟨4, 4, .ro, 0, false, none⟩,
    ⟨3, 2, .ro, 0, false, none⟩, ⟨0, 0, .ro, 0, false, none⟩]⟩,
   ⟨0x020, 0, 1, [⟨1, 1, .wo, 0, false, none⟩, ⟨0, 0, .rv, 0, true, none⟩]⟩,
   ⟨0x040, 0, 1, [⟨31, 0, .ro, 0, false, none⟩]⟩,
   ⟨0x044, 0, 1, [⟨31, 0, .ro, 0, false, none⟩]⟩,
   ⟨0x048, 0, 1, [⟨31, 0, .rv, 0, false, none⟩]⟩,
   ⟨0x04C, 0, 1, [⟨31, 0, .rv, 0, false, none⟩]⟩,
   ⟨0x050, 0, 1, [⟨31, 0, .ro, 0, false, none⟩]⟩,
   ⟨0x054, 0, 1, [⟨31, 24, .ro, 0, false, none⟩, ⟨23, 0, .ro, 0, false, none⟩]⟩,
   ⟨0x0C0, 0, 1, [⟨31, 31, .ro, 0, false, none⟩, ⟨30, 30, .ro, 0, false, none⟩, ⟨15, 0, .ro, 0, false, none⟩]⟩,
   ⟨0x0C4, 0, 1, [⟨31, 0, .ro, 0, false, none⟩]⟩,
   ⟨0x0C8, 0, 1, [⟨15, 0, .ro, 0, false, none⟩]⟩]

/-- The registers of page 03. -/
def pageCal : List RegDef :=
  [⟨0x010, 0, 1, [⟨31, 31, .w1c, 0, false, none⟩, ⟨2, 2, .ro, 0, false, none⟩, ⟨1, 1, .ro, 0, false, none⟩, ⟨0, 0, .ro, 0, false, none⟩]⟩,
   ⟨0x020, 0, 1, [⟨0, 0, .wo, 0, false, none⟩]⟩,
   ⟨0x100, 4, 8, [⟨15, 0, .ro, 0, false, none⟩]⟩,
   ⟨0x140, 4, 8, [⟨15, 0, .rwl, 0, false, none⟩]⟩,
   ⟨0x180, 4, 8, [⟨15, 0, .ro, 0, false, none⟩]⟩]

/-- The registers of page 04. -/
def pageSec : List RegDef :=
  [⟨0x010, 0, 1, [⟨31, 31, .w1c, 0, false, none⟩, ⟨9, 8, .ro, 0, false, none⟩, ⟨4, 4, .ro, 0, false, none⟩, ⟨3, 3, .ro, 0, false, none⟩,
    ⟨2, 2, .ro, 0, false, none⟩, ⟨1, 1, .ro, 0, false, none⟩, ⟨0, 0, .ro, 0, false, none⟩]⟩,
   ⟨0x040, 0, 1, [⟨31, 0, .ro, 0, false, none⟩]⟩,
   ⟨0x044, 0, 1, [⟨15, 8, .ro, 0, false, none⟩, ⟨7, 0, .ro, 0, false, none⟩]⟩,
   ⟨0x048, 0, 1, [⟨31, 31, .ro, 0, false, none⟩, ⟨1, 0, .ro, 0, false, none⟩]⟩,
   ⟨0x04C, 0, 1, [⟨31, 0, .ro, 0, false, none⟩]⟩,
   ⟨0x050, 0, 1, [⟨31, 0, .ro, 0, false, none⟩]⟩,
   ⟨0x100, 4, 16, [⟨31, 0, .ro, 0, false, none⟩]⟩,
   ⟨0x140, 4, 8, [⟨31, 0, .ro, 0, false, none⟩]⟩]

/-- The registers of pages 08, 09, 0A. -/
def pagePea : List RegDef :=
  [⟨0x008, 0, 1, [⟨31, 24, .ro, 8, false, none⟩, ⟨23, 16, .ro, 4, false, none⟩, ⟨15, 8, .ro, 16, false, none⟩, ⟨7, 0, .ro, 32, false, none⟩]⟩,
   ⟨0x00C, 0, 1, [⟨23, 16, .ro, 32, false, none⟩, ⟨15, 8, .ro, 64, false, none⟩, ⟨1, 0, .ro, 0, false, none⟩]⟩,
   ⟨0x010, 0, 1, [⟨31, 31, .w1c, 0, false, none⟩, ⟨6, 6, .ro, 0, false, none⟩, ⟨5, 5, .ro, 0, false, none⟩, ⟨4, 4, .ro, 0, false, none⟩,
     ⟨3, 0, .ro, 0, false, none⟩]⟩,
   ⟨0x020, 0, 1, [⟨1, 1, .wo, 0, false, none⟩, ⟨0, 0, .rv, 1, false, none⟩]⟩,
   ⟨0x040, 0, 1, [⟨31, 0, .ro, 0, false, none⟩]⟩,
   ⟨0x044, 0, 1, [⟨31, 31, .ro, 0, false, none⟩, ⟨30, 30, .ro, 0, false, none⟩, ⟨22, 0, .ro, 0, false, none⟩]⟩,
   ⟨0x048, 0, 1, [⟨31, 0, .ro, 0, false, none⟩]⟩,
   ⟨0x04C, 0, 1, [⟨31, 0, .ro, 2147483647, false, none⟩]⟩,
   ⟨0x050, 0, 1, [⟨31, 0, .ro, 0, false, none⟩]⟩,
   ⟨0x054, 0, 1, [⟨13, 8, .ro, 0, false, none⟩, ⟨5, 0, .ro, 0, false, none⟩]⟩,
   ⟨0x058, 0, 1, [⟨31, 24, .ro, 0, false, none⟩, ⟨23, 16, .ro, 0, false, none⟩, ⟨15, 8, .ro, 0, false, none⟩, ⟨7, 0, .ro, 0, false, none⟩]⟩,
   ⟨0x05C, 0, 1, [⟨31, 31, .ro, 0, false, none⟩, ⟨30, 30, .ro, 0, false, none⟩, ⟨29, 28, .ro, 0, false, none⟩, ⟨20, 0, .ro, 0, false, none⟩]⟩] ++
  [⟨0x060, 0, 1, [⟨31, 31, .ro, 0, false, none⟩, ⟨27, 24, .ro, 0, false, none⟩, ⟨19, 16, .ro, 0, false, none⟩, ⟨12, 8, .ro, 0, false,
    none⟩, ⟨7, 0, .ro, 0, false, none⟩]⟩,
   ⟨0x064, 0, 1, [⟨31, 24, .ro, 0, false, none⟩, ⟨23, 16, .ro, 0, false, none⟩, ⟨15, 8, .ro, 0, false, none⟩, ⟨7, 0, .ro, 0, false, none⟩]⟩,
   ⟨0x068, 0, 1, [⟨31, 27, .ro, 0, false, none⟩, ⟨20, 0, .ro, 0, false, none⟩]⟩,
   ⟨0x06C, 0, 1, [⟨31, 0, .ro, 0, false, none⟩]⟩,
   ⟨0x070, 0, 1, [⟨31, 16, .ro, 0, false, none⟩, ⟨15, 0, .ro, 0, false, none⟩]⟩,
   ⟨0x074, 0, 1, [⟨31, 0, .ro, 0, false, none⟩]⟩]

/-- The registers of page 0B. -/
def pagePod : List RegDef :=
  [⟨0x008, 0, 1, [⟨31, 24, .ro, 3, false, none⟩, ⟨23, 16, .ro, 8, false, none⟩, ⟨15, 0, .ro, 1024, false, none⟩]⟩,
   ⟨0x00C, 0, 1, [⟨15, 8, .ro, 64, false, none⟩, ⟨7, 0, .ro, 64, false, none⟩]⟩,
   ⟨0x010, 0, 1, [⟨31, 31, .w1c, 0, false, none⟩, ⟨10, 8, .ro, 0, false, none⟩, ⟨5, 4, .ro, 0, false, none⟩, ⟨1, 1, .ro, 0, false, none⟩,
     ⟨0, 0, .ro, 0, false, none⟩]⟩,
   ⟨0x020, 0, 1, [⟨1, 1, .wo, 0, false, none⟩, ⟨0, 0, .wo, 0, false, none⟩]⟩,
   ⟨0x040, 0, 1, [⟨31, 31, .ro, 0, false, none⟩, ⟨27, 24, .ro, 0, false, none⟩, ⟨17, 16, .ro, 0, false, none⟩]⟩,
   ⟨0x044, 0, 1, [⟨31, 0, .ro, 0, false, none⟩]⟩,
   ⟨0x048, 0, 1, [⟨23, 16, .ro, 0, false, none⟩, ⟨15, 8, .ro, 0, false, none⟩, ⟨7, 0, .ro, 0, false, none⟩]⟩,
   ⟨0x04C, 0, 1, [⟨31, 31, .ro, 0, false, none⟩, ⟨30, 29, .ro, 0, false, none⟩, ⟨28, 27, .ro, 0, false, none⟩, ⟨26, 16, .ro, 0, false,
     none⟩, ⟨3, 0, .ro, 0, false, none⟩]⟩,
   ⟨0x050, 0, 1, [⟨23, 16, .ro, 0, false, none⟩, ⟨15, 8, .ro, 0, false, none⟩, ⟨7, 0, .ro, 0, false, none⟩]⟩,
   ⟨0x054, 0, 1, [⟨15, 8, .rv, 24, false, some (1, 168)⟩, ⟨0, 0, .rv, 1, false, none⟩]⟩,
   ⟨0x058, 0, 1, [⟨31, 0, .ro, 0, false, none⟩]⟩,
   ⟨0x05C, 0, 1, [⟨31, 31, .ro, 0, false, none⟩, ⟨30, 30, .ro, 0, false, none⟩, ⟨29, 28, .ro, 0, false, none⟩, ⟨15, 0, .ro, 0, false, none⟩]⟩] ++
  [⟨0x060, 0, 1, [⟨31, 30, .ro, 0, false, none⟩, ⟨29, 28, .ro, 0, false, none⟩, ⟨27, 26, .ro, 0, false, none⟩, ⟨23, 16, .ro, 0, false,
    none⟩, ⟨15, 0, .ro, 0, false, none⟩]⟩,
   ⟨0x064, 0, 1, [⟨31, 0, .ro, 0, false, none⟩]⟩,
   ⟨0x068, 0, 1, [⟨31, 0, .ro, 0, false, none⟩]⟩,
   ⟨0x06C, 0, 1, [⟨31, 0, .ro, 0, false, none⟩]⟩]

/-- The registers of page 0C. -/
def pageVote : List RegDef :=
  [⟨0x008, 0, 1, [⟨31, 24, .ro, 2, false, none⟩, ⟨23, 16, .ro, 32, false, none⟩, ⟨15, 8, .ro, 24, false, none⟩, ⟨7, 0, .ro, 16, false, none⟩]⟩,
   ⟨0x00C, 0, 1, [⟨15, 0, .ro, 16384, false, none⟩]⟩,
   ⟨0x010, 0, 1, [⟨31, 31, .w1c, 0, false, none⟩, ⟨6, 4, .ro, 0, false, none⟩, ⟨3, 3, .ro, 0, false, none⟩, ⟨2, 2, .ro, 0, false, none⟩,
     ⟨1, 1, .ro, 0, false, none⟩, ⟨0, 0, .ro, 0, false, none⟩]⟩,
   ⟨0x020, 0, 1, [⟨1, 1, .wo, 0, false, none⟩]⟩,
   ⟨0x040, 0, 1, [⟨15, 0, .ro, 0, true, none⟩]⟩,
   ⟨0x044, 0, 1, [⟨31, 31, .ro, 0, false, none⟩, ⟨27, 24, .ro, 0, false, none⟩, ⟨17, 16, .ro, 0, false, none⟩, ⟨12, 8, .ro, 0, false,
     none⟩, ⟨2, 0, .ro, 0, false, none⟩]⟩,
   ⟨0x048, 0, 1, [⟨31, 0, .ro, 0, false, none⟩]⟩,
   ⟨0x04C, 0, 1, [⟨23, 16, .ro, 0, false, none⟩, ⟨15, 8, .ro, 0, false, none⟩, ⟨7, 0, .ro, 0, false, none⟩]⟩,
   ⟨0x050, 0, 1, [⟨31, 31, .ro, 0, false, none⟩, ⟨17, 16, .ro, 0, false, none⟩, ⟨15, 0, .ro, 0, false, none⟩]⟩,
   ⟨0x054, 0, 1, [⟨31, 0, .ro, 0, false, none⟩]⟩,
   ⟨0x058, 0, 1, [⟨31, 16, .ro, 0, false, none⟩, ⟨15, 0, .ro, 0, false, none⟩]⟩,
   ⟨0x05C, 0, 1, [⟨31, 31, .ro, 0, false, none⟩, ⟨30, 30, .ro, 0, false, none⟩, ⟨14, 8, .ro, 0, false, none⟩, ⟨6, 0, .ro, 0, false, none⟩]⟩] ++
  [⟨0x060, 0, 1, [⟨31, 31, .ro, 0, false, none⟩, ⟨27, 24, .ro, 0, false, none⟩, ⟨17, 16, .ro, 0, false, none⟩]⟩]

/-- The registers of page 10. -/
def pageProg : List RegDef :=
  [⟨0x010, 0, 1, [⟨31, 31, .w1c, 0, false, none⟩, ⟨2, 2, .ro, 0, true, none⟩, ⟨1, 1, .ro, 0, false, none⟩, ⟨0, 0, .ro, 0, false, none⟩]⟩,
   ⟨0x020, 0, 1, []⟩,
   ⟨0x040, 0, 1, [⟨31, 0, .ro, 0, true, none⟩]⟩,
   ⟨0x044, 0, 1, [⟨31, 24, .ro, 0, true, none⟩, ⟨23, 20, .ro, 0, true, none⟩, ⟨1, 0, .ro, 0, true, none⟩]⟩,
   ⟨0x048, 0, 1, [⟨30, 28, .ro, 2, true, none⟩, ⟨7, 0, .ro, 10, true, none⟩]⟩,
   ⟨0x04C, 0, 1, [⟨17, 0, .ro, 0, true, none⟩]⟩,
   ⟨0x050, 0, 1, [⟨19, 0, .ro, 0, true, none⟩]⟩,
   ⟨0x054, 0, 1, [⟨20, 0, .ro, 0, true, none⟩]⟩,
   ⟨0x058, 0, 1, [⟨31, 16, .ro, 0, true, none⟩, ⟨15, 0, .ro, 0, true, none⟩]⟩,
   ⟨0x05C, 0, 1, [⟨15, 0, .ro, 0, true, none⟩]⟩,
   ⟨0x060, 0, 1, [⟨31, 0, .ro, 0, true, none⟩]⟩,
   ⟨0x064, 0, 1, [⟨31, 0, .ro, 0, true, none⟩]⟩] ++
  [⟨0x068, 0, 1, [⟨31, 0, .ro, 0, true, none⟩]⟩,
   ⟨0x06C, 0, 1, [⟨20, 0, .ro, 0, true, none⟩]⟩,
   ⟨0x070, 0, 1, [⟨31, 0, .ro, 0, true, none⟩]⟩,
   ⟨0x074, 0, 1, [⟨31, 31, .ro, 0, false, none⟩, ⟨23, 8, .ro, 0, false, none⟩, ⟨7, 0, .ro, 0, false, none⟩]⟩,
   ⟨0x080, 0, 1, [⟨31, 28, .ro, 0, false, none⟩, ⟨25, 25, .ro, 0, false, none⟩, ⟨24, 24, .ro, 0, false, none⟩, ⟨23, 16, .ro, 0, false, none⟩]⟩,
   ⟨0x084, 0, 1, [⟨31, 0, .ro, 0, false, none⟩]⟩,
   ⟨0x088, 0, 1, [⟨31, 0, .ro, 0, false, none⟩]⟩,
   ⟨0x08C, 0, 1, [⟨31, 0, .ro, 0, false, none⟩]⟩,
   ⟨0x090, 0, 1, [⟨31, 16, .ro, 0, false, none⟩, ⟨15, 0, .ro, 0, false, none⟩]⟩,
   ⟨0x094, 0, 1, [⟨31, 16, .ro, 0, false, none⟩, ⟨15, 8, .ro, 0, false, none⟩]⟩,
   ⟨0x098, 0, 1, [⟨31, 0, .ro, 0, false, none⟩]⟩,
   ⟨0x09C, 0, 1, [⟨15, 8, .ro, 0, false, none⟩, ⟨7, 0, .ro, 0, false, none⟩]⟩]

/-- The registers of page 11. -/
def pageTask : List RegDef :=
  [⟨0x010, 0, 1, [⟨31, 31, .w1c, 0, false, none⟩, ⟨0, 0, .ro, 0, false, none⟩]⟩,
   ⟨0x020, 0, 1, [⟨1, 1, .wo, 0, false, none⟩]⟩,
   ⟨0x040, 0, 1, [⟨31, 0, .ro, 0, false, none⟩]⟩,
   ⟨0x044, 0, 1, [⟨31, 0, .ro, 0, false, none⟩]⟩,
   ⟨0x048, 0, 1, [⟨31, 0, .ro, 0, false, none⟩]⟩,
   ⟨0x04C, 0, 1, [⟨31, 16, .ro, 0, false, none⟩]⟩,
   ⟨0x050, 0, 1, [⟨31, 31, .ro, 0, false, none⟩, ⟨4, 0, .ro, 0, false, none⟩]⟩,
   ⟨0x054, 0, 1, [⟨31, 0, .ro, 0, false, none⟩]⟩,
   ⟨0x100, 4, 32, [⟨31, 31, .ro, 0, true, none⟩, ⟨30, 30, .ro, 0, true, none⟩, ⟨29, 29, .ro, 0, true, none⟩, ⟨28, 26, .ro, 0, true, none⟩,
     ⟨25, 16, .ro, 0, true, none⟩, ⟨15, 8, .ro, 0, true, none⟩, ⟨2, 0, .ro, 0, true, none⟩]⟩,
   ⟨0x180, 4, 32, [⟨31, 24, .ro, 0, false, none⟩, ⟨23, 16, .ro, 0, false, none⟩, ⟨15, 8, .ro, 0, false, none⟩, ⟨1, 1, .ro, 0, false, none⟩,
     ⟨0, 0, .ro, 0, false, none⟩]⟩,
   ⟨0x200, 4, 32, [⟨31, 0, .ro, 0, false, none⟩]⟩]

/-- The registers of page 12. -/
def pageForce : List RegDef :=
  [⟨0x008, 0, 1, [⟨31, 0, .ro, 64, false, none⟩]⟩,
   ⟨0x010, 0, 1, [⟨31, 31, .w1c, 0, false, none⟩, ⟨6, 0, .ro, 0, false, none⟩]⟩,
   ⟨0x020, 0, 1, [⟨0, 0, .wo, 0, false, none⟩]⟩,
   ⟨0x040, 0, 1, [⟨31, 31, .ro, 0, false, none⟩, ⟨23, 20, .ro, 0, false, none⟩, ⟨19, 0, .ro, 0, false, none⟩]⟩,
   ⟨0x044, 0, 1, [⟨15, 0, .ro, 0, false, none⟩]⟩,
   ⟨0x100, 16, 64, [⟨31, 31, .ro, 0, false, none⟩, ⟨30, 28, .ro, 0, false, none⟩, ⟨27, 27, .ro, 0, false, none⟩, ⟨26, 26, .ro, 0, false,
     none⟩, ⟨19, 0, .ro, 0, false, none⟩]⟩,
   ⟨0x104, 16, 64, [⟨23, 0, .ro, 0, false, none⟩]⟩,
   ⟨0x108, 16, 64, [⟨31, 0, .ro, 0, false, none⟩]⟩,
   ⟨0x10C, 16, 64, [⟨31, 0, .ro, 0, false, none⟩]⟩]

/-- The registers of page 18. -/
def pageIve : List RegDef :=
  [⟨0x008, 0, 1, [⟨31, 16, .ro, 4096, false, none⟩, ⟨15, 0, .ro, 4096, false, none⟩]⟩,
   ⟨0x00C, 0, 1, [⟨31, 16, .ro, 8192, false, none⟩, ⟨15, 4, .ro, 2048, false, none⟩, ⟨3, 0, .ro, 8, false, none⟩]⟩,
   ⟨0x010, 0, 1, [⟨31, 31, .w1c, 0, false, none⟩, ⟨5, 5, .ro, 0, false, none⟩, ⟨4, 4, .ro, 0, false, none⟩, ⟨3, 3, .ro, 0, true, none⟩, ⟨2,
     2, .ro, 0, false, none⟩, ⟨1, 1, .ro, 0, false, none⟩, ⟨0, 0, .ro, 0, false, none⟩]⟩,
   ⟨0x020, 0, 1, [⟨1, 1, .wo, 0, false, none⟩, ⟨0, 0, .rv, 1, false, none⟩]⟩,
   ⟨0x040, 0, 1, [⟨31, 0, .ro, 0, true, none⟩]⟩,
   ⟨0x044, 0, 1, [⟨31, 0, .ro, 0, true, none⟩]⟩,
   ⟨0x048, 0, 1, [⟨31, 16, .ro, 0, false, none⟩, ⟨15, 0, .ro, 0, false, none⟩]⟩,
   ⟨0x04C, 0, 1, [⟨31, 16, .ro, 0, false, none⟩, ⟨15, 0, .ro, 0, false, none⟩]⟩,
   ⟨0x050, 0, 1, [⟨31, 16, .ro, 0, false, none⟩, ⟨15, 0, .ro, 0, false, none⟩]⟩,
   ⟨0x054, 0, 1, [⟨18, 16, .ro, 0, false, none⟩, ⟨15, 0, .ro, 0, false, none⟩]⟩,
   ⟨0x058, 0, 1, [⟨31, 0, .ro, 0, false, none⟩]⟩,
   ⟨0x05C, 0, 1, [⟨31, 0, .ro, 0, false, none⟩]⟩] ++
  [⟨0x060, 0, 1, [⟨31, 31, .ro, 0, false, none⟩, ⟨30, 30, .ro, 0, false, none⟩, ⟨29, 27, .ro, 0, false, none⟩, ⟨23, 16, .ro, 0, false,
    none⟩, ⟨15, 0, .ro, 0, false, none⟩]⟩,
   ⟨0x064, 0, 1, [⟨31, 0, .ro, 0, false, none⟩]⟩,
   ⟨0x068, 0, 1, [⟨31, 0, .ro, 0, false, none⟩]⟩,
   ⟨0x06C, 0, 1, [⟨31, 0, .ro, 0, false, none⟩]⟩,
   ⟨0x070, 0, 1, [⟨31, 0, .ro, 0, false, none⟩]⟩,
   ⟨0x074, 0, 1, [⟨31, 31, .ro, 0, false, none⟩, ⟨27, 24, .ro, 0, false, none⟩, ⟨17, 16, .ro, 0, false, none⟩]⟩,
   ⟨0x078, 0, 1, [⟨31, 31, .ro, 0, false, none⟩, ⟨27, 24, .ro, 0, false, none⟩, ⟨19, 0, .ro, 0, false, none⟩]⟩,
   ⟨0x07C, 0, 1, [⟨31, 16, .ro, 0, false, none⟩, ⟨15, 8, .ro, 0, false, none⟩]⟩]

/-- The registers of page 19. -/
def pageIvt : List RegDef :=
  [⟨0x020, 0, 1, [⟨1, 1, .rw, 0, false, none⟩, ⟨0, 0, .rw, 0, false, none⟩]⟩,
   ⟨0x040, 0, 1, [⟨19, 0, .rw, 0, false, none⟩]⟩,
   ⟨0x044, 0, 1, [⟨31, 0, .ro, 0, false, none⟩]⟩,
   ⟨0x048, 0, 1, [⟨31, 0, .ro, 0, false, none⟩]⟩]

/-- The registers of page 20. -/
def pageOut : List RegDef :=
  [⟨0x008, 0, 1, [⟨31, 24, .ro, 32, false, none⟩, ⟨23, 16, .ro, 2, false, none⟩, ⟨15, 8, .ro, 125, false, none⟩, ⟨7, 0, .ro, 8, false, none⟩]⟩,
   ⟨0x010, 0, 1, [⟨31, 31, .w1c, 0, false, none⟩, ⟨7, 7, .ro, 0, false, none⟩, ⟨6, 6, .ro, 0, false, none⟩, ⟨5, 5, .ro, 0, false, none⟩,
     ⟨4, 4, .ro, 0, false, none⟩, ⟨3, 0, .ro, 0, false, none⟩]⟩,
   ⟨0x020, 0, 1, [⟨0, 0, .wo, 0, false, none⟩]⟩,
   ⟨0x040, 0, 1, [⟨31, 0, .ro, 0, false, none⟩]⟩,
   ⟨0x044, 0, 1, [⟨31, 0, .ro, 0, false, none⟩]⟩,
   ⟨0x048, 0, 1, [⟨31, 0, .w1c, 0, false, none⟩]⟩,
   ⟨0x04C, 0, 1, [⟨31, 0, .rv, 0, true, none⟩]⟩,
   ⟨0x050, 0, 1, [⟨31, 31, .ro, 0, false, none⟩, ⟨30, 30, .ro, 0, false, none⟩, ⟨27, 24, .ro, 0, false, none⟩, ⟨15, 0, .ro, 0, false, none⟩]⟩,
   ⟨0x054, 0, 1, [⟨31, 0, .ro, 0, false, none⟩]⟩,
   ⟨0x058, 0, 1, [⟨31, 31, .rv, 1, false, none⟩, ⟨15, 0, .rv, 10, false, some (1, 600)⟩]⟩,
   ⟨0x05C, 0, 1, [⟨23, 16, .ro, 0, false, none⟩, ⟨15, 0, .ro, 0, false, none⟩]⟩,
   ⟨0x060, 0, 1, [⟨31, 24, .ro, 0, false, none⟩, ⟨23, 16, .ro, 0, false, none⟩, ⟨15, 8, .ro, 0, false, none⟩, ⟨7, 0, .ro, 0, false, none⟩]⟩] ++
  [⟨0x064, 0, 1, [⟨15, 0, .ro, 0, false, none⟩]⟩]

/-- The registers of page 21. -/
def pageSfb : List RegDef :=
  [⟨0x008, 0, 1, [⟨31, 24, .ro, 8, false, none⟩, ⟨23, 16, .ro, 4, false, none⟩, ⟨15, 8, .ro, 12, false, none⟩]⟩,
   ⟨0x010, 0, 1, [⟨31, 31, .w1c, 0, false, none⟩, ⟨30, 30, .ro, 0, false, none⟩, ⟨29, 29, .ro, 0, false, none⟩, ⟨23, 16, .ro, 0, false,
     none⟩, ⟨15, 8, .ro, 0, false, none⟩, ⟨7, 0, .ro, 0, false, none⟩]⟩,
   ⟨0x020, 0, 1, [⟨0, 0, .wo, 0, false, none⟩]⟩,
   ⟨0x040, 0, 1, [⟨31, 31, .ro, 0, false, none⟩, ⟨30, 30, .ro, 0, false, none⟩, ⟨29, 29, .ro, 0, false, none⟩, ⟨23, 16, .ro, 0, false,
     none⟩, ⟨15, 0, .ro, 0, false, none⟩]⟩,
   ⟨0x044, 0, 1, [⟨3, 0, .ro, 0, false, none⟩]⟩,
   ⟨0x100, 4, 8, [⟨31, 31, .ro, 0, true, none⟩, ⟨30, 30, .ro, 0, true, none⟩, ⟨29, 29, .ro, 0, true, none⟩, ⟨28, 28, .ro, 0, true, none⟩,
     ⟨27, 27, .ro, 0, true, none⟩, ⟨26, 25, .ro, 0, true, none⟩, ⟨24, 22, .ro, 0, true, none⟩, ⟨21, 19, .ro, 0, true, none⟩, ⟨18, 14, .ro,
     0, true, none⟩, ⟨13, 9, .ro, 0, true, none⟩, ⟨8, 0, .ro, 0, true, none⟩]⟩,
   ⟨0x140, 4, 8, [⟨31, 0, .ro, 0, true, none⟩]⟩,
   ⟨0x180, 4, 8, [⟨31, 31, .ro, 0, false, none⟩, ⟨30, 30, .ro, 0, false, none⟩, ⟨29, 29, .ro, 0, false, none⟩, ⟨28, 26, .ro, 0, false,
     none⟩, ⟨25, 25, .ro, 0, false, none⟩, ⟨24, 24, .ro, 0, false, none⟩, ⟨15, 0, .ro, 0, false, none⟩]⟩]

/-- The registers of page 22. -/
def pageFio : List RegDef :=
  [⟨0x008, 0, 1, [⟨31, 24, .ro, 32, false, none⟩, ⟨23, 16, .ro, 4, false, none⟩, ⟨15, 8, .ro, 12, false, none⟩, ⟨7, 0, .ro, 250, false, none⟩]⟩,
   ⟨0x00C, 0, 1, [⟨31, 16, .ro, 700, false, none⟩, ⟨15, 8, .ro, 250, false, none⟩, ⟨7, 0, .ro, 1, false, none⟩]⟩,
   ⟨0x010, 0, 1, [⟨31, 31, .w1c, 0, false, none⟩, ⟨5, 5, .ro, 0, false, none⟩, ⟨4, 4, .ro, 0, false, none⟩, ⟨3, 3, .ro, 0, false, none⟩,
     ⟨2, 2, .ro, 0, false, none⟩, ⟨1, 1, .ro, 0, false, none⟩, ⟨0, 0, .ro, 0, false, none⟩]⟩,
   ⟨0x020, 0, 1, [⟨1, 1, .wo, 0, false, none⟩, ⟨0, 0, .wo, 0, false, none⟩]⟩,
   ⟨0x040, 0, 1, [⟨31, 0, .ro, 0, false, none⟩]⟩,
   ⟨0x044, 0, 1, [⟨31, 0, .ro, 0, false, none⟩]⟩,
   ⟨0x048, 0, 1, [⟨31, 0, .ro, 0, false, none⟩]⟩,
   ⟨0x04C, 0, 1, [⟨31, 16, .ro, 0, false, none⟩, ⟨15, 0, .ro, 0, false, none⟩]⟩,
   ⟨0x050, 0, 1, [⟨31, 16, .ro, 0, false, none⟩, ⟨15, 0, .ro, 0, false, none⟩]⟩,
   ⟨0x054, 0, 1, [⟨15, 0, .ro, 0, false, none⟩]⟩,
   ⟨0x100, 4, 32, [⟨31, 28, .ro, 0, true, none⟩, ⟨26, 24, .ro, 0, true, none⟩, ⟨7, 0, .ro, 0, true, none⟩]⟩,
   ⟨0x180, 4, 32, [⟨31, 20, .ro, 0, false, none⟩, ⟨19, 12, .ro, 0, false, none⟩, ⟨3, 0, .ro, 0, false, none⟩]⟩]

/-- The registers of pages 28, 29, 2A, 2B. -/
def pageRng : List RegDef :=
  [⟨0x008, 0, 1, [⟨31, 16, .ro, 512, false, none⟩, ⟨15, 8, .ro, 2, false, none⟩, ⟨7, 0, .ro, 32, false, none⟩]⟩,
   ⟨0x00C, 0, 1, [⟨31, 24, .ro, 16, false, none⟩, ⟨23, 16, .ro, 100, false, none⟩, ⟨15, 8, .ro, 150, false, none⟩, ⟨7, 0, .ro, 10, false, none⟩]⟩,
   ⟨0x010, 0, 1, [⟨31, 31, .w1c, 0, false, none⟩, ⟨7, 7, .ro, 0, false, none⟩, ⟨6, 6, .ro, 0, false, none⟩, ⟨5, 5, .ro, 0, false, none⟩,
     ⟨4, 4, .ro, 0, false, none⟩, ⟨3, 0, .ro, 8, false, none⟩]⟩,
   ⟨0x020, 0, 1, [⟨1, 1, .wo, 0, false, none⟩, ⟨0, 0, .rv, 0, false, none⟩]⟩,
   ⟨0x040, 0, 1, [⟨31, 0, .ro, 0, false, none⟩]⟩,
   ⟨0x044, 0, 1, [⟨31, 0, .ro, 0, false, none⟩]⟩,
   ⟨0x048, 0, 1, [⟨31, 0, .ro, 0, false, none⟩]⟩,
   ⟨0x04C, 0, 1, [⟨31, 16, .ro, 0, false, none⟩, ⟨15, 0, .ro, 0, false, none⟩]⟩,
   ⟨0x050, 0, 1, [⟨25, 16, .ro, 0, true, none⟩, ⟨9, 0, .ro, 0, false, none⟩]⟩,
   ⟨0x054, 0, 1, [⟨25, 16, .ro, 0, false, none⟩, ⟨9, 0, .ro, 0, false, none⟩]⟩,
   ⟨0x058, 0, 1, [⟨31, 16, .ro, 0, false, none⟩, ⟨15, 0, .ro, 0, false, none⟩]⟩,
   ⟨0x05C, 0, 1, [⟨31, 31, .ro, 0, false, none⟩, ⟨30, 29, .ro, 0, false, none⟩, ⟨25, 16, .ro, 0, false, none⟩, ⟨9, 0, .ro, 0, false, none⟩]⟩] ++
  [⟨0x060, 0, 1, [⟨31, 0, .ro, 0, false, none⟩]⟩,
   ⟨0x064, 0, 1, [⟨15, 0, .ro, 0, false, none⟩]⟩,
   ⟨0x068, 0, 1, [⟨23, 16, .ro, 0, false, none⟩, ⟨15, 8, .ro, 0, false, none⟩, ⟨7, 0, .ro, 0, false, none⟩]⟩,
   ⟨0x06C, 0, 1, [⟨31, 31, .rv, 0, false, none⟩, ⟨9, 0, .rv, 0, false, none⟩]⟩]

/-- The registers of page 2C. -/
def pageRsch : List RegDef :=
  [⟨0x008, 0, 1, [⟨31, 16, .ro, 512, false, none⟩, ⟨15, 0, .ro, 514, false, none⟩]⟩,
   ⟨0x010, 0, 1, [⟨31, 31, .w1c, 0, false, none⟩, ⟨3, 0, .ro, 0, true, none⟩]⟩,
   ⟨0x040, 0, 1, [⟨25, 16, .ro, 0, true, none⟩, ⟨9, 0, .ro, 0, true, none⟩]⟩,
   ⟨0x044, 0, 1, [⟨31, 0, .ro, 0, true, none⟩]⟩,
   ⟨0x048, 0, 1, [⟨1, 0, .ro, 0, false, none⟩]⟩,
   ⟨0x04C, 0, 1, [⟨17, 16, .rw, 0, false, none⟩, ⟨9, 0, .rw, 0, false, none⟩]⟩,
   ⟨0x050, 0, 1, [⟨31, 31, .ro, 0, false, none⟩, ⟨30, 30, .ro, 0, false, none⟩, ⟨9, 0, .ro, 0, false, none⟩]⟩,
   ⟨0x054, 0, 1, [⟨25, 16, .ro, 0, true, none⟩, ⟨9, 0, .ro, 0, true, none⟩]⟩,
   ⟨0x058, 0, 1, [⟨25, 16, .ro, 0, true, none⟩, ⟨9, 0, .ro, 0, true, none⟩]⟩,
   ⟨0x05C, 0, 1, [⟨31, 31, .ro, 0, false, none⟩, ⟨29, 28, .ro, 0, false, none⟩, ⟨25, 16, .ro, 0, false, none⟩, ⟨9, 0, .ro, 0, false, none⟩]⟩,
   ⟨0x060, 0, 1, [⟨31, 0, .ro, 0, false, none⟩]⟩]

/-- The registers of page 30. -/
def pageTwin : List RegDef :=
  [⟨0x008, 0, 1, [⟨31, 16, .ro, 1056, false, none⟩, ⟨15, 8, .ro, 12, false, none⟩, ⟨7, 0, .ro, 1, false, none⟩]⟩,
   ⟨0x010, 0, 1, [⟨31, 31, .w1c, 0, false, none⟩, ⟨11, 11, .ro, 0, false, none⟩, ⟨10, 10, .ro, 0, false, none⟩, ⟨9, 9, .ro, 0, false,
     none⟩, ⟨8, 8, .ro, 0, false, none⟩, ⟨7, 6, .ro, 3, false, none⟩, ⟨4, 4, .ro, 0, false, none⟩, ⟨3, 3, .ro, 0, false, none⟩, ⟨2, 0, .ro,
     0, false, none⟩]⟩,
   ⟨0x020, 0, 1, [⟨1, 1, .wo, 0, false, none⟩]⟩,
   ⟨0x040, 0, 1, [⟨31, 0, .ro, 0, false, none⟩]⟩,
   ⟨0x044, 0, 1, [⟨31, 0, .ro, 0, false, none⟩]⟩,
   ⟨0x048, 0, 1, [⟨31, 0, .ro, 0, false, none⟩]⟩,
   ⟨0x04C, 0, 1, [⟨23, 0, .ro, 0, false, none⟩]⟩,
   ⟨0x050, 0, 1, [⟨31, 24, .ro, 0, false, none⟩, ⟨23, 22, .ro, 2, false, none⟩, ⟨15, 0, .ro, 0, false, none⟩]⟩,
   ⟨0x054, 0, 1, [⟨15, 0, .ro, 0, false, none⟩]⟩,
   ⟨0x058, 0, 1, [⟨31, 29, .ro, 0, false, none⟩, ⟨28, 28, .ro, 0, false, none⟩, ⟨23, 16, .ro, 0, false, none⟩, ⟨10, 0, .ro, 0, false, none⟩]⟩,
   ⟨0x05C, 0, 1, [⟨31, 31, .ro, 0, false, none⟩, ⟨30, 30, .ro, 0, false, none⟩, ⟨29, 26, .ro, 0, false, none⟩, ⟨15, 0, .ro, 0, false, none⟩]⟩,
   ⟨0x060, 0, 1, [⟨31, 24, .ro, 0, false, none⟩, ⟨23, 22, .ro, 2, false, none⟩, ⟨15, 8, .ro, 0, false, none⟩]⟩] ++
  [⟨0x064, 0, 1, [⟨31, 0, .ro, 0, false, none⟩]⟩,
   ⟨0x068, 0, 1, [⟨26, 16, .ro, 0, false, none⟩, ⟨10, 0, .ro, 0, false, none⟩]⟩,
   ⟨0x06C, 0, 1, [⟨15, 8, .rv, 50, false, some (10, 100)⟩, ⟨7, 0, .rv, 2, false, some (1, 16)⟩]⟩,
   ⟨0x070, 0, 1, [⟨31, 31, .ro, 0, false, none⟩, ⟨27, 24, .ro, 0, false, none⟩, ⟨23, 0, .ro, 0, false, none⟩]⟩,
   ⟨0x074, 0, 1, [⟨31, 0, .ro, 0, false, none⟩]⟩,
   ⟨0x078, 0, 1, [⟨31, 16, .ro, 0, false, none⟩, ⟨15, 0, .ro, 0, false, none⟩]⟩,
   ⟨0x07C, 0, 1, [⟨31, 31, .ro, 0, false, none⟩, ⟨27, 24, .ro, 0, false, none⟩, ⟨22, 20, .ro, 0, false, none⟩, ⟨18, 16, .ro, 0, false, none⟩]⟩,
   ⟨0x080, 0, 1, [⟨31, 0, .ro, 0, false, none⟩]⟩]

/-- The registers of pages 38, 39. -/
def pageHst : List RegDef :=
  [⟨0x010, 0, 1, [⟨31, 31, .w1c, 0, false, none⟩, ⟨3, 3, .ro, 0, false, none⟩, ⟨2, 2, .ro, 0, false, none⟩, ⟨1, 1, .ro, 0, false, none⟩,
    ⟨0, 0, .ro, 0, false, none⟩]⟩,
   ⟨0x020, 0, 1, [⟨0, 0, .wo, 0, false, none⟩]⟩,
   ⟨0x040, 0, 1, [⟨31, 0, .ro, 0, false, none⟩]⟩,
   ⟨0x044, 0, 1, [⟨15, 0, .ro, 0, false, none⟩]⟩,
   ⟨0x048, 0, 1, [⟨31, 0, .ro, 0, true, none⟩]⟩,
   ⟨0x04C, 0, 1, [⟨31, 0, .ro, 0, true, none⟩]⟩,
   ⟨0x050, 0, 1, [⟨15, 8, .ro, 0, true, none⟩, ⟨7, 0, .ro, 0, true, none⟩]⟩,
   ⟨0x060, 4, 4, [⟨31, 0, .ro, 0, true, none⟩]⟩,
   ⟨0x070, 4, 4, [⟨31, 0, .ro, 0, true, none⟩]⟩,
   ⟨0x080, 0, 1, [⟨31, 0, .ro, 0, false, none⟩]⟩,
   ⟨0x084, 0, 1, [⟨31, 0, .ro, 0, false, none⟩]⟩]

/-- The registers of page 3A. -/
def pageSess : List RegDef :=
  [⟨0x010, 0, 1, [⟨31, 31, .w1c, 0, false, none⟩, ⟨18, 18, .ro, 0, false, none⟩, ⟨15, 0, .ro, 0, false, none⟩]⟩,
   ⟨0x020, 0, 1, [⟨0, 0, .wo, 0, false, none⟩]⟩,
   ⟨0x040, 0, 1, [⟨31, 0, .ro, 0, true, none⟩]⟩,
   ⟨0x044, 0, 1, [⟨31, 0, .ro, 0, false, none⟩]⟩,
   ⟨0x100, 16, 16, [⟨31, 31, .ro, 0, true, none⟩, ⟨30, 29, .ro, 0, true, none⟩, ⟨28, 28, .ro, 0, true, none⟩, ⟨27, 20, .ro, 0, true, none⟩,
     ⟨19, 10, .ro, 0, true, none⟩, ⟨9, 0, .ro, 0, true, none⟩]⟩,
   ⟨0x104, 16, 16, [⟨31, 31, .ro, 0, false, none⟩, ⟨30, 30, .ro, 0, false, none⟩, ⟨29, 29, .ro, 0, false, none⟩]⟩,
   ⟨0x108, 16, 16, [⟨31, 0, .ro, 0, false, none⟩]⟩,
   ⟨0x10C, 16, 16, [⟨31, 0, .ro, 0, false, none⟩]⟩,
   ⟨0x200, 4, 16, [⟨31, 24, .ro, 0, false, none⟩, ⟨23, 16, .ro, 0, false, none⟩, ⟨15, 8, .ro, 0, false, none⟩, ⟨7, 0, .ro, 0, false, none⟩]⟩,
   ⟨0x240, 4, 16, [⟨31, 0, .ro, 0, false, none⟩]⟩]

/-- The registers of page 3B. -/
def pageQue : List RegDef :=
  [⟨0x010, 0, 1, [⟨31, 31, .w1c, 0, false, none⟩]⟩,
   ⟨0x100, 16, 64, [⟨31, 16, .ro, 0, false, none⟩, ⟨15, 4, .ro, 0, false, none⟩]⟩,
   ⟨0x104, 16, 64, [⟨31, 0, .ro, 0, false, none⟩]⟩,
   ⟨0x108, 16, 64, [⟨31, 16, .ro, 0, false, none⟩, ⟨15, 0, .ro, 0, false, none⟩]⟩,
   ⟨0x10C, 16, 64, [⟨31, 0, .wo, 0, false, none⟩]⟩]

/-- The registers of page 40. -/
def pageIrq : List RegDef :=
  [⟨0x008, 0, 1, [⟨31, 16, .ro, 256, false, none⟩, ⟨15, 8, .ro, 4, false, none⟩, ⟨7, 0, .ro, 16, false, none⟩]⟩,
   ⟨0x020, 0, 1, [⟨0, 0, .wo, 0, false, none⟩]⟩,
   ⟨0x040, 0, 1, [⟨31, 31, .wo, 0, false, none⟩, ⟨9, 0, .wo, 0, false, none⟩]⟩,
   ⟨0x044, 0, 1, [⟨31, 0, .ro, 0, false, none⟩]⟩,
   ⟨0x048, 0, 1, [⟨31, 0, .ro, 0, false, none⟩]⟩,
   ⟨0x080, 16, 4, [⟨0, 0, .wo, 0, false, none⟩]⟩,
   ⟨0x084, 16, 4, [⟨31, 31, .ro, 0, false, none⟩, ⟨9, 0, .ro, 1023, false, none⟩]⟩,
   ⟨0x088, 16, 4, [⟨9, 0, .wo, 0, false, none⟩]⟩,
   ⟨0x08C, 16, 4, [⟨3, 0, .rw, 8, false, some (0, 8)⟩]⟩,
   ⟨0x100, 4, 256, [⟨31, 31, .rw, 1, false, none⟩, ⟨26, 24, .rw, 4, false, none⟩, ⟨20, 16, .rw, 0, false, some (0, 19)⟩, ⟨1, 0, .ro, 0,
     false, none⟩]⟩]

/-- The registers of page 41. -/
def pageBrg : List RegDef :=
  [⟨0x008, 0, 1, [⟨31, 16, .ro, 64, false, none⟩, ⟨15, 8, .ro, 16, false, none⟩, ⟨7, 0, .ro, 16, false, none⟩]⟩,
   ⟨0x010, 0, 1, [⟨31, 31, .w1c, 0, false, none⟩, ⟨1, 1, .ro, 1, false, none⟩, ⟨0, 0, .ro, 0, false, none⟩]⟩,
   ⟨0x020, 0, 1, [⟨1, 1, .wo, 0, false, none⟩, ⟨0, 0, .rwl, 1, false, none⟩]⟩,
   ⟨0x040, 0, 1, [⟨31, 16, .ro, 0, false, none⟩, ⟨15, 0, .ro, 0, false, none⟩]⟩,
   ⟨0x044, 0, 1, [⟨31, 0, .ro, 0, false, none⟩]⟩,
   ⟨0x048, 0, 1, [⟨31, 0, .ro, 0, false, none⟩]⟩,
   ⟨0x04C, 0, 1, [⟨31, 16, .ro, 0, false, none⟩, ⟨3, 0, .ro, 0, false, none⟩]⟩,
   ⟨0x100, 16, 16, [⟨31, 0, .ro, 0, false, none⟩]⟩,
   ⟨0x104, 16, 16, [⟨31, 28, .ro, 0, false, none⟩, ⟨27, 27, .ro, 0, false, none⟩, ⟨19, 16, .ro, 0, false, none⟩]⟩,
   ⟨0x108, 16, 16, [⟨31, 0, .ro, 0, false, none⟩]⟩,
   ⟨0x10C, 16, 16, [⟨31, 0, .ro, 0, false, none⟩]⟩,
   ⟨0x200, 4, 16, [⟨31, 0, .ro, 0, false, none⟩]⟩] ++
  [⟨0x240, 4, 4, [⟨31, 0, .ro, 0, false, none⟩]⟩]

/-- The registers of page 42. -/
def pageCrc : List RegDef :=
  [⟨0x008, 0, 1, [⟨31, 24, .ro, 4, false, none⟩, ⟨23, 16, .ro, 64, false, none⟩, ⟨15, 8, .ro, 8, false, none⟩]⟩,
   ⟨0x010, 0, 1, [⟨31, 31, .w1c, 0, false, none⟩, ⟨3, 0, .ro, 0, false, none⟩]⟩,
   ⟨0x100, 64, 4, [⟨22, 16, .rw, 32, false, some (8, 64)⟩, ⟨9, 8, .rw, 0, false, some (0, 2)⟩, ⟨2, 2, .rw, 1, false, none⟩, ⟨1, 1, .rw, 1,
     false, none⟩, ⟨0, 0, .rw, 1, false, none⟩]⟩,
   ⟨0x104, 64, 4, [⟨31, 0, .rw, 517762881, false, none⟩]⟩,
   ⟨0x108, 64, 4, [⟨31, 0, .rw, 0, false, none⟩]⟩,
   ⟨0x10C, 64, 4, [⟨31, 0, .rw, 4294967295, false, none⟩]⟩,
   ⟨0x110, 64, 4, [⟨31, 0, .rw, 0, false, none⟩]⟩,
   ⟨0x114, 64, 4, [⟨31, 0, .rw, 0, false, none⟩]⟩,
   ⟨0x118, 64, 4, [⟨31, 0, .rw, 0, false, none⟩]⟩,
   ⟨0x11C, 64, 4, [⟨31, 0, .rw, 0, false, none⟩]⟩,
   ⟨0x120, 64, 4, [⟨27, 0, .rw, 0, false, none⟩]⟩,
   ⟨0x124, 64, 4, [⟨0, 0, .wo, 0, false, none⟩]⟩] ++
  [⟨0x128, 64, 4, [⟨31, 0, .ro, 0, false, none⟩]⟩,
   ⟨0x12C, 64, 4, [⟨31, 0, .ro, 0, false, none⟩]⟩,
   ⟨0x130, 64, 4, [⟨31, 31, .ro, 0, false, none⟩, ⟨30, 30, .ro, 0, false, none⟩, ⟨29, 29, .ro, 0, false, none⟩]⟩]

/-- The registers of page 48. -/
def pageEvr : List RegDef :=
  [⟨0x008, 0, 1, [⟨31, 0, .ro, 1032192, false, none⟩]⟩,
   ⟨0x00C, 0, 1, [⟨31, 16, .ro, 16384, false, none⟩, ⟨15, 0, .ro, 50000, false, none⟩]⟩,
   ⟨0x010, 0, 1, [⟨31, 31, .w1c, 0, false, none⟩, ⟨2, 2, .ro, 0, false, none⟩, ⟨1, 1, .ro, 0, false, none⟩, ⟨0, 0, .ro, 0, true, none⟩]⟩,
   ⟨0x020, 0, 1, [⟨0, 0, .wo, 0, false, none⟩]⟩,
   ⟨0x040, 0, 1, [⟨0, 0, .rv, 0, true, none⟩]⟩,
   ⟨0x044, 0, 1, [⟨31, 0, .ro, 0, false, none⟩]⟩,
   ⟨0x048, 0, 1, [⟨19, 0, .ro, 0, false, none⟩]⟩,
   ⟨0x04C, 0, 1, [⟨31, 0, .ro, 0, false, none⟩]⟩,
   ⟨0x050, 0, 1, [⟨14, 0, .ro, 0, false, none⟩]⟩,
   ⟨0x054, 0, 1, [⟨31, 16, .ro, 0, false, none⟩, ⟨15, 0, .ro, 0, false, none⟩]⟩,
   ⟨0x058, 0, 1, [⟨31, 16, .ro, 0, false, none⟩, ⟨15, 0, .ro, 0, false, none⟩]⟩,
   ⟨0x060, 4, 4, [⟨31, 0, .ro, 0, false, none⟩]⟩] ++
  [⟨0x070, 0, 1, [⟨31, 0, .ro, 0, false, none⟩]⟩,
   ⟨0x100, 4, 16, [⟨31, 17, .ro, 0, true, none⟩, ⟨3, 0, .ro, 0, true, none⟩]⟩]

/-- The registers of page 49. -/
def pageJrn : List RegDef :=
  [⟨0x008, 0, 1, [⟨31, 8, .ro, 65536, false, none⟩, ⟨7, 0, .ro, 128, false, none⟩]⟩,
   ⟨0x010, 0, 1, [⟨31, 31, .w1c, 0, false, none⟩, ⟨0, 0, .ro, 0, false, none⟩]⟩,
   ⟨0x020, 0, 1, [⟨0, 0, .wo, 0, false, none⟩]⟩,
   ⟨0x040, 0, 1, [⟨31, 0, .ro, 0, false, none⟩]⟩,
   ⟨0x044, 0, 1, [⟨31, 0, .ro, 0, false, none⟩]⟩,
   ⟨0x048, 0, 1, [⟨31, 0, .ro, 0, false, none⟩]⟩]

/-- The registers of page 4A. -/
def pagePmon : List RegDef :=
  [⟨0x008, 0, 1, [⟨31, 24, .ro, 8, false, none⟩, ⟨23, 16, .ro, 64, false, none⟩, ⟨15, 8, .ro, 8, false, none⟩, ⟨7, 0, .ro, 20, false, none⟩]⟩,
   ⟨0x010, 0, 1, [⟨31, 31, .w1c, 0, false, none⟩, ⟨6, 4, .ro, 0, false, none⟩, ⟨2, 0, .ro, 0, false, none⟩]⟩,
   ⟨0x020, 0, 1, [⟨1, 1, .wo, 0, false, none⟩, ⟨0, 0, .wo, 0, false, none⟩]⟩,
   ⟨0x040, 0, 1, [⟨2, 0, .rw, 0, false, none⟩]⟩,
   ⟨0x044, 0, 1, [⟨31, 31, .rw, 0, false, none⟩, ⟨17, 16, .rw, 0, false, some (0, 2)⟩, ⟨12, 8, .rw, 12, false, some (8, 20)⟩]⟩,
   ⟨0x048, 0, 1, [⟨31, 0, .rw, 4294967295, false, none⟩]⟩,
   ⟨0x04C, 0, 1, [⟨31, 0, .rwl, 1, false, none⟩]⟩,
   ⟨0x050, 0, 1, [⟨31, 0, .ro, 0, false, none⟩]⟩,
   ⟨0x054, 0, 1, [⟨31, 0, .ro, 0, false, none⟩]⟩,
   ⟨0x058, 0, 1, [⟨31, 0, .ro, 0, false, none⟩]⟩,
   ⟨0x05C, 0, 1, [⟨15, 0, .rw, 0, false, none⟩]⟩,
   ⟨0x100, 0, 1, [⟨31, 0, .ro, 0, false, none⟩]⟩] ++
  [⟨0x104, 0, 1, [⟨31, 0, .ro, 0, false, none⟩]⟩,
   ⟨0x110, 4, 8, [⟨31, 31, .rw, 0, false, none⟩, ⟨30, 30, .rw, 0, false, none⟩, ⟨29, 29, .rw, 0, false, none⟩, ⟨28, 28, .rw, 0, false,
     none⟩, ⟨7, 0, .rw, 0, false, none⟩]⟩,
   ⟨0x130, 4, 8, [⟨31, 0, .rw, 0, false, none⟩]⟩,
   ⟨0x150, 0, 1, [⟨7, 0, .w1c, 0, false, none⟩]⟩,
   ⟨0x180, 0, 1, [⟨31, 0, .ro, 0, false, none⟩]⟩,
   ⟨0x184, 0, 1, [⟨31, 0, .ro, 0, false, none⟩]⟩,
   ⟨0x190, 4, 8, [⟨31, 31, .rw, 0, false, none⟩, ⟨30, 30, .rw, 0, false, none⟩, ⟨29, 29, .rw, 0, false, none⟩, ⟨28, 28, .rw, 0, false,
     none⟩, ⟨7, 0, .rw, 0, false, none⟩]⟩,
   ⟨0x1B0, 4, 8, [⟨31, 0, .rw, 0, false, none⟩]⟩,
   ⟨0x1D0, 0, 1, [⟨7, 0, .w1c, 0, false, none⟩]⟩,
   ⟨0x200, 0, 1, [⟨31, 0, .ro, 0, false, none⟩]⟩,
   ⟨0x204, 0, 1, [⟨31, 0, .ro, 0, false, none⟩]⟩,
   ⟨0x210, 4, 8, [⟨31, 31, .rw, 0, false, none⟩, ⟨30, 30, .rw, 0, false, none⟩, ⟨29, 29, .rw, 0, false, none⟩, ⟨28, 28, .rw, 0, false,
     none⟩, ⟨7, 0, .rw, 0, false, none⟩]⟩] ++
  [⟨0x230, 4, 8, [⟨31, 0, .rw, 0, false, none⟩]⟩,
   ⟨0x250, 0, 1, [⟨7, 0, .w1c, 0, false, none⟩]⟩,
   ⟨0x300, 4, 64, [⟨31, 0, .ro, 0, false, none⟩]⟩,
   ⟨0x400, 4, 64, [⟨31, 0, .ro, 0, false, none⟩]⟩]

/-- The registers of page 50. -/
def pageBist : List RegDef :=
  [⟨0x010, 0, 1, [⟨31, 31, .w1c, 0, false, none⟩, ⟨9, 8, .ro, 0, false, none⟩, ⟨5, 0, .ro, 0, false, none⟩]⟩,
   ⟨0x040, 0, 1, [⟨31, 0, .ro, 0, false, none⟩]⟩,
   ⟨0x044, 0, 1, [⟨31, 31, .ro, 0, false, none⟩, ⟨21, 16, .ro, 0, false, none⟩, ⟨15, 0, .ro, 0, false, none⟩]⟩,
   ⟨0x048, 0, 1, [⟨31, 31, .ro, 0, false, none⟩, ⟨15, 0, .ro, 0, false, none⟩]⟩,
   ⟨0x04C, 0, 1, [⟨31, 16, .ro, 0, false, none⟩, ⟨15, 0, .ro, 0, false, none⟩]⟩,
   ⟨0x050, 0, 1, [⟨31, 16, .ro, 0, false, none⟩, ⟨15, 0, .ro, 0, false, none⟩]⟩]

/-- The registers of page 51. -/
def pageMem : List RegDef :=
  [⟨0x100, 4, 16, [⟨31, 31, .ro, 0, false, none⟩, ⟨27, 24, .ro, 0, false, none⟩, ⟨17, 16, .rw, 0, false, some (0, 2)⟩, ⟨15, 0, .ro, 0, false, none⟩]⟩,
   ⟨0x140, 4, 16, [⟨31, 0, .ro, 0, false, none⟩]⟩]

/-- The registers of page 58. -/
def pageUpd : List RegDef :=
  [⟨0x010, 0, 1, [⟨31, 31, .w1c, 0, false, none⟩, ⟨3, 2, .ro, 0, false, none⟩, ⟨1, 1, .ro, 0, false, none⟩, ⟨0, 0, .ro, 0, false, none⟩]⟩,
   ⟨0x040, 0, 1, [⟨31, 0, .ro, 0, false, none⟩]⟩,
   ⟨0x044, 0, 1, [⟨31, 0, .ro, 0, false, none⟩]⟩,
   ⟨0x048, 0, 1, [⟨31, 31, .ro, 0, false, none⟩, ⟨19, 16, .ro, 0, false, none⟩, ⟨7, 0, .ro, 0, false, none⟩]⟩,
   ⟨0x04C, 0, 1, [⟨30, 28, .ro, 0, false, none⟩, ⟨1, 0, .ro, 0, false, none⟩]⟩,
   ⟨0x050, 0, 1, [⟨31, 0, .ro, 0, false, none⟩]⟩,
   ⟨0x054, 0, 1, [⟨15, 8, .ro, 0, false, none⟩, ⟨7, 0, .ro, 0, false, none⟩]⟩,
   ⟨0x100, 16, 4, [⟨31, 31, .ro, 0, false, none⟩, ⟨30, 30, .ro, 0, false, none⟩, ⟨29, 29, .ro, 0, false, none⟩, ⟨23, 16, .ro, 0, false,
     none⟩, ⟨15, 0, .ro, 0, false, none⟩]⟩,
   ⟨0x104, 16, 4, [⟨31, 0, .ro, 0, false, none⟩]⟩,
   ⟨0x108, 16, 4, [⟨31, 0, .ro, 0, false, none⟩]⟩,
   ⟨0x10C, 16, 4, [⟨31, 0, .ro, 0, false, none⟩]⟩]

/-- The registers of a page's own tables; none for a page that R332 does not list. -/
def pageRegs (page : Nat) : List RegDef :=
  match page with
  | 0x00 => pageSys
  | 0x01 => pagePwr
  | 0x02 => pageTime
  | 0x03 => pageCal
  | 0x04 => pageSec
  | 0x08 => pagePea
  | 0x09 => pagePea
  | 0x0A => pagePea
  | 0x0B => pagePod
  | 0x0C => pageVote
  | 0x10 => pageProg
  | 0x11 => pageTask
  | 0x12 => pageForce
  | 0x18 => pageIve
  | 0x19 => pageIvt
  | 0x20 => pageOut
  | 0x21 => pageSfb
  | 0x22 => pageFio
  | 0x28 => pageRng
  | 0x29 => pageRng
  | 0x2A => pageRng
  | 0x2B => pageRng
  | 0x2C => pageRsch
  | 0x30 => pageTwin
  | 0x38 => pageHst
  | 0x39 => pageHst
  | 0x3A => pageSess
  | 0x3B => pageQue
  | 0x40 => pageIrq
  | 0x41 => pageBrg
  | 0x42 => pageCrc
  | 0x48 => pageEvr
  | 0x49 => pageJrn
  | 0x4A => pagePmon
  | 0x50 => pageBist
  | 0x51 => pageMem
  | 0x58 => pageUpd
  | _ => []

/-- R332: block type, instance, first interrupt source and number of event bits of a page; none for a page not listed. -/
def pageInfo (page : Nat) : Option (Nat × Nat × Nat × Nat) :=
  match page with
  | 0x00 => some (0x0000, 0, 0x00, 8)
  | 0x01 => some (0x0001, 0, 0x08, 4)
  | 0x02 => some (0x0002, 0, 0x0C, 4)
  | 0x03 => some (0x0003, 0, 0x10, 2)
  | 0x04 => some (0x0004, 0, 0x12, 4)
  | 0x08 => some (0x0010, 0, 0x20, 11)
  | 0x09 => some (0x0010, 1, 0x30, 11)
  | 0x0A => some (0x0010, 2, 0x40, 11)
  | 0x0B => some (0x0011, 0, 0x50, 11)
  | 0x0C => some (0x0012, 0, 0x60, 12)
  | 0x10 => some (0x0013, 0, 0x70, 3)
  | 0x11 => some (0x0014, 0, 0x80, 5)
  | 0x12 => some (0x0015, 0, 0x90, 6)
  | 0x18 => some (0x0016, 0, 0xA0, 10)
  | 0x19 => some (0x0017, 0, 0xB0, 0)
  | 0x20 => some (0x0018, 0, 0xC0, 7)
  | 0x21 => some (0x0019, 0, 0xC8, 8)
  | 0x22 => some (0x0029, 0, 0x4B, 5)
  | 0x28 => some (0x001A, 0, 0xD0, 6)
  | 0x29 => some (0x001A, 1, 0xD6, 6)
  | 0x2A => some (0x001A, 2, 0xDC, 6)
  | 0x2B => some (0x001A, 3, 0xE2, 6)
  | 0x2C => some (0x001B, 0, 0xE8, 2)
  | 0x30 => some (0x001C, 0, 0xEA, 6)
  | 0x38 => some (0x001D, 0, 0x74, 4)
  | 0x39 => some (0x001D, 1, 0x78, 4)
  | 0x3A => some (0x001E, 0, 0x86, 8)
  | 0x3B => some (0x001F, 0, 0x98, 4)
  | 0x40 => some (0x0021, 0, 0x3B, 3)
  | 0x41 => some (0x0022, 0, 0xB4, 4)
  | 0x42 => some (0x0023, 0, 0xB8, 4)
  | 0x48 => some (0x0024, 0, 0xBC, 4)
  | 0x49 => some (0x0020, 0, 0xAA, 3)
  | 0x4A => some (0x0025, 0, 0x2B, 5)
  | 0x50 => some (0x0026, 0, 0x16, 4)
  | 0x51 => some (0x0027, 0, 0x1A, 3)
  | 0x58 => some (0x0028, 0, 0x1D, 3)
  | _ => none

end Sys2Proof.Machine
end

