-- ==== Sys2Proof/Machine/Store.lean ====
section
/-! DEFINITION. Sparse stores: lists of (key, value) pairs in one canonical form.  Keys rise strictly and no entry equals
what an unlisted key reads as (`d`), so that equal stores are equal lists.  The register file, the peas' memories and the
byte memory are all such stores. -/

namespace Sys2Proof.Machine

/-- A sparse store. -/
abbrev Store (α : Type) := List (Nat × α)

namespace Store

variable {α : Type}

/-- The value at key `k`: the entry's, or `d k` where none is listed. -/
def get (d : Nat → α) : Store α → Nat → α
  | [], k => d k
  | (j, v) :: rest, k => if j = k then v else get d rest k

/-- Insert an entry in key order. -/
def insert : Store α → Nat → α → Store α
  | [], k, v => [(k, v)]
  | (j, u) :: rest, k, v => if k < j then (k, v) :: (j, u) :: rest else (j, u) :: insert rest k v

/-- Put `v` in at `k`, dropping an entry of that key and listing none that equals `d k`. -/
def set [DecidableEq α] (d : Nat → α) (m : Store α) (k : Nat) (v : α) : Store α :=
  let rest := m.filter fun e => e.1 != k
  if v = d k then rest else insert rest k v

/-- Every key of the store is above `lo`, keys rise, and no entry equals its default. -/
def wfFrom [DecidableEq α] (d : Nat → α) : Nat → Store α → Bool
  | _, [] => true
  | lo, (k, v) :: rest => decide (lo ≤ k) && decide (v ≠ d k) && wfFrom d (k + 1) rest

/-- The canonical form. -/
def wf [DecidableEq α] (d : Nat → α) (m : Store α) : Bool := wfFrom d 0 m

end Store

end Sys2Proof.Machine
end

