-- ==== Sys2Proof/Machine/State.lean ====
section
/-! DEFINITION. The state of the module as plain data: the register file, the blocks' state that no register shows, the
non-volatile store, and the queue of commands that wait.  Registers are the home of whatever a register field shows
(`regs`); the structures below hold the rest. -/

namespace Sys2Proof.Machine

/-! ### Peas, tokens and the pod (spec 02, 03, 04) -/

/-- A token's four words as one pea emits them (R71, R72). -/
structure Token where
  tag : Word
  p0 : Word
  p1 : Word
  check : Word
deriving DecidableEq, Repr

/-- What of a token is compared and released: TAG, P0, P1 (R79). -/
structure Released where
  tag : Word
  p0 : Word
  p1 : Word
deriving DecidableEq, Repr

/-- One release of a task (R127, R128): its slot and cycle, the word address of the next instruction, SEQ.IDX, the
operations counted, its triggers, the image bank it is bound to (R126), whether its cycle runs on the previous image
(R35) and the stale counter at its release (R112). -/
structure Release where
  slot : Nat
  cycle : Word
  pc : Nat
  idx : Nat
  ops : Nat
  triggers : Nat
  bank : Nat
  prevImage : Bool
  stale : Nat
deriving DecidableEq, Repr

/-- A defect of a stored word as the code of R48 sees it: the memory, the logical address, and `some` bit for a single-bit
error, `none` for an uncorrectable one. -/
structure Upset where
  mem : MemKind
  addr : Nat
  bit : Option Nat
deriving DecidableEq, Repr

/-- What an evicted pea goes through next (R98). -/
inductive EvictPhase where
  | idle | path | test | stayOut
deriving DecidableEq, Repr

/-- One pea (R44): the raw words of its four memories at physical addresses (R52), its block digests (R91), its releases
and its delay register; `grp` is the stage group of its first fault where the spec does not say which detects it; `flight` counts the
instructions that are past decode while it is HELD (R77); `behind` says that its program MRAM lacks the active image, since an exchange took
effect that it had not verified (R143). -/
structure Pea where
  mram : Store Word
  sram : Store Word
  scratch : Store Word
  ctx : Store Word
  upsets : List Upset
  dig : BitVec 64
  blk : Store (BitVec 64)
  sblk : Store (BitVec 64)
  cur : Option Release
  queue : List Release
  dr : List Token
  arrived : Nat
  digestDue : Bool
  opsCycle : Nat
  doneTick : Option Nat
  lagging : Bool
  scrubAt : List Nat
  scrubDone : Bool
  lates : List (Word × Nat)
  evictions : List Nat
  digests : List Nat
  firstDigest : Bool
  phase : EvictPhase
  behind : Bool
  grp : BitVec 4
  flight : Nat
  testAt : Nat
deriving DecidableEq, Repr

/-- A copy at a voter position. -/
structure Copy where
  pea : PeaId
  tok : Released
deriving DecidableEq, Repr

/-- The states of a voter position that holds a copy (R81). -/
inductive PosState where
  | one | split | voted | closed
deriving DecidableEq, Repr

/-- One open position: its copies in order of arrival, the token it releases once there is one, and the tick at which the
second copy arrived. -/
structure Position where
  index : Nat
  copies : List Copy
  st : PosState
  winner : Option Released
  secondTick : Nat
deriving DecidableEq, Repr

/-- A re-seed that waits for a window in which every pea is IDLE (R95, R96): blocks from 1,024 on are scratch. -/
structure Reseed where
  minor : PeaId
  major : PeaId
  blocks : List Nat
deriving DecidableEq, Repr

/-- A re-join in progress (R100): pass 1's blocks still to copy, whether pass 1 has ended and in which cycle, and whether this window may
compare; `wait` one that an exchange makes begin anew after cycle X (R143). -/
structure Rejoin where
  pea : PeaId
  left : List Nat
  passEnded : Bool
  passCyc : Word
  mayCompare : Bool
  joined : Bool
  wait : Bool
deriving DecidableEq, Repr

/-- The pod and the voters beside their registers. `level1` and `level2` are the levels of the two heartbeats; `hbMark` is the voter (true:
voter 2) that has made its transition of the present interval while the other has not, and `hbGood` says that both alternate in antiphase
(R87, R204). -/
structure Pod where
  a : Pea
  b : Pea
  c : Pea
  half : Nat
  positions : List Position
  history : List (Nat × Released)
  nextPass : Nat
  cycleTokens : Nat
  skipVec : List Nat
  reseed : Option Reseed
  rejoin : Option Rejoin
  rotNext : Nat
  rotPea : PeaId
  rotDeferred : Bool
  rotPending : Bool
  rotTesting : Option (PeaId × Nat)
  level1 : Bool
  level2 : Bool
  hbMark : Option Bool
  hbGood : Bool
  hbStopped : Bool
  kfault : Bool
deriving DecidableEq, Repr

/-- The commit buffer and the committed values (R37 to R39, R86): the token that the voters hold for the IVE (R197), tokens buffered, the
last committed word of each object, the copy that the outputs apply, the HRES tokens of the formed set, each with the code of the first IVE
refusal of its cycle that carries its number, and whether the set of the present cycle has been formed. -/
structure Commit where
  iveIn : List Released
  buffer : List Released
  committed : Store Word
  applied : Store Word
  hres : List (Released × Nat)
  formed : Bool
deriving DecidableEq, Repr

/-! ### The invariant engine (spec 06) -/

/-- The IVE's state of a route that is not FREE (R179): state code 2 to 6, variant, request number, CLEARED, and the start
cycle and expiry cycle of a running timer; `flank` while its flank holds stand. -/
structure RouteSt where
  state : Nat
  variant : Nat
  req : Word
  cleared : Bool
  flank : Bool
  timer : Option (Word × Word)
deriving DecidableEq, Repr

/-- The holds on a track section (R180). -/
structure SectionSt where
  path : Option Nat
  overlaps : List Nat
  seen : Bool
deriving DecidableEq, Repr

/-- The hold counts and the commanded position of a point (R180): 0 hold, 1 normal, 2 reverse. -/
structure PointSt where
  routeNormal : Nat
  routeReverse : Nat
  flankNormal : Nat
  flankReverse : Nat
  commanded : Nat
deriving DecidableEq, Repr

/-- The committed aspect of a signal with its route (R180), and whether it was withdrawn at the last commit point. -/
structure SignalSt where
  aspect : Nat
  route : Nat
  withdrawn : Bool
deriving DecidableEq, Repr

/-- One entry of the refusal list (R195). -/
structure Refused where
  object : Nat
  code : Nat
  withdrawal : Bool
  kind : Nat
  p1 : Word
deriving DecidableEq, Repr

/-- The IVE beside its registers. `status` holds the status store (R169): code of each object, 0x10 for a LOST entry.
`stops` are the signals withdrawn towards the next commit set; the check times, the digest and the counter of decisions feed
the registers that show them; `expired` says that the timers of this commit point have been taken, and `apart` that the digests which the
two halves keep differ (R201). -/
structure Ive where
  tables : List Word
  staged : Option (List Word)
  status : Store Nat
  routes : Store RouteSt
  sections : Store SectionSt
  points : Store PointSt
  signals : Store SignalSt
  stops : List Nat
  refusals : List Refused
  refCount : Nat
  wdrCount : Nat
  fullCount : Nat
  busyNs : Nat
  busyLast : Nat
  busyMax : Nat
  checkMax : Nat
  checkKind : Nat
  decided : Nat
  expired : Bool
  digest : BitVec 64
  apart : Bool
deriving DecidableEq, Repr

/-! ### The cycle and the input image (spec 01) -/

/-- The vital cycle: its number, whether cycles run, the ring cycle's place in it, the tick of tV(n), the entries of the controllers, the
image that the cycle runs on and the controllers that it marks as changed, the image that waits for delivery, the bank in use, whether the
cycle runs on the previous image, and the requests of an image that was not delivered.  `held` are the trigger kinds held for event slots
(R131); `dvsHold` counts the cycles of R60's third row and `dvsNext` is the setpoint decided for the next cycle; `overran` says that a vital
periodic task overran; `imgCause` is the cause for which the waiting image is not delivered, 0 for none (R363: 1 late, 2 IMG_BAD, 3 bank
busy, 4 bridge reset); `steer` lengthens (shortens, where negative) the present vital cycle by so many ticks (R285). -/
structure Cycle where
  n : Word
  running : Bool
  i : Nat
  ringOn : Bool
  tick0 : Nat
  entries : List CtrlEntry
  image : Image
  changed : List Nat
  waiting : Option Image
  bank : Nat
  prevImage : Bool
  carried : List ReqRec
  held : List (Nat × Nat)
  dvsHold : Nat
  overran : Bool
  imgCause : Nat
  dvsNext : Option Nat
  steer : Int
deriving DecidableEq, Repr

/-! ### Records, queues and the event recorder (spec 10, 12) -/

/-- A record of R361 before it is laid out in bytes: `rseq` is given when it enters staging; `dest` is the session whose event ring the
record enters by a rule other than a subscription (R350). -/
structure Rec where
  rseq : Word
  code : Nat
  page : Nat
  time : Nat
  vcyc : Word
  count : Word
  source : Word
  body : List Word
  rootFlag : Bool
  gap : Bool
  serial : Word
  dest : Option Nat
deriving DecidableEq, Repr

/-- A response entry (R319). -/
structure RespEntry where
  kind : Byte
  status : Byte
  ive : Byte
  reqnum : Word
  sseq : Word
  result : Word
  cycle : Word
  arrival : Nat
  readyTime : Nat
  tag : Word
deriving DecidableEq, Repr

/-- An event ring entry (R319, R373). -/
structure EventEntry where
  kind : Byte
  cls : Byte
  ive : Byte
  reqnum : Word
  count : Word
  result : Word
  cycle : Word
  time : Nat
  body : List Word
deriving DecidableEq, Repr

/-- A journal entry (R324). `complete`, `fwd`, `order` and `gap` are its FLAGS. -/
structure JEntry where
  jix : Word
  reqnum : Word
  arrival : Nat
  session : Nat
  kind : Byte
  fwd : Bool
  order : Bool
  gap : Bool
  complete : Bool
  status : Byte
  sseq : Word
  sepoch : Word
  imgRc : Word
  ive : Byte
  result : Nat
  rcyc : Word
  done : Nat
  orderer : Word
  claim : Word
  digest : List Byte
  params : List Word
  mac : BitVec 64
deriving DecidableEq, Repr

/-- What a queue entry carries: a response, an event, or the bytes of another entry. -/
inductive EntryBody where
  | resp (r : RespEntry)
  | event (e : EventEntry)
  | record (r : Rec)
  | journal (j : JEntry)
  | raw (bs : List Byte)
deriving DecidableEq, Repr

/-- One queue entry that is not EMPTY: its sequence number and whether it is READY (else PENDING). -/
structure QEntry where
  seq : Word
  ready : Bool
  body : EntryBody
deriving DecidableEq, Repr

/-- One of the 64 queues: the next sequence number and the entries, head first. -/
structure Queue where
  next : Word
  entries : List QEntry
  lost : Nat
  lostFirst : Option (Nat × Option Word)
deriving DecidableEq, Repr

/-- An open coalescing window of R374: its session, its key, the entry it will write and when it opened. -/
structure CoWindow where
  session : Nat
  kind : Byte
  code : Nat
  page : Nat
  source : Word
  reqnum : Word
  opened : Nat
  entry : EventEntry
  rseq : Option Word
deriving DecidableEq, Repr

/-- The losses a RECORDS_LOST record reports: per class (class 0 is lost from Q49 only), and the times of the first and last (R370). -/
structure LossAcc where
  c0 : Nat
  c1 : Nat
  c2 : Nat
  c3 : Nat
  first : Nat
  last : Nat
deriving DecidableEq, Repr

/-- The volatile half of the event recorder (R368 to R372, R376). -/
structure RecState where
  staging : List Rec
  loss : Option LossAcc
  q49loss : Option LossAcc
  clearing : Option Word
  rateSecond : Nat
  rateCount : Nat
deriving DecidableEq, Repr

/-- The recorder area in module MRAM (R365): root records oldest first, circulating slots by number. -/
structure Recorder where
  nextSeq : Word
  wslot : Nat
  oldest : Word
  root : List Rec
  rootFull : Bool
  circ : List (Nat × Rec)
deriving DecidableEq, Repr

/-! ### Interrupts, bridge and check-value engines (spec 11) -/

/-- A source that is not IDLE: the target and priority in force for it (R341) until it is IDLE again. -/
structure IrqLive where
  source : Nat
  target : Nat
  prio : Nat
deriving DecidableEq, Repr

/-- Who writes a register: a host session by OHP, a service core, or the block itself. -/
structure PostedWrite where
  writer : Writer
  tag : Word
  addr : Nat
  data : List Word
deriving DecidableEq, Repr

/-- The aggregate a FENCE answers with (R350). -/
structure FenceAgg where
  posted : Nat
  failed : Nat
  firstAddr : Word
  firstCause : Byte
  firstTag : Word
deriving DecidableEq, Repr

/-- The latched configuration of a running CRC engine (R356). -/
structure CrcRun where
  engine : Nat
  width : Nat
  foldLen : Nat
  inv : Bool
  refout : Bool
  refin : Bool
  poly : Nat
  init : Nat
  fold : Nat
  src : Nat
  len : Nat
deriving DecidableEq, Repr

/-- An open sample of the performance monitor (R383, R384): stamps in ticks from tV(n), `none` while unreached. -/
structure Sample where
  task : Nat
  opcode : Byte
  vcyc : Word
  addr : Word
  emitted : Bool
  trapped : Bool
  iveDone : Bool
  flagged : Bool
  decode : Word
  execEnd : Word
  inDr : Word
  atVoter : Word
  voted : Word
  iveEnd : Word
  tag : Word
  position : Option Nat
  iveOut : Byte
  refusal : Byte
  fill : Byte
deriving DecidableEq, Repr

/-- The performance monitor's state beside its registers: per pea the open sample, its number, samples lost, and the shift register; the
vital cycle of the last periodic snapshot (R382). -/
structure PmonState where
  samples : List (Option Sample)
  numbers : List Word
  lost : List Nat
  lfsr : Word
  snapAt : Word
deriving DecidableEq, Repr

/-! ### Hosts (spec 10) -/

/-- What the module has sent to hosts, neighbours on the host links, the rings (frames and the cut signal of R266), its partner and the
update tool. -/
inductive OutMsg where
  | ohp (m : OhpOut)
  | arpReply (port : Fin 2) (ip : Word)
  | arpRequest (port : Fin 2) (ip : Word)
  | gratuitousArp (port : Fin 2) (ip : Word)
  | echoReply (port : Fin 2) (dst : IpAddr) (data : List Byte)
  | neighbourAdvertisement (port : Fin 2) (target : BitVec 128)
  | neighbourSolicitation (port : Fin 2) (target : BitVec 128)
  | mldReport (port : Fin 2)
  | ring (port : Nat) (f : RingFrame)
  | cut (port : Nat)
  | twin (h : TwinHdr) (payload : List Byte)
  | update (m : UpdOut)
deriving DecidableEq, Repr

/-- An accepted enveloped message (R312): its SSEQ, its MAC and the reply that a repetition gets again. -/
structure Accepted where
  sseq : Word
  mac : BitVec 64
  reply : Option OhpOut
deriving DecidableEq, Repr

/-- Where a session's last accepted message came from (R304). -/
structure Peer where
  port : Fin 2
  addr : IpAddr
  udp : BitVec 16
deriving DecidableEq, Repr

/-- A FENCE that waits for the outcomes of its session's earlier writes (R350): its TAG, its SSEQ if it came in an envelope, the
writes without an outcome that were posted before it, and the aggregate it will answer with. -/
structure HeldFence where
  tag : Word
  sseq : Option Word
  left : Nat
  agg : FenceAgg
deriving DecidableEq, Repr

/-- One session beside its registers (R310, R312, R313). -/
structure Session where
  accepted : List Accepted
  lastSseq : Word
  txSeq : Word
  badMac : List Nat
  blockedAt : Option Nat
  lastHeard : Nat
  rate : List Nat
  peer : Option Peer
  closedAt : Option Nat
  fences : List HeldFence
  agg : FenceAgg
deriving DecidableEq, Repr

/-- What the sessions share: requests that wait for an image (R317), the last arrival stamp (R316), the number to give next
where numbering does not go on from the last (R315), the last number that may be given while the link is down, whether a gap
entry is due (R325), the times of the echo replies of the last second by port (R303), the ports whose IPv6 link-local address is in
use (R302), and by port the neighbours whose link addresses are known, with the time since when, newest first (R303). -/
structure Hosts where
  reqs : List ReqRec
  lastStamp : Nat
  numBase : Option Word
  numLimit : Option Word
  gapDue : Bool
  echoes : List (Nat × Nat)
  linkLocal : List Nat
  neigh : List (Nat × IpAddr × Nat)
deriving DecidableEq, Repr

/-! ### Twin operation (spec 09) -/

/-- The partner's last STATUS (R282) or unit window (R245). -/
structure PartnerView where
  n : Word
  claim : Word
  state : Nat
  tflags : Nat
  dig : BitVec 64
  sdig : BitVec 64
deriving DecidableEq, Repr

/-- The state of the twin link and of the unit's role beside the registers of page TWIN.  `fault` says that a condition of R283 occurred in
the present cycle, `gotFrame` that a valid frame came in it, `good` counts the cycles without a condition; `status` is the partner's last
STATUS, `window` its last valid unit window with the ring cycles since it; `own` keeps the unit's digests by cycle, and `compared` says that
one has been compared since the last boundary; `txq` waits for the transmitter, each frame with its part (R282, R287), and `rxParts`,
`rxDig` are the parts received so far; `xferRetry` is when a transfer ended without success and `xferRun` counts the cycles of its phase;
`steer` is what the last alignment error asks of the next cycle (R285). `takeover` is a takeover decided, with its cause and its epoch, and
`roleNext` another role that the unit takes at the first boundary after the tick `roleFrom`. `held` are held requests (R299); `swapAt` is
the tick at which the swap was armed; `swapCancel` says that the swap was cancelled among them, and `swapLost` that the partner did not take
over. -/
structure Twin where
  txSeq : Word
  rxSeq : Option Word
  txq : List (TwinBody × Nat)
  bad : Nat
  fault : Bool
  good : Nat
  lastDown : Option Word
  gotFrame : Bool
  status : Option PartnerView
  window : Option (PartnerView × Nat)
  knownEpoch : Nat
  readyAt : Option Nat
  partnerReady : Bool
  rank2At : Option Nat
  probe : Option (Word × Nat)
  probeNext : Word
  alignErr : Int
  alignOver : Nat
  steer : Int
  own : List (Word × BitVec 64 × BitVec 64)
  cmpLast : Option Word
  compared : Bool
  rxImage : Option Image
  rxParts : Option (Image × Nat)
  rxDig : Option (Word × List (BitVec 64) × Nat)
  heardNow : Bool
  hearNow : Nat
  hearMax : Nat
  covered : List Nat
  silentRun : Nat
  takeover : Option (Nat × Nat)
  roleNext : Option (Nat × Nat)
  roleFrom : Nat
  xferBlocks : List Nat
  xferNeed : List Nat
  xferLatch : List (BitVec 64)
  xferStart : Nat
  xferStaged : Bool
  xferBdig : Option (Word × List (BitVec 64))
  xferRetry : Option Nat
  xferRun : Nat
  matches_ : Nat
  swapInit : Bool
  swapAcked : Bool
  swapGo : Bool
  swapSession : Nat
  swapNum : Word
  swapAct : Bool
  swapAt : Nat
  swapDown : Bool
  swapCancel : Bool
  swapLost : Bool
  held : List (OhpMsg × HostReq × Nat × Bool)
  swapped : Bool
  standbyRun : Nat
deriving DecidableEq, Repr

/-! ### Online exchange (spec 05) -/

/-- An exchange that is armed, or whose arming waits for the partner's READY (R144, R145), since a tick. -/
structure Armed where
  x : Word
  build : Word
  dropForces : Bool
  alone : Bool
  session : Nat
  num : Word
  waiting : Bool
  mirrored : Bool
  go : Bool
  byPartner : Bool
  since : Nat
deriving DecidableEq, Repr

/-- Program exchange beside its registers: the staged image, the arming, the image left behind while peas migrate, and the
peas that have yet to end it; `ready` and `joining` are the peas that had verified the staged half, and those in REJOIN, at the commit point
before the exchange cycle (R143). -/
structure Exchange where
  staged : Option Program
  armed : Option Armed
  old : Option Program
  migrating : List PeaId
  carriedForces : List Nat
  ready : List PeaId
  joining : List PeaId
deriving DecidableEq, Repr

/-! ### Local field side and safety functions (spec 07, 14) -/

/-- The field side and the energy stage beside their registers: filter counters and states of the inputs, overload latches, test
faults (0 none, 1 TP_STUCK, 2 TP_CROSS) with the test periods passed since, lost refreshes, energised refreshes by channel, the tick at
which each TPS last switched off, and the channels whose off-pulse the last downlink started; SEQ of the last downlink sent, of the last one
taken as valid, and of the last frame of each direction whose CRC held (R432). -/
structure Fio where
  count : Store Nat
  state : Word
  latch : Word
  tpFault : Store Nat
  tpPass : Store Nat
  downLost : Bool
  downGood : Nat
  downSeq : BitVec 16
  downRef : Option (BitVec 16)
  downGot : BitVec 16
  upRef : Option (BitVec 16)
  upLost : Bool
  upGood : Nat
  energised : Store Nat
  tpsAt : Store Nat
  modeBad : Word
  dark : Word
deriving DecidableEq, Repr

/-- The safety functions beside their registers: which inputs have shown demand in the present demand (bit f: input A, bit 8 + f: input B),
functions that wait for their reset, channels that failed the SFB's own test of them, and the functions in demand that SFB-1 and SFB-2 have
each found in demand (R223). -/
structure Sfb where
  shown : Word
  wait : Word
  testBad : Word
  seen1 : Word
  seen2 : Word
deriving DecidableEq, Repr

/-- The lock-out reset key (R221): `levelA` and `levelB` say which channels are active; the phase is 0 idle, 1 first channel active, 2 both,
3 one released, 4 void; when the channels last changed, the first onset, when both were active and the first release, ns; `voidAt` is the
tick at which the last sequence became void. -/
structure Lor where
  phase : Nat
  levelA : Bool
  levelB : Bool
  changedA : Nat
  changedB : Nat
  onset : Nat
  both : Nat
  release : Nat
  voidAt : Option Nat
deriving DecidableEq, Repr

/-! ### Ring ports (spec 08) -/

/-- Containment of a node (R265): its order, its target number, the target of CUT_NEXT (none: the master itself), HOPS before, the
orders given so far, and RCYC of the frame that follows the last of them. -/
structure Containment where
  ord : Nat
  target : Nat
  upstream : Option Nat
  hops : Nat
  step : Nat
  due : Word
deriving DecidableEq, Repr

/-- A ring port beside its registers.  `tx` holds the composed command sections (R207), `sent` what was launched, `launched` the tick of a
launch whose frame has not returned.  `quiet` counts ring cycles without a valid frame, `foreign` those since a valid frame of another
master, `sinceStop` those since a STOP frame that no other valid frame has followed, `cut` that the master itself sends the cut signal after
its next frame, `frames` the frames sent in the present role, `coldBack` and `coldRun` the COLD frames that returned, `relayGoal` a relay
movement under way, `lastRx` RCYC of the last valid frame received, `heardType` the type of the last valid frame of another master,
`offset`, `offHops` and `measured` the recorded offset of the active unit's frames, the HOPS it was recorded with, and the last measured one
(R286), `single` the single candidates of the two last ring cycles, `unclear` the ring cycles in a row without one, `after` the role that
follows the STOP frames. -/
structure Port where
  tx : List (List Byte)
  sent : List (List Byte)
  launched : Option Nat
  quiet : Nat
  foreign : Option Nat
  sinceStop : Option Nat
  cut : Bool
  frames : Nat
  coldBack : Nat
  coldRun : Nat
  survey : List (Nat × Nat × Word)
  backoffLeft : Nat
  excluded : Bool
  relayGoal : Option Bool
  lastRx : Option Word
  heardType : Nat
  offset : Option Int
  offHops : Nat
  measured : Option Int
  orders : List (Nat × Nat)
  single : List (Option Nat)
  unclear : Nat
  contain : Option Containment
  after : Nat
  slips : List Bool
deriving DecidableEq, Repr

/-! ### Start, supply, time, update and activation (spec 13, 14) -/

/-- Where the module stands between reset and RUN, and towards rest (R387 to R408).  `off`: unpowered or in reset, waiting for
RESET_RELEASE; `stay`: OFF after SHUTDOWN (R389); `step`: the step of R391 under way; `full`: BIST runs at START; `windows`: timebase
checker windows passed since START; `released`: the tick of reset release; `cause`: the cause that the next start shows; `sleep`: the
operation of a sleep request to be decided at the next boundary; `woke`: wake sources that fired since the last boundary; `parkFor`: the
operation that SHUTDOWN_BIST serves; `bad`: a slice of it failed; `badPeas`: peas that failed their slices at START; `safe9`: a SAFE request
waits for the boundary; `running`: the first vital cycle has been released; `holdup`: the time of a declared supply loss; `bistAt`: when the
self-test began; `lastCause`: the tick of the last SAFE cause with the cause, its detail and whether it locks out; `leftAt`: the tick at
which SAFE was left; `safeAt`: the tick at which it was entered; `again`: a cause of that tick, which takes effect once START has begun
(R220, R222). -/
structure Boot where
  off : Bool
  stay : Bool
  step : Nat
  full : Bool
  windows : Nat
  released : Nat
  cause : Nat
  sleep : Option Nat
  woke : Nat
  parkFor : Nat
  bad : Bool
  badPeas : List PeaId
  safe9 : Bool
  running : Bool
  holdup : Option Nat
  bistAt : Nat
  lastCause : Option (Nat × Nat × Nat × Bool)
  leftAt : Option Nat
  again : Option (Nat × Nat × Bool)
  safeAt : Nat
deriving DecidableEq, Repr

/-- The input pins and the supplies beside their registers: straps ID3 to ID0, the feeds (0 supplying, 1 failed, 2 disconnected for
overvoltage) and the WAKE input. -/
structure Pins where
  straps : Nat
  feedA : Nat
  feedB : Nat
  wake : Bool
deriving DecidableEq, Repr

/-- Station time beside its registers: a TIMESET that waits for the boundary, the rate of the slew under way in ppm, the last
accepted PPS edge in ticks, the edges in a row with an error above 1 ms (R405, R406), and what the rate trim has added up towards a
whole nanosecond, in units of 100 attoseconds (R413); and when the lock of each page was opened (R337). -/
structure Clock where
  timeset : Option Nat
  slewPpm : Nat
  lastPps : Option Nat
  ppsBad : Nat
  trim : Int
  lockAt : Store Nat
deriving DecidableEq, Repr

/-- A scheduled activation (R418, R419): slot, vital cycle, station time, the ordering request, how far it has come, a count of
cycles for the step that waits, and the tick at which the present phase began. -/
structure Activation where
  slot : Nat
  cycle : Word
  time : Nat
  session : Nat
  num : Word
  phase : Nat
  count : Nat
  since : Nat
deriving DecidableEq, Repr

/-- An update transfer (R417): XID, KIND, the slot it fills (none for a key package), the length named by BEGIN, the session
and the tick of its last datagram. -/
structure Transfer where
  xid : Word
  kind : Nat
  slot : Option Nat
  length : Nat
  session : Nat
  heard : Nat
deriving DecidableEq, Repr

/-- The update path beside its registers; `buf` holds the bytes of a key package, `sprout` the slots stored in
SPROUT (R420). -/
structure Upd where
  sched : Option Activation
  xfer : Option Transfer
  buf : Store Byte
  sprout : List Nat
deriving DecidableEq, Repr

/-! ### What survives reset (MRAM, the secure bank, one-time-programmable memory) -/

/-- The lock-out record of R219. -/
structure LockRecord where
  cause : Nat
  detail : Nat
  cycle : Word
deriving DecidableEq, Repr

/-- The seal of R392: serial, station time of the pass, pass map, CRC of the repair record; whether the timekeeper has broken or a
tamper has occurred since, and whether it has been used. -/
structure SealRec where
  serial : Word
  time : Nat
  map : Word
  repairs : Word
  broken : Bool
  tampered : Bool
  used : Bool
deriving DecidableEq, Repr

/-- A firmware or program slot (R414 to R419): its marks, the starts on trial, its header fields with the key generation, and the program
that its plaintext gives with the outcome of its seal. -/
structure SlotRec where
  valid : Bool
  active : Bool
  trial : Bool
  strikes : Nat
  build : Word
  base : Word
  compat : Nat
  seg : Nat
  svn : Nat
  length : Nat
  keyGen : Nat
  content : Option Program
  sound : Bool
deriving DecidableEq, Repr

/-- An image key of the secure bank with its generation (R409). -/
structure ImageKey where
  gen : Nat
  key : List Byte
deriving DecidableEq, Repr

/-- The non-volatile state: it persists over reset and, but for what the spec says, over loss of supply.  `leave` is the row of R220 that is
to be recorded by the next START, with whether the exit was by nRST; `devicePub` the public device key, `factory` the factory calibration by
register address (R16, R413); `slots` firmware 0 and 1, then program 0 and 1; `keys` the session key slots 2s + k; `lcNext` a life-cycle
change for the next START with the owner key hash it fuses; `actEnd` the slot whose confirmation ends an activation (R419); `wakes` TSEND of
the last WAKE accepted, by session; `nonces` the last OPEN nonces and `epochs` the last SEPOCH of each session; `tamper` cause and time of
the latch, `tamperDue` that its record is to be raised by the next START. -/
structure NonVol where
  serial : Word
  factory : List (Nat × Word)
  lockout : Option LockRecord
  safeTimes : List Nat
  safeTotal : Nat
  leave : Option (Nat × Bool)
  recorder : Recorder
  epoch : Nat
  journal : List JEntry
  jix : Word
  wrapped : Bool
  starts : Nat
  timeFloor : Nat
  tkValid : Bool
  tkSet : Bool
  sealed : Option SealRec
  repairs : List Word
  userCal : Store Word
  slots : Store SlotRec
  keys : Store (List Byte)
  fwKey : Option ImageKey
  pgKey : Option ImageKey
  lifecycle : Nat
  lcNext : Option (Nat × List Byte)
  actEnd : Option Nat
  ownerHash : Option (List Byte)
  moazalHash : List Byte
  devicePub : List Byte
  svnFw : Nat
  svnPg : Nat
  tamper : Option (Nat × Nat)
  tamperDue : Bool
  wakes : Store Nat
  nonces : Store (List (BitVec 64))
  epochs : Store Word
deriving DecidableEq, Repr

/-! ### The whole state -/

/-- Why the machine stops with a fault.  No rule of the spec stops the block: this reason is raised by no meaning. -/
inductive Fault where
  /-- Raised by nobody: the block keeps taking commands in every state. Safe. -/
  | unreachable
deriving DecidableEq, Repr

/-- Why a command is refused. -/
inductive Refusal where
  /-- Raised by the dispatcher for a command that has no meaning yet. Safe. -/
  | notModelled (mnemonic : String)
deriving DecidableEq, Repr

/-- The state of the block. -/
structure State where
  regs : Store Word
  now : Nat
  ticks : Nat
  cyc : Cycle
  pod : Pod
  prog : Option Program
  com : Commit
  ive : Ive
  xch : Exchange
  boot : Boot
  pins : Pins
  clock : Clock
  upd : Upd
  fio : Fio
  sfb : Sfb
  lor : Lor
  rings : Store Port
  twin : Twin
  evr : RecState
  queues : Store Queue
  windows : List CoWindow
  irqLive : List IrqLive
  posted : List PostedWrite
  sessions : Store Session
  hosts : Hosts
  out : List OutMsg
  crcRuns : List CrcRun
  pmon : PmonState
  mem : Store Byte
  nv : NonVol
  pending : List Instr
deriving DecidableEq, Repr

/-! ### The state after reset -/

/-- A pea after reset: nothing written (an unlisted raw word encodes canonical 0). -/
def Pea.reset : Pea :=
  { mram := [], sram := [], scratch := [], ctx := [], upsets := [], dig := 0, blk := [], sblk := [], cur := none, queue := [], dr := [],
    arrived := 0, digestDue := false, opsCycle := 0, doneTick := none, lagging := false, scrubAt := [0, 0, 0, 0],
    scrubDone := false, lates := [], evictions := [], digests := [], firstDigest := false, phase := .idle, behind := false, grp := 0, flight := 0,
    testAt := 0 }

/-- The pod after reset. -/
def Pod.reset : Pod :=
  { a := .reset, b := .reset, c := .reset, half := 0, positions := [], history := [], nextPass := 0, cycleTokens := 0, skipVec := [],
    reseed := none, rejoin := none, rotNext := 0, rotPea := .a, rotDeferred := false, rotPending := false, rotTesting := none,
    level1 := false, level2 := true, hbMark := none, hbGood := false, hbStopped := false, kfault := false }

/-- No image yet. -/
def noImage : Image := { rc := 0, entries := [], localIn := 0, localLost := 0xFFFFFFFF, sfb := 0, reqs := [] }

/-- The cycle after reset: no cycle runs. -/
def Cycle.reset : Cycle :=
  { n := 0, running := false, i := 0, ringOn := false, tick0 := 0, entries := [], image := noImage, changed := [], waiting := none,
    bank := 0, prevImage := false, carried := [], held := [], dvsHold := 0, overran := false, imgCause := 0, dvsNext := none,
    steer := 0 }

/-- The IVE after reset: no tables, every route FREE. -/
def Ive.reset : Ive :=
  { tables := [], staged := none, status := [], routes := [], sections := [], points := [], signals := [], stops := [], refusals := [],
    refCount := 0, wdrCount := 0, fullCount := 0, busyNs := 0, busyLast := 0, busyMax := 0, checkMax := 0, checkKind := 0, decided := 0,
    expired := false, digest := 0, apart := false }

/-- The twin state after reset: the link is down. -/
def Twin.reset : Twin :=
  { txSeq := 0, rxSeq := none, txq := [], bad := 0, fault := false, good := 0, lastDown := none, gotFrame := false, status := none,
    window := none, knownEpoch := 0, readyAt := none, partnerReady := false, rank2At := none, probe := none, probeNext := 0, alignErr := 0,
    alignOver := 0, steer := 0, own := [], cmpLast := none, compared := false, rxImage := none, rxParts := none, rxDig := none,
    heardNow := false, hearNow := 0, hearMax := 0, covered := [],
    silentRun := 0, takeover := none, roleNext := none, roleFrom := 0, xferBlocks := [], xferNeed := [], xferLatch := [], xferStart := 0,
    xferStaged := false, xferBdig := none, xferRetry := none, xferRun := 0, matches_ := 0, swapInit := false, swapAcked := false,
    swapGo := false,
    swapSession := 0, swapNum := 0, swapAct := false, swapAt := 0, swapDown := false, swapCancel := false, swapLost := false, held := [],
    swapped := false, standbyRun := 0 }

/-- The field side after reset. -/
def Fio.reset : Fio :=
  { count := [], state := 0, latch := 0, tpFault := [], tpPass := [], downLost := false, downGood := 0, downSeq := 0, downRef := none, downGot := 0,
    upRef := none, upLost := false,
    upGood := 0, energised := [], tpsAt := [], modeBad := 0, dark := 0 }

/-- The non-volatile memories of a module that has never been written. -/
def NonVol.blank : NonVol :=
  { serial := 0, factory := [], lockout := none, safeTimes := [], safeTotal := 0, leave := none,
    recorder := { nextSeq := 0, wslot := 0, oldest := 0, root := [], rootFull := false, circ := [] },
    epoch := 0, journal := [], jix := 0, wrapped := false, starts := 0, timeFloor := 0, tkValid := false, tkSet := false, sealed := none,
    repairs := [], userCal := [], slots := [], keys := [], fwKey := none, pgKey := none, lifecycle := 0, lcNext := none, actEnd := none,
    ownerHash := none, moazalHash := [], devicePub := [], svnFw := 0, svnPg := 0, tamper := none, tamperDue := false, wakes := [],
    nonces := [], epochs := [] }

/-- The machine right after reset (R16, R389): every register page holds its Reset column, the module is in OFF until RESET_RELEASE,
nothing is pending, and the non-volatile memories are blank. -/
def State.reset : State :=
  { regs := [], now := 0, ticks := 0, cyc := .reset, pod := .reset, prog := none,
    com := { iveIn := [], buffer := [], committed := [], applied := [], hres := [], formed := false },
    ive := .reset, xch := { staged := none, armed := none, old := none, migrating := [], carriedForces := [], ready := [], joining := [] },
    boot := { off := true, stay := false, step := 0, full := false, windows := 0, released := 0, cause := 1, sleep := none, woke := 0,
              parkFor := 0, bad := false, badPeas := [], safe9 := false, running := false, holdup := none, bistAt := 0, lastCause := none,
              leftAt := none, again := none, safeAt := 0 },
    pins := { straps := 0, feedA := 0, feedB := 0, wake := false },
    clock := { timeset := none, slewPpm := 0, lastPps := none, ppsBad := 0, trim := 0, lockAt := [] },
    upd := { sched := none, xfer := none, buf := [], sprout := [] }, fio := .reset,
    sfb := { shown := 0, wait := 0, testBad := 0, seen1 := 0, seen2 := 0 },
    lor := { phase := 0, levelA := false, levelB := false, changedA := 0, changedB := 0, onset := 0, both := 0, release := 0, voidAt := none }, rings := [], twin := .reset,
    evr := { staging := [], loss := none, q49loss := none, clearing := none, rateSecond := 0, rateCount := 0 },
    queues := [], windows := [], irqLive := [], posted := [], sessions := [],
    hosts := { reqs := [], lastStamp := 0, numBase := none, numLimit := none, gapDue := false, echoes := [], linkLocal := [], neigh := [] },
    out := [], crcRuns := [],
    pmon := { samples := [none, none, none], numbers := [0, 0, 0], lost := [0, 0, 0], lfsr := 1, snapAt := 0 },
    mem := [], nv := .blank, pending := [] }

end Sys2Proof.Machine
end

