-- ==== Sys2Proof/Machine/Ops.lean ====
section
/-! DEFINITION. The named operations that every family shares: register fields, page events and interrupt sources, records,
queues and event rings, and the counters of the performance monitor. -/

namespace Sys2Proof.Machine

/-! ### Numbers -/

/-- The index of a pea: 0 a, 1 b, 2 c. -/
def peaNum : PeaId → Nat
  | .a => 0
  | .b => 1
  | .c => 2

/-- Serial comparison over 32 bits (R30): `x` is later than `y`. -/
def later (x y : Word) : Bool :=
  let d := (x - y).toNat
  decide (1 ≤ d ∧ d ≤ 2 ^ 31 - 1)

/-- Serial comparison over 8 bits (R243). -/
def later8 (x y : Byte) : Bool :=
  let d := (x - y).toNat
  decide (1 ≤ d ∧ d ≤ 127)

/-- Bits [hi:lo] of a number. -/
def bitsOf (hi lo : Nat) (v : Nat) : Nat := v / 2 ^ lo % 2 ^ (hi - lo + 1)

/-- `v` with bits [hi:lo] replaced by `x`. -/
def putBits (hi lo : Nat) (v x : Nat) : Nat :=
  v - bitsOf hi lo v * 2 ^ lo + (x % 2 ^ (hi - lo + 1)) * 2 ^ lo

/-- A word from a number, modulo 2^32. -/
def w32 (n : Nat) : Word := BitVec.ofNat 32 n

/-- 1 for true, 0 for false. -/
def b2n (b : Bool) : Nat := if b then 1 else 0

/-! ### Registers -/

/-- The register definition that covers offset `off`, if any. -/
def findReg (off : Nat) : List RegDef → Option RegDef
  | [] => none
  | r :: rs =>
    if off = r.off then some r
    else if r.stride ≠ 0 ∧ r.off < off ∧ (off - r.off) % r.stride = 0 ∧ (off - r.off) / r.stride < r.count then some r
    else findReg off rs

/-- The word that the Reset column of a register's fields spells. -/
def fieldsReset (fs : List FieldDef) : Nat := fs.foldl (fun a f => putBits f.hi f.lo a f.reset) 0

/-- R323: entries and entry bytes of queue `q`, as `QUE_CFGq` shows them. -/
def queueShape (q : Nat) : Nat × Nat :=
  if q < 32 then (32, if q % 2 = 0 then 128 else 64)
  else if q < 48 then (256, 64)
  else if q = 48 then (1024, 128)
  else if q = 49 then (4096, 64)
  else if q < 55 then (256, 64)
  else if q = 55 then (64, 512)
  else if q < 60 then (1024, 64)
  else (256, 64)

/-- The value a register has after a reset that re-initialises its page (R16, R333, R323). -/
def resetOf (addr : Nat) : Word :=
  if addr < 0x40000000 ∨ 0x40060000 ≤ addr then 0 else
  let page := (addr - 0x40000000) / 0x1000
  let off := (addr - 0x40000000) % 0x1000
  match pageInfo page with
  | none => 0
  | some (block, inst, base, _) =>
    if off = 0 then w32 (0x90000000 + inst * 0x1000000 + block)
    else if off = 4 then 0x01000000
    else if off = 0x28 then w32 base
    else if page = 0x3B ∧ 0x100 ≤ off ∧ off < 0x500 ∧ off % 16 = 0 then
      w32 ((queueShape ((off - 0x100) / 16)).1 * 0x10000 + (queueShape ((off - 0x100) / 16)).2 * 16)
    else if off = 0x0C ∧ 8 ≤ page ∧ page ≤ 10 then w32 (0x00204000 + (page - 8))
    else match findReg off (pageRegs page) with
      | none => 0
      | some r => w32 (fieldsReset r.fields)

namespace State

/-- The stored value of the register at `a`. -/
def reg (s : State) (a : Nat) : Word := Store.get resetOf s.regs a

/-- Store `v` in the register at `a`. -/
def setReg (s : State) (a : Nat) (v : Word) : State := { s with regs := Store.set resetOf s.regs a v }

/-- The value of a field. -/
def fld (s : State) (f : Field) : Nat := bitsOf f.hi f.lo (s.reg f.addr).toNat

/-- Put a value into a field; the register's other bits stay. -/
def setFld (s : State) (f : Field) (v : Nat) : State :=
  s.setReg f.addr (w32 (putBits f.hi f.lo (s.reg f.addr).toNat v))

/-- A one-bit field as a Boolean. -/
def flag (s : State) (f : Field) : Bool := s.fld f != 0

/-- Set or clear a one-bit field. -/
def setFlag (s : State) (f : Field) (b : Bool) : State := s.setFld f (b2n b)

/-- Add to a counter field that saturates at its largest value. -/
def addSat (s : State) (f : Field) (n : Nat) : State :=
  s.setFld f (Nat.min (s.fld f + n) (2 ^ (f.hi - f.lo + 1) - 1))

/-- Raise a field that holds the largest value seen. -/
def raiseMax (s : State) (f : Field) (n : Nat) : State := if s.fld f < n then s.setFld f n else s

/-- The present vital cycle number. -/
def vcyc (s : State) : Word := s.cyc.n

/-- The vital cycle period in ms. -/
def tvMs (s : State) : Nat := s.fld Fld.PROG_CYCLE_TV_MS

/-- Ticks since the present vital cycle boundary tV(n). -/
def phase (s : State) : Nat := s.ticks - s.cyc.tick0

/-! ### Coalescing windows (R321, R374) -/

/-- A window holds the key given. -/
def sameKey (session : Nat) (kind : Byte) (code page : Nat) (source reqnum : Word) (w : CoWindow) : Bool :=
  w.session = session && w.kind = kind && w.code = code && w.page = page && w.source = source && w.reqnum = reqnum

/-- Offer an entry to the event ring of a session: it opens a window for its key, or counts in the open one (R374). -/
def offer (s : State) (session : Nat) (code page : Nat) (source : Word) (e : EventEntry) (rseq : Option Word) : State :=
  if s.windows.any (sameKey session e.kind code page source e.reqnum) then
    { s with windows := s.windows.map fun w =>
        if sameKey session e.kind code page source e.reqnum w then
          { w with entry := { w.entry with count := w.entry.count + 1 } } else w }
  else
    { s with windows := s.windows ++ [⟨session, e.kind, code, page, source, e.reqnum, s.now, { e with count := 1 }, rseq⟩] }

/-! ### The staging buffer of the recorder (R362, R363, R368) -/

end State

/-- The class of a record code (R363). -/
def codeClass (code : Nat) : Nat :=
  if code ∈ [0x0107, 0x0204, 0x0404, 0x0501, 0x0503, 0x0703, 0x0A01] then 2
  else if code ∈ [0x0109, 0x0F01, 0x0F02] then 3
  else if code ∈ [0x0101, 0x0102, 0x0103, 0x0104, 0x0301, 0x0302, 0x0303, 0x0304, 0x0305, 0x0306, 0x0402, 0x0405, 0x0406,
      0x0502, 0x0601, 0x0603, 0x0604, 0x0802, 0x0803, 0x0901, 0x0902, 0x0903] then 0
  else 1

/-- The codes whose records also go to the root area (R363). -/
def codeRoot (code : Nat) : Bool :=
  code ∈ [0x0301, 0x0302, 0x0306, 0x0406, 0x0603, 0x0604, 0x0802, 0x0803, 0x0901, 0x0903]

namespace State

/-- Add a lost record of class `c` to the losses since the last report. -/
def addLoss (l : Option LossAcc) (c now : Nat) : Option LossAcc :=
  let a := l.getD ⟨0, 0, 0, 0, now, now⟩
  some { a with c0 := a.c0 + b2n (c = 0), c1 := a.c1 + b2n (c = 1), c2 := a.c2 + b2n (c = 2), c3 := a.c3 + b2n (c = 3), last := now }

/-- R368: the staging fill at and above which a record of class `c` is dropped. -/
def stageLimit (c : Nat) : Nat := match c with
  | 1 => 1536
  | 2 => 1280
  | 3 => 1024
  | _ => 2048

/-- The staging buffer takes the record (R368). -/
def hasRoom (s : State) (r : Rec) : Bool := codeClass r.code = 0 || decide (s.evr.staging.length < stageLimit (codeClass r.code))

/-- The record enters staging and gets its RSEQ (R362). -/
def intoStaging (s : State) (r : Rec) : State :=
  let r := { r with rseq := s.nv.recorder.nextSeq }
  let s := { s with evr := { s.evr with staging := s.evr.staging ++ [r] },
                    nv := { s.nv with recorder := { s.nv.recorder with nextSeq := s.nv.recorder.nextSeq + 1 } } }
  s.raiseMax Fld.EVR_STAGE_MAX s.evr.staging.length

/-- The record is dropped, and counts in its class's loss (R368). -/
def loseStaged (s : State) (r : Rec) : State :=
  let s := s.addSat (Fld.EVR_LOSSc_LOST (codeClass r.code)) 1
  { s with evr := { s.evr with loss := addLoss s.evr.loss (codeClass r.code) s.now } }

/-- The RSEQ that a record got between two states, if it entered staging (R362). -/
def seqOf (s t : State) : Option Word :=
  if t.nv.recorder.nextSeq = s.nv.recorder.nextSeq then none else some s.nv.recorder.nextSeq

/-- The record of a source that is written to the event ring of session `i` (R344, R363). Its own loss sets the event flag and counts, but
rings no source: that would be this record again (DEDUCED, log entry 81). -/
def irqRecord (s : State) (n i : Nat) : State :=
  let r : Rec := ⟨0, 0x0F01, Page.IRQ, s.now, s.vcyc, 1, w32 n, [], false, false, s.nv.serial, some i⟩
  if s.hasRoom r then s.intoStaging r
  else
    let s := (s.loseStaged r).setFld ⟨regAddr Page.EVR 0x14, Evt.EVR_DROP, Evt.EVR_DROP⟩ 1
    s.setFld (Fld.PMON_PODi_COUNT 62) (s.fld (Fld.PMON_PODi_COUNT 62) + 1)

/-! ### Interrupt sources (R341, R344) -/

/-- The target and priority in force for a source: those of a source that is not IDLE stay until it is. -/
def irqRoute (s : State) (n : Nat) : Nat × Nat :=
  match s.irqLive.find? (fun l => l.source = n) with
  | some l => (l.target, l.prio)
  | none => (s.fld (Fld.IRQ_SRCn_TARGET n), s.fld (Fld.IRQ_SRCn_PRIO n))

/-- Put a source into a state; IDLE lets a deferred route take effect, and leaving IDLE fixes the route. -/
def irqState (s : State) (n st : Nat) : State :=
  let (t, p) := s.irqRoute n
  let live := s.irqLive.filter (fun l => l.source != n)
  { s.setFld (Fld.IRQ_SRCn_STATE n) st with irqLive := if st = 0 then live else ⟨n, t, p⟩ :: live }

/-- R344: a PENDING, unmasked source that is routed to a session's event ring writes its entry and returns to IDLE; the occurrence is
recorded (R363). -/
def irqToRing (s : State) (n : Nat) : State :=
  let t := (s.irqRoute n).1
  if s.fld (Fld.IRQ_SRCn_STATE n) = 1 ∧ 4 ≤ t ∧ s.fld (Fld.IRQ_SRCn_MASK n) = 0 then
    let s := s.irqState n 0
    let u := s.irqRecord n (t - 4)
    u.offer (t - 4) 0x0F01 Page.IRQ (w32 n) ⟨1, 3, 0, 0, 1, w32 (0x0F01 + Page.IRQ * 0x10000), s.vcyc, s.now, [w32 n]⟩ (s.seqOf u)
  else s

/-- R341: ring a source. -/
def ringSource (s : State) (n : Nat) : State :=
  let s := s.addSat Fld.IRQ_RINGCNT_RINGS 1
  match s.fld (Fld.IRQ_SRCn_STATE n) with
  | 0 => (s.irqState n 1).irqToRing n
  | 2 => s.irqState n 3
  | _ => s

/-- R346: withdraw a source. -/
def withdrawSource (s : State) (n : Nat) : State :=
  if s.fld (Fld.IRQ_SRCn_STATE n) = 1 then s.irqState n 0 else s

/-! ### Page events (R335, R336) -/

/-- The first interrupt source of a page. -/
def irqBase (page : Nat) : Nat := match pageInfo page with
  | some (_, _, base, _) => base
  | none => 0

/-- A hardware occurrence of event `b` of a page: its flag is set, and its source rings if it is enabled. -/
def raiseEvt (s : State) (page b : Nat) : State :=
  let s := s.setFld ⟨regAddr page 0x14, b, b⟩ 1
  if s.flag ⟨regAddr page 0x18, b, b⟩ then s.ringSource (irqBase page + b) else s

/-- R334: record an error of a write in the page's `xxx_ERRADDR`. -/
def errAddr (s : State) (page cause off : Nat) : State :=
  s.setReg (regAddr page 0x2C) (w32 (2 ^ 31 + cause * 2 ^ 28 + off))

/-! ### Counters of the performance monitor (R379 to R381) -/

/-- Count `n` occurrences in pod counter `i`: it wraps, and a wrap sets `PMON_EVT.PODWRAP`. -/
def podCount (s : State) (i n : Nat) : State :=
  let v := s.fld (Fld.PMON_PODi_COUNT i) + n
  let s := s.setFld (Fld.PMON_PODi_COUNT i) v
  if v < 2 ^ 32 then s else s.raiseEvt Page.PMON Evt.PMON_PODWRAP

/-- The select field bits [hi:lo] of programmable counter `i` of pea `p`. -/
def evsel (p i hi lo : Nat) : Field := ⟨regAddr Page.PMON (0x110 + 0x80 * p + 4 * i), hi, lo⟩

/-- The count field of programmable counter `i` of pea `p`. -/
def cntField (p i : Nat) : Field := ⟨regAddr Page.PMON (0x130 + 0x80 * p + 4 * i), 31, 0⟩

/-- The overflow bit of programmable counter `i` of pea `p`. -/
def ovfField (p i : Nat) : Field := ⟨regAddr Page.PMON (0x150 + 0x80 * p), i, i⟩

/-- Add `n` to programmable counter `i` of pea `p`; a wrap sets its bit and carries into a chained counter (R379). -/
def cntAdd (s : State) (p : Nat) : Nat → Nat → Nat → State
  | 0, _, _ => s
  | fuel + 1, i, n =>
    let v := s.fld (cntField p i) + n
    let s := s.setFld (cntField p i) v
    if v < 2 ^ 32 then s else
    let s := s.setFld (ovfField p i) 1
    let s := if s.flag (evsel p i 28 28) then s.raiseEvt Page.PMON Evt.PMON_OVF else s
    if i + 1 < 8 ∧ s.flag (evsel p (i + 1) 31 31) ∧ s.flag (evsel p (i + 1) 29 29) then cntAdd s p fuel (i + 1) 1 else s

/-- Condition `e` has held in pea `p` for `n` ticks: the counters that are gated on, enabled, in level mode and select it add them. -/
def peaTicks (s : State) (p e n : Nat) : State :=
  if bitsOf p p (s.fld Fld.PMON_GATE_GATE) = 0 then s else
  (List.range 8).foldl (fun s i =>
    if s.flag (evsel p i 31 31) ∧ ¬ s.flag (evsel p i 29 29) ∧ s.flag (evsel p i 30 30) ∧ s.fld (evsel p i 7 0) = e
    then s.cntAdd p 8 i n else s) s

/-- `n` occurrences of event `e` in pea `p`: the counters that are gated on, enabled, in edge mode and select it add them. -/
def peaCount (s : State) (p e n : Nat) : State :=
  if bitsOf p p (s.fld Fld.PMON_GATE_GATE) = 0 then s else
  (List.range 8).foldl (fun s i =>
    if s.flag (evsel p i 31 31) ∧ ¬ s.flag (evsel p i 29 29) ∧ ¬ s.flag (evsel p i 30 30) ∧ s.fld (evsel p i 7 0) = e
    then s.cntAdd p 8 i n else s) s

/-! ### Sessions and messages -/

/-- R309: the class a session holds, at most the four lowest-numbered of class 2. -/
def classOf (s : State) (i : Nat) : Nat :=
  let c := s.fld (Fld.SESS_CFGs_CLASS i)
  if c = 2 ∧ 4 ≤ ((List.range i).filter (fun j => s.fld (Fld.SESS_CFGs_CLASS j) = 2)).length then 1 else c

/-- A session is open. -/
def isOpen (s : State) (i : Nat) : Bool := s.flag (Fld.SESS_STATEs_OPEN i)

end State

/-- A session with nothing behind it. -/
def freshSession : Session := ⟨[], 0, 0, [], none, 0, [], none, none, [], ⟨0, 0, 0, 0, 0⟩⟩

/-- A queue with nothing in it. -/
def emptyQueue : Queue := ⟨0, [], 0, none⟩

namespace State

/-- Session `i` beside its registers. -/
def session (s : State) (i : Nat) : Session := Store.get (fun _ => freshSession) s.sessions i

/-- Replace session `i`. -/
def setSession (s : State) (i : Nat) (x : Session) : State :=
  { s with sessions := Store.set (fun _ => freshSession) s.sessions i x }

/-- Queue `q`. -/
def queue (s : State) (q : Nat) : Queue := Store.get (fun _ => emptyQueue) s.queues q

/-- Replace queue `q`. -/
def setQueue (s : State) (q : Nat) (x : Queue) : State :=
  { s with queues := Store.set (fun _ => emptyQueue) s.queues q x }

/-- The UNIT byte of a module message (R305): [0] letter, 0 P or single, 1 Q; [1] the unit is ACTIVE. -/
def unitByte (s : State) : Byte :=
  BitVec.ofNat 8 (b2n (s.flag Fld.TWIN_STAT_TWIN && s.flag Fld.TWIN_STAT_LETTER) + 2 * b2n (s.fld Fld.SYS_STAT_STATE = 5))

/-! ### Neighbours (R303) -/

/-- The prefix of an address of `n` bits holds the other too. -/
def samePrefix (n len x y : Nat) : Bool := x / 2 ^ (n - Nat.min len n) = y / 2 ^ (n - Nat.min len n)

/-- The neighbour that a datagram to an address goes by: the address itself within the port's prefix, else the gateway. A link-local address
is within it. -/
def nextHop (s : State) (x : Fin 2) : IpAddr → IpAddr
  | .v4 a => if samePrefix 32 (s.fld (Fld.HSTx_PREFIX_P4 x)) (s.reg (Reg.HSTx_IP4 x)).toNat a.toNat then .v4 a else .v4 (s.reg (Reg.HSTx_IP4GW x))
  | .v6 a =>
    let own := s.reg (Reg.HSTx_IP6i x 0) ++ s.reg (Reg.HSTx_IP6i x 1) ++ s.reg (Reg.HSTx_IP6i x 2) ++ s.reg (Reg.HSTx_IP6i x 3)
    if a.toNat / 2 ^ 118 = 0xFE80 / 64 ∨ samePrefix 128 (s.fld (Fld.HSTx_PREFIX_P6 x)) own.toNat a.toNat then .v6 a
    else .v6 (s.reg (Reg.HSTx_IP6GWi x 0) ++ s.reg (Reg.HSTx_IP6GWi x 1) ++ s.reg (Reg.HSTx_IP6GWi x 2) ++ s.reg (Reg.HSTx_IP6GWi x 3))

/-- An address is an IPv4 address. -/
def isV4 : IpAddr → Bool
  | .v4 _ => true
  | .v6 _ => false

/-- The request for a neighbour's link address. -/
def askFor (x : Fin 2) : IpAddr → OutMsg
  | .v4 a => .arpRequest x a
  | .v6 a => .neighbourSolicitation x a

/-- Before a datagram leaves, its neighbour's link address is requested unless it has been known for less than 300 s; the cache holds 32
addresses of each family for a port (R303). That the answer comes before the datagram leaves is the model's choice (log entry 44). -/
def resolve (s : State) (x : Fin 2) (dst : IpAddr) : State :=
  let hop := s.nextHop x dst
  let fresh := s.hosts.neigh.filter fun e => decide (s.now < e.2.2 + 300000000000)
  if fresh.any fun e => e.1 = (x : Nat) && e.2.1 = hop then s else
  let kin := fun (e : Nat × IpAddr × Nat) => e.1 = (x : Nat) && isV4 e.2.1 = isV4 hop
  { s with hosts := { s.hosts with neigh := (((x : Nat), hop, s.now) :: fresh.filter kin).take 32 ++ fresh.filter fun e => !kin e },
           out := askFor x hop :: s.out }

/-- The sequence number of the newest READY entry of queue `q`, if there is one. -/
def newestReady (s : State) (q : Nat) : Option Word := ((s.queue q).entries.reverse.find? QEntry.ready).map QEntry.seq

/-- R320 rule 5: NOTIFY for an entry of queue `q` that has become READY, if it is a session's and asks for it; it carries the number of the
newest READY entry (R306). -/
def notify (s : State) (q : Nat) : State :=
  if 48 ≤ q ∨ (q < 32 ∧ q % 2 = 0) then s else
  let i := if q < 32 then q / 2 else q - 32
  match (s.session i).peer, s.newestReady q with
  | some p, some seq =>
    if s.flag (Fld.SESS_CFGs_NOTIFY i) ∧ s.isOpen i then
      let x := s.session i
      let m : OhpOut := ⟨p.port, p.addr, p.udp, 0x33, i, x.txSeq + 1, s.reg (Reg.SESS_EPOCHs i), 0, 0, s.unitByte, 0,
        (if q < 32 then 0 else 1) :: [0, 0, 0] ++ wordBytes seq, none⟩
      let s := (s.setSession i { x with txSeq := x.txSeq + 1 }).resolve p.port p.addr
      { s with out := .ohp m :: s.out }
    else s
  | _, _ => s

/-- Put an entry into queue `q` (R319), which takes none once it is full; the entry that fills it sets `QUE_EVT.FULL`. -/
def push (s : State) (q : Nat) (ready : Bool) (b : EntryBody) : State :=
  let x := s.queue q
  if (queueShape q).1 ≤ x.entries.length then s else
  let s := s.setQueue q { x with next := x.next + 1, entries := x.entries ++ [⟨x.next, ready, b⟩] }
  let s := if x.entries.length + 1 = (queueShape q).1 then s.raiseEvt Page.QUE Evt.QUE_FULL else s
  if ready then s.notify q else s

/-- Entries of queue `q` in use. -/
def used (s : State) (q : Nat) : Nat := (s.queue q).entries.length

/-- The body of a gap entry (R374): times of the first and last lost record, and the RSEQ of the first. -/
def gapBody (first last : Nat) (rseq : Option Word) : List Word :=
  [w32 first, w32 (first / 2 ^ 32), w32 last, w32 (last / 2 ^ 32), rseq.getD 0]

/-- R321: an entry for session `i`'s event ring is lost. The gap entry, once the ring is at its last free entry, counts it. -/
def ringLoss (s : State) (i : Nat) (time : Nat) (rseq : Option Word) : State :=
  let q := 32 + i
  let x := s.queue q
  let s := (s.addSat (Fld.SESS_LOSSs_LOST i) 1).podCount 62 1
  let first := x.lostFirst.getD (time, rseq)
  let gap : EventEntry := ⟨4, 0, 0, 0, w32 (x.lost + 1), 0, s.vcyc, s.now, gapBody first.1 time first.2⟩
  let isGap : QEntry → Bool := fun e => match e.body with
    | .event v => v.kind = 4
    | _ => false
  match x.entries.getLast? with
  | some e =>
    if isGap e ∧ x.entries.length = 256 then
      s.setQueue q { x with lost := x.lost + 1, lostFirst := some first,
                            entries := x.entries.dropLast ++ [{ e with body := .event gap }] }
    else
      let s := s.setQueue q { x with lost := x.lost + 1, lostFirst := some first }
      if x.entries.length = 255 then (s.push q true (.event gap)).raiseEvt Page.QUE Evt.QUE_GAP else s
  | none => s.setQueue q { x with lost := x.lost + 1, lostFirst := some first }

/-- R321, R374: write an entry into session `i`'s event ring, under its drop thresholds. -/
def ringWrite (s : State) (i : Nat) (e : EventEntry) (rseq : Option Word) : State :=
  let n := s.used (32 + i)
  if 255 ≤ n ∨ (192 ≤ n ∧ 2 ≤ e.cls.toNat) then s.ringLoss i e.time rseq
  else s.push (32 + i) true (.event e)

end State

/-! ### Records (R361 to R373) -/

/-- R332: the vital-domain pages. -/
def vitalPage (page : Nat) : Bool :=
  page ∈ [0x02, 0x08, 0x09, 0x0A, 0x0B, 0x0C, 0x10, 0x11, 0x12, 0x18, 0x19, 0x20, 0x21]

/-- The 64 bytes of a record (R361). -/
def recBytes (r : Rec) : List Byte :=
  let b := wordBytes r.rseq ++
    [BitVec.ofNat 8 (codeClass r.code + 4 * b2n r.rootFlag + 8 * b2n r.gap + 128), BitVec.ofNat 8 r.page] ++
    leBytes 2 r.code ++ leBytes 8 r.time ++ wordBytes r.vcyc ++ wordBytes r.count ++ wordBytes r.source ++
    padBytes 28 (wordsBytes r.body) ++ wordBytes r.serial
  b ++ wordBytes (crc32c b)

namespace State

/-- A record enters the staging buffer, or it is dropped and counted (R362, R368). -/
def stage (s : State) (r : Rec) : State :=
  if s.hasRoom r then s.intoStaging r else ((s.loseStaged r).podCount 62 1).raiseEvt Page.EVR Evt.EVR_DROP

/-- Raise a record (R364). One of a vital-domain page passes the bridge's vital-to-service buffer first, which drops what is
not class 0 at 3,584 entries (R352); `dest` is the session whose event ring it enters by another rule (R350). -/
def raiseRecTo (s : State) (code page : Nat) (source : Word) (body : List Word) (dest : Option Nat) : State :=
  let r : Rec := ⟨0, code, page, s.now, s.vcyc, 1, source, body, codeRoot code, false, s.nv.serial, dest⟩
  if ¬ vitalPage page then s.stage r else
  if 3584 ≤ s.fld Fld.BRG_VTS_NOW ∧ codeClass code ≠ 0 then
    ((s.addSat Fld.BRG_VTSDROP_DROP 1).podCount 62 1).raiseEvt Page.BRG Evt.BRG_VTSFULL
  else
    let s := s.addSat Fld.BRG_VTS_NOW 1
    (s.raiseMax Fld.BRG_VTS_MAX (s.fld Fld.BRG_VTS_NOW)).stage r

/-- Raise a record that no rule but R373 leads to an event ring. -/
def raiseRec (s : State) (code page : Nat) (source : Word) (body : List Word) : State := s.raiseRecTo code page source body none

/-- An event that a rule says is recorded, under a code of which R363 says nothing (log entry 26). -/
def recordUnlisted (s : State) (page event : Nat) (source : Word) (body : List Word) : State :=
  s.raiseRec (Config.unlistedCode event).toNat page source body

end State

end Sys2Proof.Machine
end

