-- ==== Sys2Proof/Machine/Symbols.lean ====
section
/-! DEFINITION. What stands in a program image in coded form: the symbol table (R111) and the controllers that its bindings name (R22, R236). -/

namespace Sys2Proof.Machine

/-- The fields of an entry's two words (R111): OWNER is the owning slot of a timer and the type of an edge detector in its upper two
bits; LEN belongs to arrays and timers. -/
def symbolOf (e : SymbolEntry) : Symbol :=
  let w0 := e.word0.toNat
  let w1 := e.word1.toNat
  let ty := bitsOf 31 28 w0
  let own := bitsOf 31 27 w1
  let stray := if ty = 5 then 0 else if ty = 6 then own % 8 else own
  { id := e.id, ty := ty, cls := bitsOf 27 26 w0, array := bitsOf 25 25 w0 = 1, image := bitsOf 24 24 w0 = 1, addr := bitsOf 20 0 w0,
    owner := if ty = 5 then own else 0, edge := if ty = 6 then own / 8 else 0, len := bitsOf 23 0 w1,
    rsv := bitsOf 23 21 w0 + bitsOf 26 24 w1 + stray }

/-- The symbols that an image defines. -/
def symbolsOf (pr : Program) : List Symbol := pr.symbolTable.map symbolOf

/-- The window positions used on a branch (R22, R236). -/
def positionsUsed (pr : Program) (b : Nat) : List Nat :=
  pr.bindings.filterMap fun x =>
    if bitsOf 31 30 x.2.toNat = 1 ∧ bitsOf 25 25 x.2.toNat = b then some (bitsOf 24 16 x.2.toNat) else none

/-- NWIN of a branch is the number of its controllers, at most 512 since a position has nine bits (R24, R236). -/
def branchControllers (pr : Program) (b : Nat) : Nat := (positionsUsed pr b).eraseDups.length

end Sys2Proof.Machine
end

