-- ==== Sys2Proof/Machine/Journal.lean ====
section
/-! DEFINITION. The journal (R324 to R326) and the completion of a request's response entry (R318 to R320). -/

namespace Sys2Proof.Machine

namespace State

/-- Put an entry into queue `q` unless it is full; service streams lose what finds no place. -/
def pushIfRoom (s : State) (q : Nat) (b : EntryBody) : State :=
  if s.used q < (queueShape q).1 then s.push q true b else s

/-- Write a journal entry (R324): it gets the next JIX, the oldest of 65,536 gives way, and it enters Q48 (R325). -/
def journalAdd (s : State) (e : JEntry) : State :=
  let e := { e with jix := s.nv.jix + 1 }
  let j := s.nv.journal ++ [e]
  let s : State := { s with nv := { s.nv with
    jix := e.jix, journal := j.drop (j.length - 65536), wrapped := s.nv.wrapped || decide (65536 < j.length) } }
  s.pushIfRoom 48 (.journal e)

/-- The journal entry of a request number, newest first. -/
def journalOf (s : State) (num : Word) : Option JEntry :=
  s.nv.journal.reverse.find? (fun e => e.reqnum = num && !e.gap)

/-- Complete the journal entry of a request (R325); the rewritten entry enters Q48. -/
def journalDone (s : State) (num : Word) (status ive : Byte) (result : Nat) : State :=
  match s.journalOf num with
  | none => s
  | some e =>
    if e.complete then s else
    let e' := { e with complete := true, status := status, ive := ive, result := result, rcyc := s.vcyc, done := s.now }
    let s := { s with nv := { s.nv with journal := s.nv.journal.map fun (x : JEntry) => if x.jix = e.jix then e' else x } }
    s.pushIfRoom 48 (.journal e')

/-- The image that took a request (R324, IMGRC). -/
def journalImage (s : State) (num rc : Word) : State :=
  { s with nv := { s.nv with journal := s.nv.journal.map fun (x : JEntry) =>
      if x.reqnum = num ∧ ¬ x.gap then { x with imgRc := rc } else x } }

/-- An entry of queue `q` is the PENDING response to request `num`. -/
def pendingFor (num : Word) (e : QEntry) : Bool := match e.body with
  | .resp r => r.reqnum = num && !e.ready
  | _ => false

/-- The response entry of request `num` is still PENDING. -/
def awaits (s : State) (session : Nat) (num : Word) : Bool :=
  (s.queue (2 * session + 1)).entries.any (pendingFor num)

/-- The outcome of a journalled request is still to come: its response entry is PENDING here, or the entry was written from an ORDER record
and this unit's own decision will complete it (R318, R325). -/
def undecided (s : State) (e : JEntry) : Bool := s.awaits e.session e.reqnum || (e.order && !e.complete)

/-- The response entry of a request becomes READY (R318): the journal entry is completed, and NOTIFY may follow. -/
def respond (s : State) (session : Nat) (num : Word) (status ive : Byte) (result : Nat) : State :=
  let q := 2 * session + 1
  let x := s.queue q
  let s := s.journalDone num status ive result
  match x.entries.find? (pendingFor num) with
  | none => s
  | some e =>
    let body : EntryBody := match e.body with
      | .resp r => .resp { r with status := status, ive := ive, result := w32 (result % 65536), cycle := s.vcyc, readyTime := s.now }
      | b => b
    (s.setQueue q { x with entries := x.entries.map fun y => if y.seq = e.seq then { y with ready := true, body := body } else y }).notify q

/-- The session whose event ring an IVE refusal with a request number enters (R318): the request has its outcome. -/
def lateSession (s : State) (num : Word) : Option Nat :=
  match s.journalOf num with
  | none => none
  | some e => if num = 0 ∨ s.undecided e then none else some e.session

/-- R318: the record of an IVE refusal; one that comes after its request's response entry is READY goes to the session's event ring. -/
def refusalRecord (s : State) (object kind code : Nat) (num : Word) : State :=
  let dest := if kind = 3 ∨ kind = 4 then s.lateSession num else none
  let t := s.raiseRecTo 0x0201 Page.IVE (w32 object) [w32 kind, w32 code, num] dest
  match dest with
  | some i => t.offer i 0x0201 Page.IVE (w32 object) ⟨2, 1, BitVec.ofNat 8 code, num, 1, 0, s.vcyc, s.now, []⟩ (s.seqOf t)
  | none => t

/-- R318: an HRES token for a request whose response entry is READY goes to the session's event ring. -/
def lateResult (s : State) (num : Word) (result : Nat) : State :=
  match s.journalOf num with
  | none => s
  | some e =>
    s.offer e.session result Page.TASK num ⟨3, 1, 0, num, 1, w32 result, s.vcyc, s.now, []⟩ none

end State

end Sys2Proof.Machine
end

