-- ==== Sys2Proof/Machine/TwinFrame.lean ====
section
/-! DEFINITION. Frames of the twin link as bytes (R281, R282, R284, R287): type and control codes, payloads, their split into parts, and the
seal. Where the spec gives the contents of a payload but not their places, the layout is the model's choice (DESIGN CHOICE, log entry 77). -/

namespace Sys2Proof

open Sys2Proof.Machine

/-- The bytes of an address, behind its family. -/
def IpAddr.bytes : IpAddr → List Byte
  | .v4 a => 4 :: wordBytes a
  | .v6 a => 6 :: leBytes 16 a.toNat

/-- Word `w` of a request record (R317). -/
def ReqRec.word (r : ReqRec) (w : Nat) : Word := match w with
  | 0 => r.params.getD 0 0
  | 1 => r.num
  | 2 => w32 (r.session * 2 ^ 28)
  | 3 => w32 (r.kind.toNat * 2 ^ 24 + r.params.length * 2 ^ 16)
  | 4 => w32 r.stamp
  | 5 => w32 (r.stamp / 2 ^ 32)
  | k => r.params.getD (k - 5) 0

namespace TwinBody

/-- The frame type of a body (R282). -/
def typeCode : TwinBody → Nat
  | .sync .. => 0x01
  | .probe _ => 0x02
  | .echo .. => 0x03
  | .image _ => 0x05
  | .order _ => 0x06
  | .fwd _ => 0x07
  | .status .. => 0x08
  | .bdig .. => 0x09
  | .block .. => 0x0A
  | .pad => 0x0B
  | _ => 0x04

/-- The payload of a CTRL frame (R284): the code, three reserved bytes, and a word for every parameter. -/
def ctrl (code : Nat) (params : List Word) : List Byte := [BitVec.ofNat 8 code, 0, 0, 0] ++ wordsBytes params

/-- A request record as an image carries it: the 12 words of R317. -/
def recordBytes (r : ReqRec) : List Byte := wordsBytes ((List.range 12).map r.word)

/-- The entry of one controller: STATUS, CNT, and the age with LOST (R287). -/
def entryBytes (e : CtrlEntry) : List Byte :=
  leBytes 8 e.status.toNat ++ [e.cnt, BitVec.ofNat 8 (e.age % 8 + 128 * b2n e.lost)]

/-- What follows the header of an image payload (R287). -/
def imageBody (img : Image) : List Byte :=
  wordsBytes [img.localIn, img.localLost, img.sfb, 0] ++ img.entries.flatMap entryBytes ++
    img.reqs.flatMap recordBytes

/-- The image seal (R34): a CRC-32C over the ring cycle number of the close point and the body. -/
def imageSeal (img : Image) : Word := crc32c (wordBytes img.rc ++ imageBody img)

/-- The contents of an ORDER record (R288). -/
def orderBytes (o : OrderRec) : List Byte :=
  wordsBytes [o.num, w32 o.session, o.sseq, w32 o.stamp, w32 (o.stamp / 2 ^ 32), o.kind.setWidth 32, o.sepoch, o.imgRc, o.claim, o.serial,
    w32 o.params.length] ++ wordsBytes o.params ++ o.digest ++ leBytes 8 o.mac.toNat

/-- An envelope as it was received. -/
def envBytes (e : Envelope) : List Byte :=
  [e.ever, e.keyid] ++ leBytes 2 e.rsv.toNat ++ wordBytes e.sender ++ leBytes 8 e.tsend.toNat ++ wordBytes e.ackseq ++ wordBytes e.rsv20 ++
    leBytes 8 e.mac.toNat

/-- A forwarded request: the message as it was received, and its stamp once it has one (R288, R299). -/
def requestBytes (m : OhpMsg) (r : HostReq) (stamp : Option Nat) : List Byte :=
  [BitVec.ofNat 8 m.port.val, m.ver, m.session, m.flags, m.status, m.unit] ++ m.src.bytes ++ leBytes 2 m.srcPort.toNat ++
    leBytes 2 m.magic.toNat ++ leBytes 2 m.len.toNat ++ leBytes 2 m.detail.toNat ++ wordsBytes [m.sseq, m.sepoch, m.tag, m.rsv] ++
    (match r with
      | .opening n => 1 :: leBytes 8 n.toNat
      | .closing => [2]
      | .request k ps => 3 :: k :: wordsBytes ps) ++
    (match m.env with
      | some e => envBytes e
      | none => []) ++ m.tail ++
    (match stamp with
      | some t => 1 :: leBytes 8 t
      | none => [0])

/-- A forwarded response. -/
def responseBytes (o : OhpOut) : List Byte :=
  [BitVec.ofNat 8 o.port.val, o.type, BitVec.ofNat 8 o.session, o.status, o.unit] ++ o.dst.bytes ++ leBytes 2 o.dstPort.toNat ++
    leBytes 2 o.detail.toNat ++ wordsBytes [o.sseq, o.sepoch, o.tag] ++ o.payload ++
    (match o.env with
      | some e => envBytes e
      | none => [])

/-- News of a session (R310). -/
def newsBytes (n : SessNews) : List Byte :=
  [BitVec.ofNat 8 n.session, BitVec.ofNat 8 (b2n n.isOpen), BitVec.ofNat 8 n.key] ++ wordsBytes [n.sepoch, n.txSeq] ++
    (match n.nonce with
      | some x => 1 :: leBytes 8 x.toNat
      | none => [0]) ++
    (match n.taken with
      | some (q, mac, o) => 1 :: wordBytes q ++ leBytes 8 mac.toNat ++ (o.map responseBytes).getD []
      | none => [0])

/-- The whole payload of a body (R282, R284, R287). -/
def payload : TwinBody → List Byte
  | .sync n offset time rc => wordBytes n ++ wordBytes offset ++ leBytes 8 time ++ wordBytes rc
  | .probe n => wordBytes n
  | .echo n t => wordBytes n ++ wordBytes t
  | .readyStart letter id1 compat => ctrl 0x01 [w32 letter, w32 id1, w32 compat]
  | .xferReq a b => ctrl 0x02 [a, b]
  | .xferAccept c => ctrl 0x03 [c]
  | .xferRefuse c => ctrl 0x04 [w32 c]
  | .xferNeed c bs => ctrl 0x05 ([c, w32 bs.length] ++ bs.map w32)
  | .xarm x b => ctrl 0x10 [x, b]
  | .xready b => ctrl 0x11 [b]
  | .xgo x => ctrl 0x12 [x]
  | .xabort x c => ctrl 0x13 [x, w32 c]
  | .swapArm c e => ctrl 0x20 [c, w32 e]
  | .swapAck c => ctrl 0x21 [c]
  | .swapGo c => ctrl 0x22 [c]
  | .swapAbort c k => ctrl 0x23 [c, w32 k]
  | .sched c k => ctrl 0x30 [c, w32 k]
  | .image img => wordsBytes [img.rc, imageSeal img, w32 img.entries.length, w32 img.reqs.length] ++ imageBody img
  | .order o => orderBytes o
  | .fwd (.request m r t) => [1] ++ requestBytes m r t
  | .fwd (.response o) => [2] ++ responseBytes o
  | .fwd (.session n) => [3] ++ newsBytes n
  | .fwd (.decided num code) => [4, 0, 0, 0] ++ wordsBytes [num, w32 code]
  | .status n claim st fl dig sdig =>
    wordBytes n ++ wordBytes claim ++ [BitVec.ofNat 8 st, BitVec.ofNat 8 fl, 0, 0] ++ leBytes 8 dig.toNat ++ leBytes 8 sdig.toNat
  | .bdig n ds => wordBytes n ++ ds.flatMap fun d => leBytes 8 d.toNat
  | .block b c ws => leBytes 2 b ++ [0, 0] ++ wordBytes c ++ wordsBytes ws
  | .pad => []

/-- The frames that a body takes: one for every 4,104 bytes of payload or part of them. -/
def parts (b : TwinBody) : Nat := match b with
  | .image _ | .bdig .. => Nat.max 1 ((b.payload.length + 4103) / 4104)
  | _ => 1

/-- The payload of one of the frames of a body. -/
def part (b : TwinBody) (k : Nat) : List Byte := (b.payload.drop (4104 * k)).take 4104

/-- No field of the payload holds a value that is reserved (R282, R284). -/
def fieldsOk : TwinBody → Bool
  | .readyStart letter id1 _ => letter ≤ 1 && id1 ≤ 1
  | .xferRefuse c => 1 ≤ c && c ≤ 6
  | .xferNeed _ bs => bs.length ≤ 12 && bs.all fun b => b < 1024 || (0x8000 ≤ b && b < 0x8020)
  | .swapArm _ e => e < 2 ^ 24
  | .status _ _ st fl .. => 1 ≤ st && st ≤ 10 && fl < 128
  | .bdig _ ds => ds.length = 1056
  | .block b _ ws => (b < 1024 || (0x8000 ≤ b && b < 0x8020)) && ws.length = 1024
  | _ => true

end TwinBody

namespace TwinHdr

/-- DIR: the letter of the sender (R281). -/
def dir (h : TwinHdr) : Nat := h.flags.toNat % 2

/-- Bytes 1 to 12 of a frame. -/
def bytes (h : TwinHdr) : List Byte :=
  [h.type, h.flags] ++ leBytes 2 h.len.toNat ++ wordBytes h.seq ++ wordBytes h.vcyc

/-- The seal of a frame with this payload (R281). -/
def sealOf (h : TwinHdr) (payload : List Byte) : Word :=
  crc32c (wordBytes (w32 (0x54570000 + h.dir)) ++ wordBytes h.serial ++ h.bytes ++ payload)

/-- The frame is valid with this body's frame `k` as its payload (R281). -/
def ok (h : TwinHdr) (b : TwinBody) (k : Nat) : Bool :=
  h.codeOk && h.type.toNat = b.typeCode && h.flags.toNat < 2 && h.len.toNat = (b.part k).length && b.fieldsOk && k < b.parts &&
    h.check = h.sealOf (b.part k)

/-- The frame that a sender of a letter and a serial forms around a payload (R281). -/
def form (letter : Nat) (seq vcyc serial : Word) (b : TwinBody) (k : Nat) : TwinHdr :=
  let h : TwinHdr := ⟨BitVec.ofNat 8 b.typeCode, BitVec.ofNat 8 (letter % 2), BitVec.ofNat 16 (b.part k).length, seq, vcyc, serial, 0, true⟩
  { h with check := h.sealOf (b.part k) }

end TwinHdr

end Sys2Proof
end

