-- ==== Sys2Proof/Machine/UnitOps.lean ====
section
/-! DEFINITION. What a unit is in its installation, and what it hands to the transmitter of the twin link (R9, R274, R281, R282, R297). -/

namespace Sys2Proof.Machine

namespace State

/-- Strap ID1 (R9): a twin installation. -/
def isTwin (s : State) : Bool := s.flag Fld.TWIN_STAT_TWIN

/-- The unit's letter (R9, R305): 0 P or single, 1 Q. -/
def letter (s : State) : Nat := if s.isTwin then s.fld Fld.TWIN_STAT_LETTER else 0

/-- The twin link is up (R283). -/
def linkUp (s : State) : Bool := s.flag Fld.TWIN_STAT_LINK

/-- The role (R274), as `TWIN_STAT.ROLE` codes it: 0 OUT, 1 JOINING, 2 UNSYNCED, 3 STANDBY, 4 ACTIVE. -/
def role (s : State) : Nat := s.fld Fld.TWIN_STAT_ROLE

/-- The unit orders vital host requests and closes the image for both units. -/
def isActive (s : State) : Bool := s.role = 4

/-- The operating state (R387), as `SYS_STAT.STATE` shows it; 0 is OFF. -/
def opState (s : State) : Nat := if s.boot.off then 0 else s.fld Fld.SYS_STAT_STATE

/-- The claim number (R275). -/
def claim (s : State) : Nat := (s.reg Reg.TWIN_CLAIM).toNat

/-- The rank of a role (R274). -/
def roleRank (r : Nat) : Nat := if r = 4 then 2 else if r = 3 then 1 else 0

/-- Hand a body to the transmitter of the twin link, a frame for each of its parts; in a single installation the port is silent (R281). -/
def twinSend (s : State) (b : TwinBody) : State :=
  if s.isTwin then { s with twin := { s.twin with txq := s.twin.txq ++ (List.range b.parts).map fun k => (b, k) } } else s

/-- A record that only mirrors what the unit orders or schedules goes out while the link is up (R297). -/
def mirror (s : State) (b : TwinBody) : State := if s.linkUp then s.twinSend b else s

end State

end Sys2Proof.Machine
end

