-- ==== Sys2Proof/Machine/SessionOps.lean ====
section
/-! DEFINITION. Opening and closing sessions (R310, R322) and the request numbers that a unit may give (R315). -/

namespace Sys2Proof.Machine

namespace State

/-- Record whether session `i` is open. -/
def showOpen (s : State) (i : Nat) (b : Bool) : State :=
  (s.setFld (Fld.SESS_STATEs_OPEN i) (b2n b)).setFld ⟨Reg.SESS_STAT, i, i⟩ (b2n b)

/-- Session state is one for the installation (R310): the partner of the active unit learns what has become of session `i`. The spec does
not say how; a FWD frame carries it (DESIGN CHOICE, log entry 40). -/
def shareSession (s : State) (i : Nat) (taken : Option Accepted) (nonce : Option (BitVec 64)) : State :=
  if ¬ s.isActive then s else
  s.mirror (.fwd (.session ⟨i, s.isOpen i, s.reg (Reg.SESS_EPOCHs i), s.fld (Fld.SESS_STATEs_KEY i), (s.session i).txSeq,
    taken.map fun a => (a.sseq, a.mac, a.reply), nonce⟩))

/-- Session `i` closes (R310): its queues stay (R322). -/
def closeSess (s : State) (i : Nat) : State :=
  if ¬ s.isOpen i then s else
  let s := (s.showOpen i false).setSession i { s.session i with closedAt := some s.now }
  ((s.raiseRec 0x0701 Page.SESS (w32 i) [0, s.reg (Reg.SESS_EPOCHs i)]).raiseEvt Page.SESS Evt.SESS_CLOSED).shareSession i none none

/-- R309: a SESSION_CLASS record for every session of class 2 that the table of the active image gives beyond the fourth. -/
def noteClasses (s : State) : State := (List.range 16).foldl (fun (s : State) i =>
  if s.fld (Fld.SESS_CFGs_CLASS i) = 2 ∧ s.classOf i = 1 then s.raiseRec 0x0704 Page.SESS (w32 i) [2, 1] else s) s

/-- Every session closes. -/
def closeAll (s : State) : State := (List.range 16).foldl (fun s i => s.closeSess i) s

/-- Session `i` opens under epoch `e` (R310): the acceptance window is cleared, and both directions restart at SSEQ 1. -/
def openSess (s : State) (i : Nat) (e : Word) : State :=
  let s := ((s.showOpen i true).setReg (Reg.SESS_EPOCHs i) e).setReg (Reg.SESS_SEQs i) 0
  let x := { s.session i with accepted := [], lastSseq := 0, txSeq := 0, lastHeard := s.now, closedAt := none }
  let s := s.setSession i x
  let s : State := { s with nv := { s.nv with epochs := Store.set (fun _ => 0) s.nv.epochs i e } }
  (s.raiseRec 0x0701 Page.SESS (w32 i) [1, e]).raiseEvt Page.SESS Evt.SESS_OPENED

/-! ### Request numbers (R315) -/

/-- The block of a request number. -/
def numBlock (n : Word) : Nat := n.toNat / 2 ^ 20

/-- The highest request number that the unit knows: given or mirrored since reset, else that of its newest journal entry. -/
def highestNum (s : State) : Word :=
  if s.reg Reg.SESS_REQNUM ≠ 0 then s.reg Reg.SESS_REQNUM
  else match s.nv.journal.reverse.find? (fun (e : JEntry) => !e.gap) with
    | some e => e.reqnum
    | none => 0

/-- The number that the unit would give next; it is never 0. -/
def nextNum (s : State) : Word := s.hosts.numBase.getD (if s.highestNum = 0xFFFFFFFF then 1 else s.highestNum + 1)

/-- Numbering has come to its limit: the next number is not to be given until the link returns. -/
def numHalted (s : State) : Bool := match s.hosts.numLimit with
  | some l => later s.nextNum l
  | none => false

/-- Show whether numbering is halted. -/
def showHalt (s : State) : State := s.setFld Fld.SESS_STAT_HALT (b2n s.numHalted)

/-- A unit that takes ACTIVE otherwise than by swap or from STANDBY with the link up goes on three blocks further. -/
def jumpNums (s : State) : State :=
  { s with hosts := { s.hosts with numBase := some (w32 ((numBlock s.highestNum + 3) % 4096 * 2 ^ 20 + 1)) } }

/-- An ACTIVE unit whose link goes down gives numbers up to the end of the next block but one, less one. -/
def limitNums (s : State) : State :=
  ({ s with hosts := { s.hosts with numLimit := some (w32 ((numBlock s.highestNum + 2) % 4096 * 2 ^ 20) - 1) } } : State).showHalt

/-- The link returns: numbering goes on. -/
def freeNums (s : State) : State := ({ s with hosts := { s.hosts with numLimit := none } } : State).showHalt

/-- What taking the role ACTIVE does to sessions and numbers; no limit of an earlier time in the role holds. `cont` when it is by swap or
from STANDBY with the link up, `down` when the link was down at any time in the last 100 vital cycles. -/
def activeHosts (s : State) (cont down : Bool) : State :=
  let s : State := s.freeNums
  let s : State := if cont then { s with hosts := { s.hosts with numBase := none } } else s.jumpNums
  if down then s.closeAll else s

end State

end Sys2Proof.Machine
end

