-- ==== Sys2Proof/Machine/SlotOps.lean ====
section
/-! DEFINITION. The image slots (R414 to R419): firmware slots 0 and 1, program slots 2 and 3, as `UPD_SLOTk` numbers them. -/

namespace Sys2Proof.Machine

/-- A slot that holds no image. -/
def emptySlot : SlotRec := ⟨false, false, false, 0, 0, 0, 0, 0, 0, 0, 0, none, false⟩

namespace State

/-- Slot `k`. -/
def slot (s : State) (k : Nat) : SlotRec := Store.get (fun _ => emptySlot) s.nv.slots k

/-- Replace slot `k`. -/
def setSlot (s : State) (k : Nat) (x : SlotRec) : State :=
  { s with nv := { s.nv with slots := Store.set (fun _ => emptySlot) s.nv.slots k x } }

/-- The other slot of the same kind. -/
def otherSlot (k : Nat) : Nat := if k % 2 = 0 then k + 1 else k - 1

/-- The active slot of firmware (0) or program (2). -/
def activeSlot (s : State) (base : Nat) : Option Nat := [base, base + 1].find? fun k => (s.slot k).valid && (s.slot k).active

/-- Slot `k` becomes the active slot of its kind. -/
def activate (s : State) (k : Nat) : State :=
  let s := s.setSlot k { s.slot k with active := true, trial := false, strikes := 0 }
  s.setSlot (otherSlot k) { s.slot (otherSlot k) with active := false }

/-- The security version floor of a slot's kind rises to its image's (R416). -/
def raiseFloor (s : State) (k : Nat) : State :=
  let v := (s.slot k).svn
  if k < 2 then { s with nv := { s.nv with svnFw := Nat.max s.nv.svnFw v } }
  else { s with nv := { s.nv with svnPg := Nat.max s.nv.svnPg v } }

/-- A slot on trial. -/
def trialSlot (s : State) : Option Nat := [0, 1].find? fun k => (s.slot k).valid && (s.slot k).trial

/-- Enter a phase of the activation, which is recorded. -/
def actPhase (s : State) (k ph : Nat) : State :=
  let s := (s.setFld Fld.UPD_ACT_PHASE ph).setFld Fld.UPD_ACT_SLOT k
  (s.raiseRec 0x0804 Page.UPD (w32 k) [w32 ph, (s.slot k).build]).raiseEvt Page.UPD Evt.UPD_ACTPHASE

/-- No activation is scheduled any more. -/
def endActivation (s : State) (ph : Nat) : State := match s.upd.sched with
  | none => s
  | some a => ({ s with upd := { s.upd with sched := none } } : State).actPhase a.slot ph

/-- The slot on trial is confirmed (R419). An activation whose last restart this was has ended. -/
def confirmTrial (s : State) : State := match s.trialSlot with
  | some k =>
    let s := ((s.activate k).raiseFloor k).raiseRec 0x0804 Page.UPD (w32 k) [s.reg Reg.UPD_ACT, (s.slot k).build]
    if s.nv.actEnd = some k then ({ s with nv := { s.nv with actEnd := none } } : State).actPhase k 5 else s
  | none => s

end State

end Sys2Proof.Machine
end

