-- ==== Sys2Proof/Machine/TwinRole.lean ====
section
/-! DEFINITION. Roles, claims and epochs of a unit (R274 to R276). -/

namespace Sys2Proof.Machine

namespace State

/-- Ring cycles of a vital cycle (R25). -/
def ringsPerCycle (s : State) : Nat := if s.fld Fld.PROG_CYCLE_K = 0 then 1 else s.fld Fld.PROG_CYCLE_K

/-- The length of the present vital cycle, in ticks: Tv, steered under R285. -/
def cycleTicks (s : State) : Nat := ((s.tvMs * 25000 : Int) + s.cyc.steer).toNat

/-- Hold a role with a claim (R274, R275), for a cause of `TWIN_ROLECHG`. The roles STANDBY and ACTIVE confirm a firmware slot on
trial (R419). -/
def setRole (s : State) (r epoch cause : Nat) : State :=
  let old := s.role
  let s := if r = 3 ∨ r = 4 then s.confirmTrial else s
  let s := (s.setReg Reg.TWIN_CLAIM (w32 (roleRank r * 2 ^ 24 + epoch % 2 ^ 24))).setFld Fld.TWIN_STAT_ROLE r
  let s := s.setFld Fld.TWIN_STAT_SYNCED (b2n (r = 3 ∨ r = 4))
  let s : State := { s with twin := { s.twin with swapGo := false } }
  let s := if r = 4 then s else s.setFld Fld.TWIN_STAT_RESTRICT 0
  let s := (s.setReg Reg.TWIN_ROLECHG (w32 (2 ^ 31 + cause * 2 ^ 24 + old * 2 ^ 20 + r * 2 ^ 16))).setReg Reg.TWIN_ROLECYC s.vcyc
  (s.raiseRec 0x0601 Page.TWIN 0 [s.reg Reg.TWIN_ROLECHG, s.reg Reg.TWIN_CLAIM]).raiseEvt Page.TWIN Evt.TWIN_ROLE

/-- The greatest epoch the unit knows (R276). -/
def knownEpoch (s : State) : Nat := Nat.max s.nv.epoch s.twin.knownEpoch

/-- A claim that the unit has seen (R276). -/
def noteClaim (s : State) (c : Nat) : State :=
  { s with twin := { s.twin with knownEpoch := Nat.max s.twin.knownEpoch (c % 2 ^ 24) } }

/-- The epoch a unit takes with the role ACTIVE (R276): the smallest above all it knows with its letter's parity, if there is
one. -/
def nextEpoch (known letter : Nat) : Option Nat :=
  if 0xFFFFFE ≤ known then none
  else some (if (known + 1) % 2 = letter % 2 then known + 1 else known + 2)

/-- Store an epoch in MRAM; the high-water mark never decreases (R276). -/
def storeEpoch (s : State) (e : Nat) : State :=
  { s with nv := { s.nv with epoch := Nat.max s.nv.epoch e } }

/-- The link of a twin unit was down at any time in the preceding 100 vital cycles (R310). -/
def linkWasDown (s : State) : Bool :=
  s.isTwin && (!s.linkUp || (match s.twin.lastDown with
    | some n => (s.vcyc - n).toNat ≤ 100
    | none => false))

/-- Take the role ACTIVE with epoch `e`: it is stored first (R276), and sessions and request numbers follow (R310, R315). -/
def enterActive (s : State) (e cause : Nat) : State :=
  let cont := cause = 6 || (s.role = 3 && s.linkUp)
  ((s.storeEpoch e).setRole 4 e cause).activeHosts cont s.linkWasDown

/-- Take the role ACTIVE with a new epoch, or stay where the epoch is exhausted (R276). The flag says which. -/
def takeActive (s : State) (cause : Nat) : State × Bool :=
  match nextEpoch s.knownEpoch s.letter with
  | some e => (s.enterActive e cause, true)
  | none => ((s.raiseRec 0x0604 Page.TWIN 0 [w32 s.nv.epoch]).raiseEvt Page.TWIN Evt.TWIN_REFUSED, false)

/-- A state transfer ends (R293): cause 0 is success. -/
def endXfer (s : State) (cause : Nat) : State :=
  let t := s.twin
  let ms := Nat.min ((s.now - t.xferStart) / 1000000) 65535
  let s := s.setReg Reg.TWIN_XFERLAST (w32 (2 ^ 31 + b2n (cause = 0) * 2 ^ 30 + cause * 2 ^ 26 + ms))
  let s := (s.setReg Reg.TWIN_XFER 0).raiseEvt Page.TWIN Evt.TWIN_XFER
  let retry := if cause = 0 ∨ s.flag Fld.TWIN_XFER_DONOR then none else some s.now
  { s.raiseRec 0x0605 Page.TWIN 0 [s.reg Reg.TWIN_XFERLAST] with
      twin := { t with xferBlocks := [], xferNeed := [], xferLatch := [], xferRetry := retry, matches_ := 0 } }

/-- A transfer is in progress. -/
def xferring (s : State) : Bool := s.fld Fld.TWIN_XFER_PHASE != 0

/-- START is blocked by a condition of R393, which is shown and recorded. -/
def startBlock (s : State) (c : Nat) : State :=
  if s.fld Fld.SYS_START_BLOCK = c then s
  else ((s.setFld Fld.SYS_START_BLOCK c).recordUnlisted Page.SYS 3 (w32 c) []).raiseEvt Page.SYS Evt.SYS_BLOCKED

/-- What a change of the kernel's state does to the vital outputs: on entry to RUN no element or channel has a committed token (R208);
outside RUN pump, VRD and group switch carry no energy (R206, R387). -/
def outputsTo (s : State) (old st : Nat) : State :=
  let was := old = 5 ∨ old = 6
  let is := st = 5 ∨ st = 6
  if is ∧ ¬ was then { s with com := { s.com with committed := [], applied := [] } }
  else if was ∧ (st = 4 ∨ st = 2) then
    (((s.setFld Fld.OUT_STAT_PUMP 0).setFld Fld.OUT_STAT_VRD 0).setFld Fld.OUT_STAT_GROUP 0).setFld Fld.OUT_STAT_MODE 0
  else s

/-- Pass to an operating state (R387); `POWER_STATE` is recorded (R363) and `SYS_EVT.STATE` is set.  Outside SYNC and the RUN
states a unit's role is OUT, with rank 0 and its last epoch (R274, R275). -/
def toState (s : State) (st : Nat) : State :=
  let old := s.opState
  if old = st then s else
  let s := ((s.setFld Fld.SYS_STAT_STATE st).raiseRec 0x0801 Page.SYS (w32 st) [w32 old]).raiseEvt Page.SYS Evt.SYS_STATE
  let s := (if old = 2 then s.setFld Fld.SYS_START_BLOCK 0 else s).outputsTo old st
  if st = 4 ∨ st = 5 ∨ st = 6 then s else
  let s := if ¬ s.xferring then s else if s.role = 1 then s.endXfer 6 else s.setReg Reg.TWIN_XFER 0
  if s.role = 0 then s else s.setRole 0 (s.claim % 2 ^ 24) 0

end State

end Sys2Proof.Machine
end

