-- ==== Sys2Proof/Machine/Kernel.lean ====
section
/-! DEFINITION. The kernel's state machine where a fault drives it: entry into SAFE and SAFE_LOCKOUT (R216 to R219), the
kernel fault of the pod and the voters (R88), of the IVE (R167), and the timebase fault (R66). -/

namespace Sys2Proof.Machine

/-- 86,400 s in nanoseconds (R89, R218). -/
def dayNs : Nat := 86400 * 1000000000

namespace State

/-- The kernel votes and may energise outputs (R387). -/
def isRun (s : State) : Bool := s.opState = 5 || s.opState = 6

/-- The entries into SAFE that the sliding window of R218 still holds. -/
def safeWindow (s : State) : List Nat := s.nv.safeTimes.filter (fun t => s.now < t + dayNs)

/-- R218: whether a cause gives SAFE_LOCKOUT; `locking` marks cause 6 from a function with RESTART = 0. -/
def givesLockout (cause : Nat) (locking : Bool) (entries : Nat) : Bool :=
  cause = 7 || cause = 8 || (cause = 6 && locking) || 3 ≤ entries

/-- The kernel stops: no vital cycle is released and the heartbeats make no further transition (R216, R87). -/
def stopKernel (s : State) : State :=
  { s with pod := { s.pod with kfault := true }, cyc := { s.cyc with running := false } }

/-- Put the module into SAFE_LOCKOUT and write the lock-out record (R218, R219). -/
def lockOut (s : State) (cause detail : Nat) : State :=
  let s := (s.setFld Fld.OUT_SAFE_LOCKOUT 1).setFld Fld.OUT_STAT_MODE 3
  let s := { s with nv := { s.nv with lockout := some ⟨cause, detail, s.vcyc⟩ } }
  (s.toState 8).raiseEvt Page.OUT Evt.OUT_LOCKOUT

/-- A cause that arises in the tick in which SAFE was left waits until START has begun (R222). -/
def causeAfterLeave (s : State) (cause detail : Nat) (locking : Bool) : State :=
  if s.boot.leftAt ≠ some s.ticks ∨ s.boot.again.isSome then s
  else { s with boot := { s.boot with again := some (cause, detail, locking) } }

/-- A SAFE cause of R217 with its detail. In START, SYNC and the RUN states it is an entry into the form that R218 gives; in
SAFE and SAFE_LOCKOUT it is recorded, and may turn SAFE into SAFE_LOCKOUT; elsewhere the outputs have no energy and nothing
follows, but that a cause of the tick in which SAFE was left waits. After a declared supply loss no entry is made (R437). -/
def enterSafe (s : State) (cause detail : Nat) (locking : Bool) : State :=
  let st := s.opState
  if st = 0 then s.causeAfterLeave cause detail locking else
  if s.boot.holdup.isSome then s else
  let s : State := { s with boot := { s.boot with lastCause := some (s.ticks, cause, detail, locking) } }
  if st = 7 ∨ st = 8 then
    let s := s.raiseRec 0x0301 Page.OUT (w32 cause) [s.reg Reg.OUT_SAFE]
    if st = 7 ∧ givesLockout cause locking 0 then s.lockOut cause detail else s
  else if st = 2 ∨ st = 4 ∨ st = 5 ∨ st = 6 then
    let times := s.now :: s.safeWindow
    let lock := givesLockout cause locking times.length
    let total := Nat.min (s.nv.safeTotal + 1) 65535
    let s := { s.stopKernel with nv := { s.nv with safeTimes := times, safeTotal := total },
                                  boot := { s.boot with safeAt := s.ticks } }
    let s := s.setReg Reg.OUT_SAFE (w32 (2 ^ 31 + cause * 2 ^ 24 + detail % 65536))
    let s := s.setReg Reg.OUT_SAFECYC s.vcyc
    let s := (s.setFld Fld.OUT_SAFECNT_WIN (Nat.min times.length 3)).setFld Fld.OUT_SAFECNT_TOTAL total
    let s := (s.setFld Fld.OUT_STAT_MODE 2).raiseEvt Page.OUT Evt.OUT_SAFE
    let s := if lock then s.lockOut cause detail else s.toState 7
    s.raiseRec 0x0301 Page.OUT (w32 cause) [s.reg Reg.OUT_SAFE]
  else s

/-- R88: a kernel fault of the pod or the voters with its cause code and voter. `VOTE_KFAULT` keeps the first. -/
def kernelFault (s : State) (cause voter : Nat) : State :=
  let s := if s.flag Fld.VOTE_KFAULT_VALID then s
    else s.setReg Reg.VOTE_KFAULT (w32 (2 ^ 31 + cause * 2 ^ 24 + voter * 2 ^ 16))
  let s := (s.raiseRec 0x0101 Page.VOTE 1 [s.reg Reg.VOTE_KFAULT]).raiseEvt Page.POD Evt.POD_KFAULT
  s.enterSafe 1 0 false

/-- R167: an IVE kernel fault with its cause code and half. `IVE_KFAULT` keeps the first. -/
def iveFault (s : State) (cause half : Nat) : State :=
  let s := if s.flag Fld.IVE_KFAULT_VALID then s
    else s.setReg Reg.IVE_KFAULT (w32 (2 ^ 31 + cause * 2 ^ 24 + half * 2 ^ 16))
  let s := s.setFld Fld.IVE_STAT_KFAULT 1
  let s := if half = 1 ∨ half = 3 then s.setFld Fld.IVE_STAT_H1_OK 0 else s
  let s := if half = 2 ∨ half = 3 then s.setFld Fld.IVE_STAT_H2_OK 0 else s
  let s := (s.raiseRec 0x0101 Page.IVE 2 [s.reg Reg.IVE_KFAULT]).raiseEvt Page.IVE Evt.IVE_KFAULT
  s.enterSafe 2 0 false

/-- R66: a timebase fault. -/
def timebaseFault (s : State) : State :=
  let s := s.setFld Fld.TIME_TBCHK_FAULT 1
  (s.raiseRec 0x0104 Page.TIME 0 [s.reg Reg.TIME_TBCHK]).enterSafe 4 0 false

end State

end Sys2Proof.Machine
end

