-- ==== Sys2Proof/Machine/PeaMem.lean ====
section
/-! DEFINITION. The memories of a pea: encoded diversity and canonical form (R52, R53), the error-correcting code (R48), the
incremental digests (R91), and the store unit's and the image port's writes. -/

namespace Sys2Proof.Machine

/-! ### Encodings (R52) -/

/-- `rotl_n(w, k)` over `n`-bit addresses. -/
def rotl (n k w : Nat) : Nat := (w * 2 ^ k) % 2 ^ n + w % 2 ^ n / 2 ^ (n - k)

/-- The number of address bits of a memory (R44). -/
def memBits : MemKind → Nat
  | .mram => 21
  | .sram => 20
  | .scratch => 16
  | .ctx => 11

/-- The physical address of logical word `w` in pea c. -/
def scramble : MemKind → Nat → Nat
  | .mram, w => rotl 21 11 w ^^^ 0x13A9C
  | .sram, w => rotl 20 7 w ^^^ 0xA5C36
  | .scratch, w => rotl 16 5 w ^^^ 0x6B2D
  | .ctx, w => rotl 11 3 w ^^^ 0x5A3

/-- The physical address of logical word `w` in pea `p`. -/
def physAddr (p : PeaId) (m : MemKind) (w : Nat) : Nat :=
  let w := w % 2 ^ memBits m
  match p with
  | .c => scramble m w
  | _ => w

/-- The raw word that pea `p` stores for a canonical value, and back. -/
def rawWord (p : PeaId) (v : Word) : Word := match p with
  | .b => ~~~v
  | _ => v

/-- The raw words of one memory of a pea. -/
def peaArray (x : Pea) : MemKind → Store Word
  | .mram => x.mram
  | .sram => x.sram
  | .scratch => x.scratch
  | .ctx => x.ctx

/-- Replace the raw words of one memory. -/
def setPeaArray (x : Pea) (m : MemKind) (a : Store Word) : Pea := match m with
  | .mram => { x with mram := a }
  | .sram => { x with sram := a }
  | .scratch => { x with scratch := a }
  | .ctx => { x with ctx := a }

/-- The canonical value of logical word `w` (R53), whatever its check bits say. -/
def peaGet (p : PeaId) (x : Pea) (m : MemKind) (w : Nat) : Word :=
  rawWord p (Store.get (fun _ => rawWord p 0) (peaArray x m) (physAddr p m w))

/-- Write a canonical value into logical word `w` in the pea's encoding, with fresh check bits (R53). -/
def peaPut (p : PeaId) (x : Pea) (m : MemKind) (w : Nat) (v : Word) : Pea :=
  let x := setPeaArray x m (Store.set (fun _ => rawWord p 0) (peaArray x m) (physAddr p m w) (rawWord p v))
  { x with upsets := x.upsets.filter (fun u => !(u.mem = m && u.addr = w % 2 ^ memBits m)) }

/-! ### Digests (R91) -/

/-- The mixer `h(w, v)` of R91. -/
def digestH (w : Nat) (v : Word) : BitVec 64 :=
  let x : BitVec 64 := BitVec.ofNat 64 (w * 2 ^ 32 + v.toNat) ^^^ 0x3A5F91C2D60E7B14
  let x := x * 0x9E3779B97F4A7C15
  let x := x ^^^ (x >>> 31)
  let x := x * 0xB4C35E279D861A4B
  x ^^^ (x >>> 29)

/-- An address lies in one of the ranges (first, length). -/
def inRanges (rs : List (Nat × Nat)) (w : Nat) : Bool := rs.any fun r => r.1 ≤ w && w < r.1 + r.2

/-- The digest update of a write of `v` over `u` at data SRAM word `w` or scratch word `w` (R91): undeclared words have none. -/
def digestWrite (pr : Program) (x : Pea) (m : MemKind) (w : Nat) (u v : Word) : Pea :=
  match m with
  | .sram =>
    if inRanges pr.declared w then
      let d := digestH w v - digestH w u
      let b := w / 1024
      { x with dig := x.dig + d, blk := Store.set (fun _ => 0) x.blk b (Store.get (fun _ => 0) x.blk b + d) }
    else x
  | .scratch =>
    if inRanges pr.scratchDeclared w then
      let d := digestH (w + 2 ^ 20) v - digestH (w + 2 ^ 20) u
      let b := w / 1024
      { x with sblk := Store.set (fun _ => 0) x.sblk b (Store.get (fun _ => 0) x.sblk b + d) }
    else x
  | _ => x

/-- A write by the store unit, the image port or the copy engine: the word in the pea's encoding, and the digests. -/
def peaStore (pr : Option Program) (p : PeaId) (x : Pea) (m : MemKind) (w : Nat) (v : Word) : Pea :=
  let u := peaGet p x m w
  let x := peaPut p x m w v
  match pr with
  | some pr => digestWrite pr x m w u v
  | none => x

/-- R92: every digest computed anew from the contents of the declared words. -/
def recomputeDigests (pr : Program) (p : PeaId) (x : Pea) : Pea :=
  let add := fun (m : MemKind) (x : Pea) (w : Nat) =>
    let v := peaGet p x m w
    match m with
    | .sram =>
      let d := digestH w v
      { x with dig := x.dig + d, blk := Store.set (fun _ => 0) x.blk (w / 1024) (Store.get (fun _ => 0) x.blk (w / 1024) + d) }
    | _ =>
      let d := digestH (w + 2 ^ 20) v
      { x with sblk := Store.set (fun _ => 0) x.sblk (w / 1024) (Store.get (fun _ => 0) x.sblk (w / 1024) + d) }
  let words := fun (rs : List (Nat × Nat)) => rs.flatMap fun r => (List.range r.2).map (r.1 + ·)
  let x := { x with dig := 0, blk := [], sblk := [] }
  (words pr.scratchDeclared).foldl (add .scratch) ((words pr.declared).foldl (add .sram) x)

namespace State

/-- Pea `p`. -/
def pea (s : State) : PeaId → Pea
  | .a => s.pod.a
  | .b => s.pod.b
  | .c => s.pod.c

/-- Replace pea `p`. -/
def setPea (s : State) (p : PeaId) (x : Pea) : State := match p with
  | .a => { s with pod := { s.pod with a := x } }
  | .b => { s with pod := { s.pod with b := x } }
  | .c => { s with pod := { s.pod with c := x } }

/-- The state of a pea (R47), as `PEA_x_STAT.STATE` codes it: 0 OFF, 1 LOADING, 2 IDLE, 3 RUN, 4 HELD, 5 OUT, 6 TEST, 7 REJOIN. -/
def peaState (s : State) (p : PeaId) : Nat := s.fld (Fld.PEA_x_STAT_STATE (peaNum p))

/-- The event code of a pea state that is a condition of R380, 0 for none. -/
def stateEvent (st : Nat) : Nat := if st = 3 then 0x10 else if st = 4 then 0x11 else if st = 2 then 0x12 else 0

/-- Put a pea into a state; the onset of a condition counts (R379). -/
def setPeaState (s : State) (p : PeaId) (st : Nat) : State :=
  let s' := s.setFld (Fld.PEA_x_STAT_STATE (peaNum p)) st
  if stateEvent st = 0 ∨ s.peaState p = st then s' else s'.peaCount (peaNum p) (stateEvent st) 1

/-- The pea's tokens count in the vote. -/
def inService (s : State) (p : PeaId) : Bool := s.flag (Fld.PEA_x_STAT_IN_SERVICE (peaNum p))

/-- The peas in service. -/
def serving (s : State) : List PeaId := [PeaId.a, .b, .c].filter s.inService

/-- Show which peas serve and the pod's mode (R88). -/
def showPod (s : State) : State :=
  let n := (s.serving).length
  let s := s.setFld Fld.POD_STAT_INSVC (((s.serving).map fun p => 2 ^ peaNum p).foldl (· + ·) 0)
  s.setFld Fld.POD_STAT_MODE (if n = 3 then 1 else if n = 2 then 2 else 0)

/-- Every pea leaves service for a state of R47: 0 OFF, 1 LOADING, 6 TEST. -/
def peasTo (s : State) (st : Nat) : State :=
  ([PeaId.a, .b, .c].foldl (fun (s : State) p => (s.setPeaState p st).setFld (Fld.PEA_x_STAT_IN_SERVICE (peaNum p)) 0) s).showPod

/-- The value that a program image gives a register. -/
def imageReg (pr : Program) (a : Nat) : Word := match pr.regs.find? (fun x => x.1 = a) with
  | some x => x.2
  | none => 0

/-- CRC-32C over `n` program words of half `half` of pea `p` in canonical form and address order (R51). -/
def halfCheck (s : State) (p : PeaId) (half n : Nat) : Word :=
  crc32c (wordsBytes ((List.range n).map fun i => peaGet p (s.pea p) .mram (half * 2 ^ 20 + i)))

/-- The image port writes the words of an image into half `half` of pea `p` (R141, R142); `flips` are the bits of words that its MRAM does
not take as written. -/
def writeHalf (s : State) (p : PeaId) (pr : Program) (half : Nat) (flips : List (Nat × Word)) : State :=
  let put := fun (x : Pea) (w : Nat × Word) => peaPut p x .mram (half * 2 ^ 20 + w.1 % 2 ^ 20) w.2
  let x := pr.code.foldl put (s.pea p)
  s.setPea p (flips.foldl (fun x f => put x (f.1, peaGet p x .mram (half * 2 ^ 20 + f.1 % 2 ^ 20) ^^^ f.2)) x)

/-- Half `half` of pea `p` reads back as the image (R142): the CRC of its words is the image's program check. -/
def halfVerified (s : State) (p : PeaId) (pr : Program) (half : Nat) : Bool :=
  s.halfCheck p half (bitsOf 20 0 (imageReg pr Reg.PROG_CODESZ).toNat) = imageReg pr Reg.PROG_CHECK

/-- Pea `p` has verified the staged half. -/
def peaVerified (s : State) (p : PeaId) : Bool := bitsOf (16 + peaNum p) (16 + peaNum p) (s.reg Reg.PROG_XSTAT).toNat = 1

/-- Every pea in service has verified the staged image: `PROG_STAT.STAGED` is set (R142). -/
def noteStaged (s : State) : State :=
  if s.xch.staged.isNone ∨ s.flag Fld.PROG_STAT_STAGED ∨ ¬ s.serving.all s.peaVerified then s
  else ((s.setFld Fld.PROG_STAT_STAGED 1).setFld Fld.PROG_XSTAT_PHASE 2).raiseEvt Page.PROG Evt.PROG_LOADED

/-- The image port loads the staged image into pea `p`'s inactive half and reads it back (R142). -/
def stagePea (s : State) (p : PeaId) (flips : List (Nat × Word)) : State := match s.xch.staged with
  | none => s
  | some new =>
    let s := s.writeHalf p new (1 - s.pod.half) flips
    if ¬ s.halfVerified p new (1 - s.pod.half) then s
    else (s.setReg Reg.PROG_XSTAT (s.reg Reg.PROG_XSTAT ||| w32 (2 ^ (16 + peaNum p)))).noteStaged

/-- The number of a memory in `PEA_x_MEMERR.MEM`. -/
def memNum : MemKind → Nat
  | .mram => 0
  | .sram => 1
  | .scratch => 2
  | .ctx => 3

/-- The correction counter of a memory. -/
def eccField (p : PeaId) : MemKind → Field
  | .mram => Fld.PEA_x_ECCCNT_MRAM (peaNum p)
  | .sram => Fld.PEA_x_ECCCNT_SRAM (peaNum p)
  | .scratch => Fld.PEA_x_ECCCNT_SCR (peaNum p)
  | .ctx => Fld.PEA_x_ECCCNT_CTX (peaNum p)

/-- `PEA_x_MEMERR` for an error at logical address `w`. -/
def memErr (s : State) (p : PeaId) (m : MemKind) (w : Nat) (uncorr : Bool) : State :=
  s.setReg (Reg.PEA_x_MEMERR (peaNum p)) (w32 (2 ^ 31 + b2n uncorr * 2 ^ 30 + memNum m * 2 ^ 28 + w % 2 ^ 21))

/-- A corrected read (R48, R54): written back, counted and reported. -/
def correctWord (s : State) (p : PeaId) (m : MemKind) (w : Nat) : State :=
  let x := s.pea p
  let s := s.setPea p { x with upsets := x.upsets.filter (fun u => !(u.mem = m && u.addr = w)) }
  let s := ((s.addSat (eccField p m) 1).memErr p m w false).raiseEvt (Page.PEA (peaNum p)) Evt.PEA_ECC_CORR
  (s.raiseRec 0x0109 (Page.PEA (peaNum p)) (w32 (peaNum p)) [s.reg (Reg.PEA_x_MEMERR (peaNum p))]).peaCount (peaNum p) 9 1

/-- The bits of a word that stand wrong: a bit struck twice stands right again. `none` where a defect is not of single bits. -/
def wrongBits : List Upset → Option (List Nat)
  | [] => some []
  | u :: us => match u.bit, wrongBits us with
    | some b, some bs => some (if bs.contains b then bs.erase b else b :: bs)
    | _, _ => none

/-- What a read meets: the canonical word, with the state after a correction, or nothing where the word is uncorrectable. -/
def readWord (s : State) (p : PeaId) (m : MemKind) (w : Nat) : State × Option Word :=
  let w := w % 2 ^ memBits m
  match wrongBits ((s.pea p).upsets.filter (fun u => u.mem = m && u.addr = w)) with
  | some [] => (s, some (peaGet p (s.pea p) m w))
  | some [_] => (s.correctWord p m w, some (peaGet p (s.pea p) m w))
  | _ => (s, none)

/-- A write by the store unit or the image port of pea `p`. -/
def writeWord (s : State) (p : PeaId) (m : MemKind) (w : Nat) (v : Word) : State :=
  s.setPea p (peaStore s.prog p (s.pea p) m w v)

end State

end Sys2Proof.Machine
end

