-- ==== Sys2Proof/Machine/IveStore.lean ====
section
/-! DEFINITION. The words of the IVE's state store, its digest, and the block digests of a unit (R91, R201, R292). -/

namespace Sys2Proof.Machine

namespace Ive

/-- The IVE state as a list of numbers, in the order of the stores. -/
def stateWords (v : Ive) : List Nat :=
  let opt := fun (o : Option Nat) => match o with
    | some n => n + 1
    | none => 0
  v.routes.flatMap (fun e => [0, e.1, e.2.state, e.2.variant, e.2.req.toNat, b2n e.2.cleared, b2n e.2.flank,
    opt (e.2.timer.map fun x => x.2.toNat)]) ++
  v.sections.flatMap (fun e => [1, e.1, opt e.2.path, e.2.overlaps.length, b2n e.2.seen] ++ e.2.overlaps) ++
  v.points.flatMap (fun e => [2, e.1, e.2.routeNormal, e.2.routeReverse, e.2.flankNormal, e.2.flankReverse, e.2.commanded]) ++
  v.signals.flatMap (fun e => [3, e.1, e.2.aspect, e.2.route])

/-- The sum of h (R91) over the words of the state store at the addresses of `sel`: all of them for the digest of R201, those of a block
for its block digest (R292). -/
def storeDigest (v : Ive) (sel : Nat → Bool) : BitVec 64 :=
  ((Config.iveStateStore v.stateWords).filter fun x => sel x.1.toNat).foldl (fun d x => d + digestH x.1.toNat x.2) 0

end Ive

namespace State

/-- The block digests of the unit (R91, R292): data blocks as the first pea in service keeps them, IVE blocks from their words in the state
store. -/
def blockDigests (s : State) : List (BitVec 64) :=
  let data := match s.serving with
    | p :: _ => (List.range 1024).map (Store.get (fun _ => 0) (s.pea p).blk)
    | [] => List.replicate 1024 0
  data ++ (List.range 32).map fun k => s.ive.storeDigest fun a => a / 1024 = k

/-- A donor in CATCHUP latches its block digests when its DIGEST token is released (R292). -/
def latchDonor (s : State) : State :=
  if s.isActive ∧ s.flag Fld.TWIN_XFER_DONOR ∧ s.fld Fld.TWIN_XFER_PHASE = 3 then
    { s with twin := { s.twin with xferLatch := s.blockDigests } }
  else s

end State

end Sys2Proof.Machine
end

