-- ==== Sys2Proof/Machine/Voting.lean ====
section
/-! DEFINITION. Tokens, the voters and the pod's response (spec 03): token checks (R72), position matching (R79 to R85), what
leaves the voters (R86), flags, evictions (R88, R89, R98), and digest disagreements (R94 to R97). -/

namespace Sys2Proof.Machine

/-- 3,600 s in nanoseconds (R88, R95). -/
def hourNs : Nat := 3600 * 1000000000

/-- The identity word of a pea (R72). -/
def identityWord (p : PeaId) : Word := w32 (0x7E510001 + peaNum p)

/-- CHECK of a token in the path of pea `p` (R72). -/
def tokenCheck (p : PeaId) (tag p0 p1 : Word) : Word := crc32c (wordsBytes [identityWord p, tag, p0, p1])

/-- TASK, KIND, SEQ.RCYC and SEQ.IDX of a TAG word (R71). -/
def tagTask (t : Word) : Nat := bitsOf 31 27 t.toNat
def tagKind (t : Word) : Nat := bitsOf 26 24 t.toNat
def tagCyc (t : Word) : Nat := bitsOf 23 14 t.toNat
def tagIdx (t : Word) : Nat := bitsOf 13 0 t.toNat

/-- The two other peas of the pod. -/
def otherPeas (p : PeaId) : List PeaId := [PeaId.a, .b, .c].filter (· != p)

/-- The parts of a range of words, given by first word and end, that lie outside another. -/
def outside (x y : Nat × Nat) : List (Nat × Nat) :=
  [(x.1, Nat.min x.2 y.1), (Nat.max x.1 y.2, x.2)].filter fun r => decide (r.1 < r.2)

/-- The declared data words outside the input image area, as ranges of first word and end. -/
def dataRanges (pr : Program) : List (Nat × Nat) :=
  let bank := fun b => (b, b + pr.bankWords)
  (pr.declared.flatMap fun d => outside (d.1, d.1 + d.2) (bank pr.bank0)).flatMap fun d => outside d (bank pr.bank1)

/-- A range of words meets block `b`. -/
def meets (b : Nat) (r : Nat × Nat) : Bool := decide (r.1 < (b + 1) * 1024 ∧ b * 1024 < r.2)

/-- Data blocks that hold a declared word outside the input image area (R100). -/
def dataBlock (pr : Program) (b : Nat) : Bool := decide (b < 1024) && (dataRanges pr).any (meets b)

/-- Blocks of the input image area: those that meet a bank and hold no other declared word (R94). -/
def imageBlock (pr : Program) (b : Nat) : Bool :=
  decide (b < 1024) && decide (0 < pr.bankWords) && !dataBlock pr b &&
    (meets b (pr.bank0, pr.bank0 + pr.bankWords) || meets b (pr.bank1, pr.bank1 + pr.bankWords))

/-- The blocks whose digests differ between two peas: data blocks by number, scratch blocks from 1,024 on (R94). -/
def differingBlocks (x y : Pea) : List Nat :=
  let d := fun (u v : Store (BitVec 64)) =>
    let ks := (u ++ v).map (·.1)
    (List.range 1024).filter fun k => ks.contains k && Store.get (fun _ => 0) u k != Store.get (fun _ => 0) v k
  d x.blk y.blk ++ (d x.sblk y.sblk).map (· + 1024)

namespace State

/-- Stamp every open sample that `f` concerns (R383). -/
def stampSamples (s : State) (f : Sample → Sample) : State :=
  { s with pmon := { s.pmon with samples := s.pmon.samples.map (Option.map f) } }

/-- Show the commit buffer's fill (R86). -/
def showBuffer (s : State) : State :=
  let n := s.com.buffer.length
  (s.setFld Fld.VOTE_CBUF_NOW n).raiseMax Fld.VOTE_CBUF_MAX n

/-- Put a token into the commit buffer; an overflow is a kernel fault (R86). -/
def bufferToken (s : State) (t : Released) : State :=
  if 16384 ≤ s.com.buffer.length then s.kernelFault 8 0
  else
    let s := showBuffer { s with com := { s.com with buffer := s.com.buffer ++ [t] } }
    if s.com.buffer.length = 12288 then s.raiseEvt Page.VOTE Evt.VOTE_CBUF_HIGH else s

/-- The cycle a DIGEST names by its low 24 bits: the latest one not after the present (R74). -/
def digestCycle (s : State) (t : Word) : Word :=
  s.vcyc - w32 ((s.vcyc.toNat + 2 ^ 24 - t.toNat % 2 ^ 24) % 2 ^ 24)

/-- R86: a released token goes on its way. -/
def deliver (s : State) (t : Released) : State :=
  let k := tagKind t.tag
  let pos := s.pod.nextPass
  let now := w32 s.phase
  let s := s.stampSamples fun z => if z.position = some pos then { z with voted := now } else z
  let s := { s with pod := { s.pod with cycleTokens := s.pod.cycleTokens + 1,
                                        history := ((s.pod.nextPass, t) :: s.pod.history).take 32,
                                        nextPass := s.pod.nextPass + 1 } }
  let s := s.podCount k 1
  if k = 7 then
    (((s.setReg Reg.POD_DIGHI t.p0).setReg Reg.POD_DIGLO t.p1).setReg Reg.POD_DIGCYC (s.digestCycle t.tag)).latchDonor
  else if 1 ≤ k ∧ k ≤ 4 then { s with com := { s.com with iveIn := s.com.iveIn ++ [t] } }
  else
    let s := s.bufferToken t
    if k = 6 then
      (s.setReg (Reg.TASK_OPSs (tagTask t.tag)) t.p1).setFld (Fld.TASK_STATs_ACTIVE (tagTask t.tag)) 0
    else s

/-- R79: release voted positions strictly in order. A token for the IVE stays in the voters until the IVE takes it (R197), and what follows
it waits. -/
def passTokens : Nat → State → State
  | 0, s => s
  | fuel + 1, s =>
    if ¬ s.com.iveIn.isEmpty then s else
    match s.pod.positions.find? (fun q => q.index = s.pod.nextPass) with
    | some q =>
      match q.winner with
      | some t =>
        let s := s.deliver t
        passTokens fuel s
      | none => s
    | none => s

/-- R101: a DIGEST of pea `p` has agreed at a CLOSED position, so a later one is not the first after its re-join. -/
def digestAgreed (s : State) (p : PeaId) : State := s.setPea p { s.pea p with firstDigest := false }

/-- The peas whose DIGEST agreed at a position. -/
def agreedAt (q : Position) : List PeaId :=
  match q.winner with
  | some w => if tagKind w.tag = 7 then (q.copies.filter fun c => c.tok = w).map (·.pea) else []
  | none => []

/-- A position is CLOSED and released, and no token of it waits for the IVE (R197). -/
def done (s : State) (q : Position) : Bool := q.st = .closed && decide (q.index + s.com.iveIn.length < s.pod.nextPass)

/-- R79: pea `p`'s copy of a position has been or will be delivered. A pea that entered service after its tokens of that position were
emitted by the others delivers none (DEDUCED, log entry 45). -/
def takesPart (s : State) (q : Position) (p : PeaId) : Bool :=
  s.inService p && (decide ((s.pea p).arrived ≤ q.index) || q.copies.any fun c => c.pea = p)

/-- Drop positions that are CLOSED and released. -/
def dropClosed (s : State) : State :=
  let gone := s.pod.positions.filter s.done
  let left := s.pod.positions.filter (fun q => !s.done q)
  let s : State := { s with pod := { s.pod with positions := left } }
  (gone.flatMap agreedAt).foldl (fun (s : State) p => s.digestAgreed p) s

/-- Release what can be released. -/
def settle (s : State) : State := (passTokens 64 s).dropClosed

/-- Show the lagging peas. -/
def showLag (s : State) : State :=
  s.setFld Fld.VOTE_STAT_LAG (b2n s.pod.a.lagging + 2 * b2n s.pod.b.lagging + 4 * b2n s.pod.c.lagging)

/-- R84: with fewer than three peas in service no skew timer runs and lateness shows only at the commit point, so no pea is
lagging any more (DEDUCED, log entry 45). -/
def clearLag (s : State) : State :=
  ([PeaId.a, .b, .c].foldl (fun s p => s.setPea p { s.pea p with lagging := false }) s).showLag

/-- R85: what is left of an open position once pea `p` is evicted; `none` where no copy is left. The flag says that two
differing copies are left, which in duplex is a kernel fault (R84). -/
def strip (p : PeaId) (q : Position) : Option (Position × Bool) :=
  let cs := q.copies.filter (fun c => c.pea != p)
  match q.st, cs with
  | .closed, _ => some ({ q with copies := cs }, false)
  | .voted, _ => some ({ q with copies := cs, st := if q.copies.length = cs.length then .closed else .voted }, false)
  | _, [] => none
  | _, [c] => some ({ q with copies := [c], st := .one }, false)
  | _, _ => some ({ q with copies := cs }, true)

/-- R84, R85, R88: the open positions are taken up again without pea `p`; with fewer than two peas, or two differing copies left,
the kernel faults. The staged image may now be verified in every pea that serves (R142). -/
def afterEvict (s : State) (p : PeaId) : State :=
  let s := s.clearLag.noteStaged
  let kept := s.pod.positions.filterMap (strip p)
  let reseed := s.pod.reseed.filter (fun r => r.minor != p && r.major != p)
  let s : State := { s with pod := { s.pod with positions := kept.map Prod.fst, reseed := reseed } }
  let n : Nat := s.serving.length
  let s := if n = 2 then s.raiseEvt Page.POD Evt.POD_DUPLEX else s
  if n < 2 then s.kernelFault 4 0
  else if kept.any Prod.snd then s.kernelFault 3 0
  else s.settle

/-- The eviction counter of a pea. -/
def evictField : PeaId → Field
  | .a => Fld.POD_EVICTCNT_A
  | .b => Fld.POD_EVICTCNT_B
  | .c => Fld.POD_EVICTCNT_C

/-- The flag counter of a pea. -/
def flagField : PeaId → Field
  | .a => Fld.VOTE_FLAGCNT_A
  | .b => Fld.VOTE_FLAGCNT_B
  | .c => Fld.VOTE_FLAGCNT_C

/-- R98, R88, R89: evict pea `p` for a reason code of `POD_EVICT`; `path` asks for the path retest first. -/
def evict (s : State) (p : PeaId) (reason : Nat) (path : Bool) : State :=
  if ¬ s.inService p then s else
  let x := s.pea p
  let times := s.now :: x.evictions.filter (fun t => s.now < t + dayNs)
  let ph : EvictPhase := if 3 ≤ times.length then .stayOut else if path then .path else .test
  let s := s.setPea p { x with evictions := times, phase := ph, testAt := s.ticks, dr := [], cur := none, queue := [], lagging := false,
                               digestDue := false, firstDigest := false }
  let s := (s.setPeaState p (if ph = .test then 6 else 5)).setFld (Fld.PEA_x_STAT_IN_SERVICE (peaNum p)) 0
  let s := s.setFld (Fld.PEA_x_DRFILL_NOW (peaNum p)) 0
  let s := s.setReg Reg.POD_EVICT (w32 (2 ^ 31 + reason * 2 ^ 24 + peaNum p * 2 ^ 16))
  let s := s.setReg Reg.POD_EVICTCYC s.vcyc
  let s := s.addSat (evictField p) 1
  let s := (s.raiseRec 0x0102 Page.POD (w32 (peaNum p)) [s.reg Reg.POD_EVICT]).raiseEvt Page.POD Evt.POD_EVICT
  let s := (s.podCount 29 1).showPod
  s.afterEvict p

/-- Enter a flag against pea `p` at position `k` in the voters' registers: 1 CHKFAIL, 2 MISMATCH, 3 LATE, 4 delay register
overflow. `tag` is the position's, or the dropped copy's for CHKFAIL (`VOTE_FLAG`, `VOTE_FLAGTAG`). -/
def flagPea (s : State) (p : PeaId) (kind : Nat) (tag : Word) (k : Nat) : State :=
  let s := s.setReg Reg.VOTE_FLAG (w32 (2 ^ 31 + kind * 2 ^ 24 + peaNum p * 2 ^ 16 + tagTask tag * 2 ^ 8 + tagKind tag))
  let s := s.setReg Reg.VOTE_FLAGTAG tag
  let s := (s.addSat (flagField p) 1).stampSamples fun z => if z.position = some k then { z with flagged := true } else z
  match kind with
  | 1 => (s.podCount (14 + peaNum p) 1).raiseEvt Page.VOTE Evt.VOTE_CHKFAIL
  | 2 => (s.podCount (8 + peaNum p) 1).raiseEvt Page.VOTE Evt.VOTE_MISMATCH
  | 3 => (s.podCount (11 + peaNum p) 1).raiseEvt Page.VOTE Evt.VOTE_LATE
  | _ => s.raiseEvt Page.VOTE Evt.VOTE_DR_OVF

/-- R95: pea `p`'s DIGEST disagreed with the two others' while the pod was triplex. -/
def digestDisagree (s : State) (p : PeaId) : State :=
  let s := s.raiseEvt Page.POD Evt.POD_DIG_MINOR
  let x := s.pea p
  let times := s.now :: x.digests.filter (fun t => s.now < t + hourNs)
  let s := s.setPea p { x with digests := times }
  if x.firstDigest then (s.raiseEvt Page.POD Evt.POD_REJOIN_FAIL).evict p 7 false
  else if 3 ≤ times.length then s.evict p 4 false
  else
    match (otherPeas p).filter s.inService with
    | [] => s
    | q :: _ =>
      let bs := differingBlocks x (s.pea q)
      if bs.isEmpty then s.evict p 4 false
      else if 8 < bs.length then s.evict p 6 false
      else
        let copy := match s.prog with
          | some pr => bs.filter (fun b => !imageBlock pr b)
          | none => bs
        { s with pod := { s.pod with reseed := some ⟨p, q, copy⟩ } }

/-- R81, R88: a MISMATCH against pea `p` at position `k`, whose released token has TAG `tag`; at a DIGEST position nothing is
flagged, and R95 applies. -/
def mismatch (s : State) (p : PeaId) (tag : Word) (k : Nat) : State :=
  if tagKind tag = 7 then s.digestDisagree p
  else (s.flagPea p 2 tag k).evict p 2 false

/-- R81, R88: LATE against pea `p`: it lags, and a third cycle with LATE within 3,600 s evicts it. -/
def late (s : State) (p : PeaId) (tag : Word) (k : Nat) : State :=
  let s := s.flagPea p 3 tag k
  let x := s.pea p
  let old := x.lates.filter (fun l => s.now < l.2 + hourNs)
  let new := if old.any (fun l => l.1 = s.vcyc) then old else (s.vcyc, s.now) :: old
  let s := (s.setPea p { x with lates := new, lagging := true }).showLag
  if 3 ≤ new.length then s.evict p 3 true else s

/-- R83: a lagging pea that has fallen more than 32 positions behind is evicted. -/
def checkLag (s : State) : State :=
  [PeaId.a, .b, .c].foldl (fun s p =>
    if (s.pea p).lagging ∧ (s.pea p).arrived + 32 < s.pod.nextPass then s.evict p 3 true else s) s

/-- Put position `q` in the place of the one with its index. -/
def putPosition (s : State) (q : Position) : State :=
  { s with pod := { s.pod with positions := s.pod.positions.map fun r => if r.index = q.index then q else r } }

/-- Third copy arrived: the largest time from the second (R82). -/
def noteSkew (s : State) (p : PeaId) (q : Position) : State :=
  let d := s.ticks - q.secondTick
  if s.flag Fld.VOTE_SKEWMAX_VALID ∧ d ≤ s.fld Fld.VOTE_SKEWMAX_TICKS then s
  else s.setReg Reg.VOTE_SKEWMAX (w32 (2 ^ 31 + peaNum p * 2 ^ 16 + Nat.min d 65535))

/-- R81 in triplex: a valid copy from `p` at an open position. -/
def arriveTriplex (s : State) (q : Position) (p : PeaId) (t : Released) : State :=
  match q.st, q.copies with
  | .one, [x] =>
    if x.tok = t then
      settle (s.putPosition { q with copies := [x, ⟨p, t⟩], st := .voted, winner := some t, secondTick := s.ticks })
    else s.putPosition { q with copies := [x, ⟨p, t⟩], st := .split, secondTick := s.ticks }
  | .split, [x, y] =>
    let s := s.noteSkew p q
    if x.tok = t ∨ y.tok = t then
      let bad := if x.tok = t then y.pea else x.pea
      let s := (s.putPosition { q with copies := q.copies ++ [⟨p, t⟩], st := .closed, winner := some t }).podCount 20 1
      let s := s.raiseEvt Page.VOTE Evt.VOTE_SPLIT
      (s.settle).mismatch bad t.tag q.index
    else (s.raiseEvt Page.VOTE Evt.VOTE_NOMAJ).kernelFault 1 0
  | .voted, _ =>
    let s := s.noteSkew p q
    let s := s.putPosition { q with copies := q.copies ++ [⟨p, t⟩], st := .closed }
    match q.winner with
    | some w => if w = t then s.settle else (s.settle).mismatch p w.tag q.index
    | none => s.settle
  | _, _ => s

/-- R84 in duplex, or at a position at which one pea does not take part: both copies must be equal. -/
def arriveDuplex (s : State) (q : Position) (p : PeaId) (t : Released) : State :=
  match q.winner, q.copies with
  | some w, _ => if w = t then settle (s.putPosition { q with copies := q.copies ++ [⟨p, t⟩], st := .closed })
    else s.kernelFault 3 0
  | none, x :: _ =>
    if x.tok = t then
      settle (s.putPosition { q with copies := [x, ⟨p, t⟩], st := .closed, winner := some t, secondTick := s.ticks })
    else s.kernelFault 3 0
  | none, [] => s

/-- The token released at a CLOSED position (R83). -/
def closedToken (s : State) (k : Nat) : Option Released :=
  match s.pod.positions.find? (fun q => q.index = k && q.st = .closed) with
  | some q => q.winner
  | none => (s.pod.history.find? (fun h => h.1 = k)).map (·.2)

/-- A checked copy from pea `p` for its next position (R79, R81, R83, R84). -/
def arrive (s : State) (p : PeaId) (k : Nat) (t : Released) : State :=
  match s.pod.positions.find? (fun q => q.index = k && q.st != .closed) with
  | some q =>
    let s := (s.setPea p { s.pea p with lagging := false }).showLag
    if s.fld Fld.POD_STAT_MODE = 1 ∧ (otherPeas p).all (s.takesPart q) then s.arriveTriplex q p t else s.arriveDuplex q p t
  | none =>
    match s.closedToken k with
    | some w =>
      if w = t then (if tagKind t.tag = 7 then s.digestAgreed p else s)
      else if s.fld Fld.POD_STAT_MODE = 1 then s.mismatch p w.tag k else s.kernelFault 3 0
    | none =>
      let s := (s.setPea p { s.pea p with lagging := false }).showLag
      { s with pod := { s.pod with positions := s.pod.positions ++ [⟨k, [⟨p, t⟩], .one, none, s.ticks⟩] } }

/-- R78: the two voters differ in a released token or in a flag. -/
def voterDifference (s : State) : State := (s.raiseEvt Page.VOTE Evt.VOTE_VDIFF).kernelFault 7 0

/-- A new position may be opened for index `k` (R79): positions whose tokens wait to be released count too (R197). -/
def mayOpen (s : State) (k : Nat) : Bool :=
  (s.pod.positions.any (fun q => q.index = k)) || (s.closedToken k).isSome || decide (s.pod.positions.length < 32)

end State

/-- R77 to R85: the copy at the head of pea `p`'s delay register reaches the voters. `mask` is what its path does to its four
words (TAG highest); `differ` says that the two voters' results differ (R78). -/
def execTokenCopyArrival (p : PeaId) (mask : BitVec 128) (differ : Bool) (s : State) : Host.Outcome State Fault Refusal :=
  match (s.pea p).dr with
  | [] => .next s
  | t :: rest =>
    let k := (s.pea p).arrived
    if ¬ s.inService p ∨ ¬ s.mayOpen k then .next s else
    let s := s.setPea p { s.pea p with dr := rest }
    let s := s.setFld (Fld.PEA_x_DRFILL_NOW (peaNum p)) rest.length
    let now := w32 s.phase
    let s : State := { s with pmon := { s.pmon with samples := s.pmon.samples.modify (peaNum p) (Option.map fun z =>
      if z.position = some k then { z with atVoter := now } else z) } }
    if differ then .next s.voterDifference else
    let tag := t.tag ^^^ mask.extractLsb' 96 32
    let p0 := t.p0 ^^^ mask.extractLsb' 64 32
    let p1 := t.p1 ^^^ mask.extractLsb' 32 32
    let chk := t.check ^^^ mask.extractLsb' 0 32
    if chk ≠ tokenCheck p tag p0 p1 then
      let s := s.flagPea p 1 tag k
      .next (if s.fld Fld.POD_STAT_MODE = 1 then s.evict p 1 true else s.kernelFault 3 0)
    else
      let s := s.setPea p { s.pea p with arrived := k + 1 }
      .next (s.arrive p k ⟨tag, p0, p1⟩).checkLag

/-- R82: the skew timer of a VOTED position expires: LATE against each pea in service whose copy is missing. Voters whose
flags differ are a voter difference (R78). -/
def execSkewTimerExpiry (x : VoterTimer) (s : State) : Host.Outcome State Fault Refusal :=
  match s.pod.positions.find? (fun q => q.index = x.position && q.st = .voted) with
  | none => .next s
  | some q =>
    if s.fld Fld.POD_STAT_MODE ≠ 1 then .next s else
    if x.differ then .next s.voterDifference else
    match q.winner with
    | none => .next s
    | some t =>
      let missing := [PeaId.a, .b, .c].filter fun p => s.takesPart q p && !(q.copies.any fun c => c.pea = p)
      let s := s.putPosition { q with st := .closed }
      .next ((missing.foldl (fun s p => s.late p t.tag x.position) s).settle)

/-- R81: the split timer of a SPLIT position expires: nothing is released, NOMAJ and a kernel fault; where only one voter
finds it expired the two differ (R78). -/
def execSplitTimerExpiry (x : VoterTimer) (s : State) : Host.Outcome State Fault Refusal :=
  match s.pod.positions.find? (fun q => q.index = x.position && q.st = .split) with
  | none => .next s
  | some _ => .next (if x.differ then s.voterDifference else (s.raiseEvt Page.VOTE Evt.VOTE_NOMAJ).kernelFault 2 0)

/-- R77: a pea in HELD resumes once its delay register holds 16 tokens or fewer. -/
def execHeldRelease (p : PeaId) (s : State) : Host.Outcome State Fault Refusal :=
  if s.peaState p = 4 ∧ (s.pea p).dr.length ≤ 16 then .next (s.setPeaState p 3) else .next s

end Sys2Proof.Machine
end

