-- ==== Sys2Proof/Machine/Ubc.lean ====
section
/-! DEFINITION. What the UBC instructions share (spec 04): the working registers, symbols and elements, class rules, timers,
token emission, traps (R54, R122, R450), and the frame in which an instruction runs (R106 to R109, R133).  Each operand step
takes the rest of the instruction as a continuation. -/

namespace Sys2Proof.Machine

/-- What an instruction's body ends in: done (with a branch target if it branched), a trap cause, or a stop after an
uncorrectable read. -/
inductive UbcRes where
  | done (s : State) (target : Option Nat)
  | trap (s : State) (cause : Nat)
  | halt (s : State)

/-- The rest of an instruction. -/
abbrev UbcK := State → UbcRes

/-- Signed saturation to 32 bits (R115). -/
def sat32 (x : Int) : Word :=
  BitVec.ofInt 32 (if x < -2147483648 then -2147483648 else if 2147483647 < x then 2147483647 else x)

/-- Signed saturation to 16 bits, sign-extended (R115). -/
def sat16 (v : Word) : Word :=
  BitVec.ofInt 32 (if v.toInt < -32768 then -32768 else if 32767 < v.toInt then 32767 else v.toInt)

/-- The vital code of a truth value (R113). -/
def vital (b : Bool) : Word := if b then 2 else 1

/-- The truth value of a vital Boolean, none for an invalid one (R113). -/
def vital? (v : Word) : Option Bool := if v = 2 then some true else if v = 1 then some false else none

/-- A Boolean of a symbol's class: vital code for class 0, else 1 or 0. -/
def classBool (cls : Nat) (b : Bool) : Word := if cls = 0 then vital b else if b then 1 else 0

/-- The memory that holds symbols of a class (R111). -/
def classMem : Nat → MemKind
  | 2 => .scratch
  | 3 => .mram
  | _ => .sram

/-- Bits per packed element of a type: vital Booleans 2, non-vital 1, int16 16, else a word (R112). -/
def elemBits : Nat → Nat
  | 1 => 2
  | 2 => 1
  | 3 => 16
  | _ => 32

/-- The value that element `i` of an array of type `ty` has in its word (R112, R115). -/
def elemGet (ty i : Nat) (w : Word) : Word :=
  let b := elemBits ty
  let v := bitsOf (b - 1) 0 (w.toNat / 2 ^ (b * (i % (32 / b))))
  if ty = 3 then (BitVec.ofNat 16 v).signExtend 32 else w32 v

/-- A word with element `i` of an array of type `ty` replaced (R112). -/
def elemPut (ty i : Nat) (w v : Word) : Word :=
  let b := elemBits ty
  let lo := b * (i % (32 / b))
  w32 (putBits (lo + b - 1) lo w.toNat v.toNat)

namespace State

/-! ### Faults a pea reports (R54, R55, R88) -/

/-- The counter of a fault kind. -/
def faultField (p : PeaId) : Nat → Field
  | 1 => Fld.PEA_x_FAULTCNT_CODEVIO (peaNum p)
  | 2 => Fld.PEA_x_FAULTCNT_STALL (peaNum p)
  | 4 => Fld.PEA_x_FAULTCNT_ECC_UNCORR (peaNum p)
  | _ => Fld.PEA_x_FAULTCNT_TRAP (peaNum p)

/-- The event bit of a fault kind. -/
def faultEvt : Nat → Nat
  | 1 => Evt.PEA_CODEVIO
  | 2 => Evt.PEA_STALL
  | 3 => Evt.PEA_TRAP
  | 4 => Evt.PEA_ECC_UNCORR
  | _ => Evt.PEA_PROG_MISMATCH

/-- `PEA_x_FAULT` as it reads: the register with the free group of a trap or a program mismatch. -/
def faultWord (s : State) (p : PeaId) : Word :=
  let w := s.reg (Reg.PEA_x_FAULT (peaNum p))
  let kind := s.fld (Fld.PEA_x_FAULT_KIND (peaNum p))
  if kind = 3 ∨ kind = 5 then w ||| ((s.pea p).grp.setWidth 32 <<< 16) else w

/-- The stage group that detects a trap where R45 says so: Execute (3) checks vital Boolean codes, arithmetic and comparisons, which are
the causes VBOOL, DIVZ and VCMP. -/
def trapGroup (cause : Nat) : Option Nat := if cause = 0x03 ∨ cause = 0x07 ∨ cause = 0x0C then some 3 else none

/-- A pea reports a fault of kind 1 CODEVIO, 2 STALL, 3 TRAP, 4 ECC_UNCORR or 5 PROG_MISMATCH: recorded, counted, and the pod
evicts the pea; a code violation or stall in group 6 has its path retested first (R88). For kind 5, and for the trap causes that
R45 gives to no group, the group is a free value, kept beside the register. -/
def peaFault (s : State) (p : PeaId) (kind group task cause : Nat) : State :=
  let n := peaNum p
  let free := kind = 5 || (kind = 3 && (trapGroup cause).isNone)
  let group := if kind = 3 then (trapGroup cause).getD 0 else group
  let s := if s.flag (Fld.PEA_x_FAULT_VALID n) then s
    else (s.setReg (Reg.PEA_x_FAULT n)
      (w32 (2 ^ 31 + kind * 2 ^ 24 + (if free then 0 else group % 16) * 2 ^ 16 + task % 32 * 2 ^ 8 + cause % 256))).setPea p
        { s.pea p with grp := if free then Config.faultGroup cause else 0 }
  let s := (s.addSat (faultField p kind) 1).raiseEvt (Page.PEA n) (faultEvt kind)
  let s := s.raiseRec 0x0103 (Page.PEA n) (w32 n) [s.faultWord p, s.reg (Reg.PEA_x_TRAPPC n)]
  s.evict p 5 ((kind = 1 ∨ kind = 2) ∧ group = 6)

/-- The slot of the release under way in pea `p`, 0 if none. -/
def runSlot (s : State) (p : PeaId) : Nat := match (s.pea p).cur with
  | some r => r.slot
  | none => 0

/-- Stamp the open sample of pea `p` (R383). -/
def sample (s : State) (p : PeaId) (f : Sample → Sample) : State :=
  { s with pmon := { s.pmon with samples := s.pmon.samples.modify (peaNum p) (Option.map f) } }

/-- A UBC trap of the release in `slot` at word `pc` (R122, R450). -/
def trapPea (s : State) (p : PeaId) (slot pc cause : Nat) : State :=
  let s := s.setReg (Reg.PEA_x_TRAPPC (peaNum p)) (w32 (slot * 2 ^ 27 + s.pod.half * 2 ^ 20 + pc % 2 ^ 20))
  let tagged : Bool := match s.pmon.samples.getD (peaNum p) none with
    | some z => z.addr = w32 pc && z.execEnd = 0xFFFFFFFF
    | none => false
  let s := if tagged then (s.sample p fun z => { z with trapped := true }).raiseEvt Page.PMON Evt.PMON_TAGTRAP else s
  let s := s.peaCount (peaNum p) 8 1
  s.peaFault p 3 0 slot cause

/-- An uncorrectable read by pea `p` (R54): reported as a trap is, with the memory and the address. The group is the one that R45 says
reads the memory: 0 for program MRAM, 2 for the context store, 4 for data SRAM and scratch; R45 names none for a read by the scrub, the
copy engine or the bridge, and the model takes the memory's here too (DESIGN CHOICE, log entry 68). -/
def uncorrectable (s : State) (p : PeaId) (m : MemKind) (w : Nat) : State :=
  let g := match m with
    | .mram => 0
    | .ctx => 2
    | _ => 4
  (s.memErr p m w true).peaFault p 4 g (s.runSlot p) 0

/-! ### Program and tasks -/

/-- The task table entry of a slot. -/
def taskDef (s : State) (slot : Nat) : Option TaskDef := match s.prog with
  | some pr => pr.tasks.find? (fun t => t.slot = slot)
  | none => none

/-- The symbol an identifier names in the active image (R110). -/
def symbol (s : State) (id : Nat) : Option Symbol := match s.prog with
  | some pr => (symbolsOf pr).find? (fun y => y.id = id)
  | none => none

/-- The task of a slot is vital (R123). -/
def taskVital (s : State) (slot : Nat) : Bool := s.flag (Fld.TASK_CFGs_VITAL slot)

/-- An object number is defined in the active image (R20, R21). -/
def objDefined (s : State) (o : Nat) : Bool := match s.prog with
  | some pr => o / 8192 < 6 && o % 8192 < pr.objects.getD (o / 8192) 0
  | none => false

/-- The force entry that holds element `e` of symbol `id`, if any (R157, R159). -/
def forceEntry (s : State) (id e : Nat) : Option Nat :=
  (List.range 64).find? fun i =>
    s.flag (Fld.FORCE_SYMe_VALID i) && s.fld (Fld.FORCE_SYMe_SYM i) = id && s.fld (Fld.FORCE_ELEMe_ELEM i) = e

/-- The word address of word `w` of a symbol: constants in the active half, IMAGE symbols in the bound bank (R126, R141). -/
def symAddr (s : State) (y : Symbol) (bank w : Nat) : Nat :=
  if y.cls = 3 then s.pod.half * 2 ^ 20 + (y.addr + w) % 2 ^ 20
  else if y.image then (match s.prog with
    | some pr => if bank = 1 then y.addr + w + pr.bank1 - pr.bank0 else y.addr + w
    | none => y.addr + w)
  else y.addr + w

end State

/-! ### Operand steps -/

/-- Read a word of pea `p`; an uncorrectable one stops the pea. -/
def ubcRead (p : PeaId) (m : MemKind) (w : Nat) (k : Word → UbcK) : UbcK := fun s =>
  match s.readWord p m w with
  | (s, some v) => k v s
  | (s, none) => .halt (s.uncorrectable p m w)

/-- Write a word of pea `p`. -/
def ubcWrite (p : PeaId) (m : MemKind) (w : Nat) (v : Word) (k : UbcK) : UbcK := fun s => k (s.writeWord p m w v)

/-- Read working register `r` of the release `x`. -/
def ubcReg (p : PeaId) (x : Release) (r : Nat) (k : Word → UbcK) : UbcK := ubcRead p .ctx (x.slot * 64 + r) k

/-- Write working register `r` of the release `x`. -/
def ubcPut (p : PeaId) (x : Release) (r : Nat) (v : Word) (k : UbcK) : UbcK := ubcWrite p .ctx (x.slot * 64 + r) v k

/-- The instruction is done; the next one follows. -/
def ubcDone : UbcK := fun s => .done s none

/-- Trap with a cause. -/
def ubcTrap (cause : Nat) : UbcK := fun s => .trap s cause

/-- Go on only if a condition holds, else trap. -/
def ubcCheck (ok : Bool) (cause : Nat) (k : UbcK) : UbcK := if ok then k else ubcTrap cause

/-- A register's value as a vital Boolean (R113). -/
def ubcVital (p : PeaId) (x : Release) (r : Nat) (k : Bool → UbcK) : UbcK :=
  ubcReg p x r fun v => match vital? v with
    | some b => k b
    | none => ubcTrap 0x03

/-- The symbol an instruction names; a system symbol or an undefined one traps with SYM (R110, R112). -/
def ubcSym (id : Nat) (k : Symbol → UbcK) : UbcK := fun s =>
  if 0xFFF00 ≤ id then .trap s 0x09 else
  match s.symbol id with
  | some y => k y s
  | none => .trap s 0x09

/-- R117: a store to a symbol of class `cls` (IMAGE or not) by the running task. -/
def storeAllowed (vitalTask : Bool) (y : Symbol) : Bool :=
  if y.cls = 3 ∨ y.image then false else if y.cls = 0 then vitalTask else true

/-- The fields of the 24 operand bits: d or a of [23:18], a or b of [17:12], b of [11:6] (R104). -/
def opD (w : BitVec 24) : Nat := bitsOf 23 18 w.toNat
def opA (w : BitVec 24) : Nat := bitsOf 17 12 w.toNat
def opB (w : BitVec 24) : Nat := bitsOf 11 6 w.toNat
def opQ (w : BitVec 24) : Nat := bitsOf 23 20 w.toNat
def opSym (w : BitVec 24) : Nat := bitsOf 19 0 w.toNat
def opImm (w : BitVec 24) : BitVec 16 := w.extractLsb' 0 16

/-- The bits [hi:lo] of the operand bits are 0. -/
def zero (w : BitVec 24) (hi lo : Nat) : Bool := bitsOf hi lo w.toNat = 0

/-! ### Tokens (R71 to R77, R121) -/

/-- R77: the pea enters HELD with `n` instructions past decode. -/
def holdPea (s : State) (p : PeaId) (n : Nat) : State :=
  let s := s.setPea p { s.pea p with flight := n }
  ((s.setPeaState p 4).raiseEvt (Page.PEA (peaNum p)) Evt.PEA_HELD).podCount (17 + peaNum p) 1

/-- Put a token into pea `p`'s delay register (R76, R77): at 24 tokens the pea is HELD, above 28 the register overflows. -/
def pushToken (s : State) (p : PeaId) (tag p0 p1 : Word) : State :=
  let n := peaNum p
  let x := s.pea p
  let dr := x.dr ++ [⟨tag, p0, p1, tokenCheck p tag p0 p1⟩]
  let s := s.setPea p { x with dr := dr }
  let s := (s.setFld (Fld.PEA_x_DRFILL_NOW n) dr.length).raiseMax (Fld.PEA_x_DRFILL_MAX n) dr.length
  let s := s.peaCount n 3 1
  let s := if dr.length = 16 then s.peaCount n 0x13 1 else s
  if 28 < dr.length then (s.flagPea p 4 tag (x.arrived + x.dr.length)).evict p 8 true
  else if 24 ≤ dr.length ∧ s.peaState p = 3 then holdPea s p (Config.pastDecode s.ticks)
  else s

/-- The TAG word of a token (R71). -/
def makeTag (slot kind : Nat) (cycle : Word) (idx : Nat) : Word :=
  w32 (slot * 2 ^ 27 + kind * 2 ^ 24 + cycle.toNat % 1024 * 2 ^ 14 + idx % 2 ^ 14)

/-- R73, R121: P0 and P1 are a legal token of a kind. -/
def tokenLegal (s : State) (kind : Nat) (p0 p1 : Word) : Bool :=
  let o := bitsOf 31 16 p0.toNat
  let u := bitsOf 31 16 p1.toNat
  let route := u = 0xFFFF || (u / 8192 = 0 && s.objDefined u)
  match kind with
  | 0 => 3 ≤ o / 8192 && o / 8192 ≤ 5 && s.objDefined o && bitsOf 15 0 p0.toNat = 0
  | 1 => o / 8192 = 1 && s.objDefined o && bitsOf 7 0 p0.toNat = 0 && bitsOf 15 8 p0.toNat ≤ 2 &&
      bitsOf 15 0 p1.toNat = 0 && route
  | 2 => o / 8192 = 2 && s.objDefined o && bitsOf 7 0 p0.toNat = 0 && bitsOf 15 8 p0.toNat ≤ 0x3F &&
      bitsOf 15 0 p1.toNat = 0 && route
  | 3 => o / 8192 = 0 && s.objDefined o && bitsOf 7 0 p0.toNat = 0
  | 4 => o / 8192 = 0 && s.objDefined o
  | _ => bitsOf 27 16 p0.toNat = 0

/-- The token goes into the delay register and the release counts it; an open sample follows it (R383). -/
def emitToken (s : State) (p : PeaId) (x : Release) (kind : Nat) (p0 p1 : Word) : State :=
  let tag := makeTag x.slot kind x.cycle x.idx
  let y := s.pea p
  let s := s.setPea p { y with cur := some { x with idx := x.idx + 1 } }
  let pos := y.arrived + y.dr.length
  let t := w32 s.phase
  let s := s.sample p fun z =>
    if z.emitted ∨ z.task ≠ x.slot ∨ z.addr ≠ w32 x.pc then z
    else { z with emitted := true, inDr := t, tag := tag, position := some pos, fill := BitVec.ofNat 8 (y.dr.length + 1) }
  let s := if 1 ≤ kind ∧ kind ≤ 4 then s.peaCount (peaNum p) 7 1 else s
  pushToken s p tag p0 p1

/-- R121: EMIT of a kind with P0 from register a and P1 from register b. -/
def ubcEmit (p : PeaId) (x : Release) (kind : Nat) (w : BitVec 24) : UbcK := fun s =>
  ubcCheck (kind = 5 || s.taskVital x.slot) 0x05
    (ubcReg p x (opD w) fun p0 => ubcReg p x (opA w) fun p1 => fun s =>
      let m := match s.taskDef x.slot with
        | some t => t.maxTok
        | none => 0
      (ubcCheck (tokenLegal s kind p0 p1) 0x0A
        (ubcCheck (x.idx < 16383) 0x0B
          (ubcCheck (x.idx + 1 < m) 0x10
            (fun s => .done (emitToken s p x kind p0 p1) none)))) s) s

/-! ### Branches (R109) -/

/-- A word address lies in the code range of the running task. -/
def inCode (s : State) (slot pc : Nat) : Bool := match s.taskDef slot with
  | some t => t.first ≤ pc && pc ≤ t.last
  | none => false

/-- The target of a branch: the signed offset counted from the next instruction. -/
def branchTarget (pc : Nat) (w : BitVec 24) : Int := (pc : Int) + 1 + (opImm w).toInt

/-- Check the target, whether or not the branch is taken, then branch on a condition (R109). -/
def ubcBranch (p : PeaId) (x : Release) (w : BitVec 24) (taken : Bool) : UbcK := fun s =>
  let t := branchTarget x.pc w
  if t < 0 ∨ ¬ inCode s x.slot t.toNat then .trap s 0x08
  else if taken then .done (s.peaCount (peaNum p) 6 1) (some t.toNat) else .done s none

/-! ### Running -/

/-- R383: the sampling of pea `p` decides whether the instruction about to be decoded is tagged. -/
def sampleTry (s : State) (p : PeaId) (x : Release) (opcode : Nat) : State :=
  let n := peaNum p
  if ¬ s.flag Fld.PMON_SAMPCFG_EN ∨ s.fld Fld.PMON_SAMPCFG_PEA ≠ n ∨ (s.pmon.samples.getD n none).isSome ∨
      bitsOf x.slot x.slot (s.reg Reg.PMON_SAMPTASK).toNat = 0 then s else
  let l := Config.lfsrNext s.pmon.lfsr
  let s := { s with pmon := { s.pmon with lfsr := l } }
  if ¬ Config.lfsrPick (s.fld Fld.PMON_SAMPCFG_N) l then s else
  let f : Word := 0xFFFFFFFF
  let z : Sample := ⟨x.slot, BitVec.ofNat 8 opcode, x.cycle, w32 x.pc, false, false, false, false,
    w32 s.phase, f, f, f, f, f, 0, none, 0, 0, 0⟩
  let s := { s with pmon := { s.pmon with samples := s.pmon.samples.set n (some z) } }
  s.setFld Fld.PMON_STAT_SAMPOPEN (s.fld Fld.PMON_STAT_SAMPOPEN ||| 2 ^ n)

/-- The declared maximum operations of a slot's release (R133). -/
def maxOps (s : State) (slot : Nat) : Nat := match s.taskDef slot with
  | some t => t.maxOps
  | none => 0

/-- An instruction has completed: its operations count, the next instruction follows, and running off the end of the code
range traps with JUMP (R108, R109, R450). -/
def finishInstr (s : State) (p : PeaId) (x : Release) (ops : Nat) (target : Option Nat) : State :=
  let n := peaNum p
  let y := s.pea p
  match y.cur with
  | none => s
  | some r =>
    let last := match s.taskDef x.slot with
      | some t => t.last
      | none => x.pc
    let s := s.setPea p { y with cur := some { r with pc := target.getD (x.pc + 1), ops := r.ops + ops },
                                 opsCycle := y.opsCycle + ops }
    let t := w32 s.phase
    let s := s.sample p fun z => if z.addr = w32 x.pc ∧ z.execEnd = 0xFFFFFFFF then { z with execEnd := t } else z
    let s := (s.peaCount n 1 1).peaCount n 2 ops
    if target = none ∧ x.pc = last then s.trapPea p x.slot x.pc 0x08 else s

/-- R77: pea `p` executes the instruction at hand, which emits `toks` tokens at most: the pea is in RUN, or in HELD with the instruction
already past decode and room below the overflow mark. -/
def mayRun (s : State) (p : PeaId) (toks : Nat) : Bool :=
  s.peaState p = 3 || (s.peaState p = 4 && decide (0 < (s.pea p).flight) && decide ((s.pea p).dr.length + toks ≤ 28))

/-- The instruction leaves the pipeline of a HELD pea. -/
def leavePipe (s : State) (p : PeaId) : State :=
  if s.peaState p = 4 then s.setPea p { s.pea p with flight := (s.pea p).flight - 1 } else s

/-- The fetch group reads program MRAM at the release's next instruction (R44, R48): a single-bit error is corrected and counted, and an
uncorrectable word is reported; the flag says that the word was read. What the word holds is the command's operand (log entry 5). -/
def fetchWord (s : State) (p : PeaId) (x : Release) : State × Bool :=
  let a := s.pod.half * 2 ^ 20 + x.pc % 2 ^ 20
  match s.readWord p .mram a with
  | (s, some _) => (leavePipe s p, true)
  | (s, none) => (s.uncorrectable p .mram a, false)

/-- The frame of every UBC instruction: it runs in a pea that executes, with a release under way. Its word is read, the operand bits that
must be 0 are (ENC), the operations fit the declared maximum (OPSMAX), and the body runs. Where both ENC and OPSMAX apply, ENC is the cause
(DESIGN CHOICE, log entry 66). -/
def runInstr (p : PeaId) (opcode ops : Nat) (enc : Bool) (body : Release → UbcK) (s : State) :
    Host.Outcome State Fault Refusal :=
  match (s.pea p).cur with
  | none => .next s
  | some x =>
    if ¬ mayRun s p 1 then .next s else
    let (s, ok) := fetchWord s p x
    if ¬ ok then .next s else
    let s := sampleTry s p x opcode
    if ¬ enc then .next (s.trapPea p x.slot x.pc 0x02)
    else if maxOps s x.slot < x.ops + ops then .next (s.trapPea p x.slot x.pc 0x11)
    else match body x s with
      | .done s t => .next (finishInstr s p x ops t)
      | .trap s c => .next (s.trapPea p x.slot x.pc c)
      | .halt s => .next s

end Sys2Proof.Machine
end

