-- ==== Sys2Proof/Machine/ImagePort.lean ====
section
/-! DEFINITION. The image port (R34, R35, R126, R159): the words of an input image in the layout of the program image, their
delivery into a bank of every pea, and the loading of image-supplied register fields. -/

namespace Sys2Proof.Machine

/-- The entry of a controller in an image. -/
def Img.entry (img : Image) (c : Nat) : Option CtrlEntry := img.entries.find? (fun e => e.addr = c)

/-- The word that a source gives (R31 to R33, R317): eight status codes from element `lo`, counters and marks of an entry (marks
as vital Booleans), local inputs and their LOST marks, safety function states, and the request area. -/
def Img.word (img : Image) : ImgSource → Word
  | .elems c lo => match Img.entry img c with
    | some e => w32 (e.status.toNat / 2 ^ (4 * lo))
    | none => 0xFFFFFFFF
  | .cnt c => match Img.entry img c with
    | some e => w32 e.cnt.toNat
    | none => 0
  | .age c => match Img.entry img c with
    | some e => w32 e.age
    | none => 7
  | .lost c => match Img.entry img c with
    | some e => vital e.lost
    | none => 2
  | .fresh c => match Img.entry img c with
    | some e => vital (!e.lost)
    | none => 1
  | .localIn => img.localIn
  | .localLost => img.localLost
  | .sfb => img.sfb
  | .ringCycle => img.rc
  | .reqCount => w32 img.reqs.length
  | .reqWord i w => match img.reqs[i]? with
    | none => 0
    | some r => r.word w

/-- The word at offset `off` of the input image area. -/
def Img.at (pr : Program) (img : Image) (off : Nat) : Word :=
  match pr.imageLayout.find? (fun l => l.1 = off) with
  | some l => Img.word img l.2
  | none => 0

/-- R32: an entry's restrictive default. -/
def restrictive : BitVec 64 := 0xFFFFFFFFFFFFFFFF

/-- R35: the image with every age increased by one; an entry whose age passes 3 takes the restrictive default and is LOST. Its request
records stay where they are and are not run on again. -/
def Img.aged (img : Image) : Image :=
  { img with entries := img.entries.map fun e =>
      let a := Nat.min (e.age + 1) 7
      if 3 < a then { e with age := a, lost := true, status := restrictive } else { e with age := a } }

namespace State

/-- The first word of bank `b` of the input image area. -/
def bankBase (pr : Program) (b : Nat) : Nat := if b = 1 then pr.bank1 else pr.bank0

/-- Write the forced value of force entry `e` into its element in every pea of `ps`, in bank `bank` for an input (R159). -/
def writeElem (s : State) (ps : List PeaId) (y : Symbol) (bank elem : Nat) (v : Word) : State :=
  let a := s.symAddr y bank (elem / (32 / elemBits y.ty))
  let a := if y.array then a else s.symAddr y bank 0
  ps.foldl (fun s p =>
    let u := peaGet p (s.pea p) .sram a
    s.writeWord p .sram a (if y.array then elemPut y.ty elem u v else v)) s

/-- The force entries in use. -/
def forceEntries (s : State) : List Nat := (List.range 64).filter fun e => s.flag (Fld.FORCE_SYMe_VALID e)

/-- The peas that receive images: those in service and those in REJOIN (R34, R101). -/
def imagePeas (s : State) : List PeaId := [PeaId.a, .b, .c].filter fun p => s.inService p || s.peaState p = 7

/-- Deliver an image into a bank (R34, R53), with the forced inputs at their forced values (R159). -/
def deliverImage (s : State) (img : Image) (bank : Nat) : State :=
  match s.prog with
  | none => s
  | some pr =>
    let base := bankBase pr bank
    let ps := s.imagePeas
    let s := ps.foldl (fun s p =>
      let s := pr.imageLayout.foldl (fun s l => s.writeWord p .sram (base + l.1) (Img.word img l.2)) s
      s.peaCount (peaNum p) 0x0B pr.imageLayout.length) s
    s.forceEntries.foldl (fun s e =>
      if s.flag (Fld.FORCE_SYMe_IMAGE e) then
        match s.symbol (s.fld (Fld.FORCE_SYMe_SYM e)) with
        | some y => s.writeElem ps y bank (s.fld (Fld.FORCE_ELEMe_ELEM e)) (s.reg (Reg.FORCE_VALe e))
        | none => s
      else s) s

/-- The value that an element of an IMAGE symbol has in an image. -/
def sampled (s : State) (img : Image) (y : Symbol) (elem : Nat) : Word :=
  match s.prog with
  | none => 0
  | some pr =>
    if y.array then elemGet y.ty elem (Img.at pr img (y.addr - pr.bank0 + elem / (32 / elemBits y.ty)))
    else Img.at pr img (y.addr - pr.bank0)

/-- The image-loaded fields of a register, if the address has one, take the value's bits. -/
def imgReg (s : State) (a : Nat) (v : Word) : Option RegDef → State
  | none => s
  | some r => s.setReg a (w32 ((r.fields.filter (·.img)).foldl (fun w f => putBits f.hi f.lo w (bitsOf f.hi f.lo v.toNat))
      (s.reg a).toNat))

/-- The parts of a register's word that its "img" fields cover are put in; the other fields stay. -/
def putImg (s : State) (a : Nat) (v : Word) : State :=
  s.imgReg a v (findReg ((a - 0x40000000) % 0x1000) (pageRegs ((a - 0x40000000) / 0x1000)))

/-- Load the register fields that an image supplies (R16): unit Q takes its own values where they differ (R302), and NWIN is the number
of controllers that the image binds on each branch (R236). -/
def loadImg (s : State) (pr : Program) : State :=
  let s := (pr.regs.foldl (fun s x => s.putImg x.1 x.2) s).setReg Reg.PROG_IMGID pr.imgId
  let s := if s.letter = 1 then pr.regsQ.foldl (fun s x => s.putImg x.1 x.2) s else s
  (s.setFld Fld.RSCH_NWIN_BR0 (branchControllers pr 0)).setFld Fld.RSCH_NWIN_BR1 (branchControllers pr 1)

/-- Record a refusal of a program image or exchange (R135, R147): `PROG_REFUSE`, `PROG_EVT.REFUSED` and PROG_REFUSED. -/
def refuseProgram (s : State) (code detail : Nat) (build : Word) : State :=
  let s := s.setReg Reg.PROG_REFUSE (w32 (2 ^ 31 + detail % 65536 * 256 + code))
  (s.raiseRec 0x0401 Page.PROG (w32 code) [s.reg Reg.PROG_REFUSE, build]).raiseEvt Page.PROG Evt.PROG_REFUSED

end State

end Sys2Proof.Machine
end

