-- ==== Sys2Proof/Machine/Outputs.lean ====
section
/-! DEFINITION. Energy and supervision of the vital outputs (R204 to R216): heartbeats, the local channels' commands, readback
faults and stuck outputs, and the safety functions that cut them (R223 to R227). -/

namespace Sys2Proof.Machine

/-- Bit `c` of a word is set. -/
def bit (w : Word) (c : Nat) : Bool := w.getLsbD c

/-- A word with bit `c` set or cleared. -/
def putBit (w : Word) (c : Nat) (b : Bool) : Word := if b then w ||| w32 (2 ^ c) else w &&& ~~~(w32 (2 ^ c))

namespace State

/-- The mode of field channel `c` (R423). -/
def chMode (s : State) (c : Nat) : Nat := s.fld (Fld.FIO_CFGc_MODE c)

/-- Channel `c` is an input, or an output. -/
def isInput (s : State) (c : Nat) : Bool := s.chMode c = 1 || s.chMode c = 2
def isOutput (s : State) (c : Nat) : Bool := s.chMode c = 3 || s.chMode c = 4

/-! ### Safety functions (R223 to R226) -/

/-- SFB-1 (`false`) or SFB-2 has found function `f` in demand. -/
def seesDemand (s : State) (second : Bool) (f : Nat) : Bool :=
  s.flag (Fld.SFB_STATf_DEMAND f) && bit (if second then s.sfb.seen2 else s.sfb.seen1) f

/-- SFB-1 or SFB-2 withdraws its own enable lines for function `f` (R223, R225): it finds it in demand, or the function is locked out or
waits for its reset. -/
def withdraws (s : State) (second : Bool) (f : Nat) : Bool :=
  s.seesDemand second f || s.flag (Fld.SFB_STATf_LOCKED f) || bit s.sfb.wait f

/-- The channels from which SFB-1 or SFB-2 withdraws its enable line. -/
def withdrawnLines (s : State) (second : Bool) : Word :=
  (List.range 8).foldl (fun w f => if s.withdraws second f then w ||| s.reg (Reg.SFB_MASKf f) else w) 0

/-- An enable line is withdrawn for function `f`: it is in demand, locked out, or waits for its reset. -/
def cuts (s : State) (f : Nat) : Bool :=
  s.flag (Fld.SFB_STATf_DEMAND f) || s.flag (Fld.SFB_STATf_LOCKED f) || bit s.sfb.wait f

/-- The channels that do not have both enable lines: an output switch conducts only with both (R223). -/
def cutMask (s : State) : Word := s.withdrawnLines false ||| s.withdrawnLines true

/-- VRD does not have both enable lines, by a function with VRDCUT. -/
def vrdCut (s : State) : Bool := (List.range 8).any fun f =>
  (s.withdraws false f || s.withdraws true f) && s.flag (Fld.SFB_CFGf_VRDCUT f)

/-- The channels of the SFB that see something note function `f` in demand. -/
def noteSeen (s : State) (f : Nat) (c : SfbChannel) : State :=
  { s with sfb := { s.sfb with seen1 := if c = .sfb2 then s.sfb.seen1 else putBit s.sfb.seen1 f true,
                               seen2 := if c = .sfb1 then s.sfb.seen2 else putBit s.sfb.seen2 f true } }

/-- The channels of a new demand of function `f`. -/
def firstSeen (s : State) (f : Nat) (c : SfbChannel) : State :=
  ({ s with sfb := { s.sfb with seen1 := putBit s.sfb.seen1 f false, seen2 := putBit s.sfb.seen2 f false } } : State).noteSeen f c

/-- Show the functions in `SFB_STAT`, and VRD. -/
def showSfb (s : State) : State :=
  let vec := fun (g : Nat → Field) => ((List.range 8).map fun f => if s.flag (g f) then 2 ^ f else 0).sum
  let s := s.setFld Fld.SFB_STAT_DEMAND (vec Fld.SFB_STATf_DEMAND)
  let s := s.setFld Fld.SFB_STAT_LOCKED (vec Fld.SFB_STATf_LOCKED)
  let s := s.setFld Fld.SFB_STAT_FAULT (vec Fld.SFB_STATf_FAULT)
  if s.vrdCut then s.setFld Fld.OUT_STAT_VRD 0 else s

/-- Function `f` enters demand (R225) as the channels `c` find: their lines are withdrawn, and KSAFE latches a kernel fault with cause 6. -/
def sfbEnter (s : State) (f : Nat) (c : SfbChannel) : State :=
  let s := ((s.firstSeen f c).setFld (Fld.SFB_STATf_DEMAND f) 1).addSat (Fld.SFB_STATf_DEMCNT f) 1
  let s := s.showSfb
  let s := (s.raiseRec 0x0304 Page.SFB (w32 f) [s.reg (Reg.SFB_STATf f)]).raiseEvt Page.SFB Evt.SFB_DEMAND
  if s.flag (Fld.SFB_CFGf_KSAFE f) then s.enterSafe 6 f (!s.flag (Fld.SFB_CFGf_RESTART f)) else s

/-- A faulted function enters demand if it is not in it (R226). -/
def sfbInto (s : State) (f : Nat) : State :=
  if s.flag (Fld.SFB_STATf_DEMAND f) then s.noteSeen f .both else s.sfbEnter f .both

/-- Function `f` sets FAULT with a cause (R226) and locks out; it enters demand at the same moment if it is not in it. A function that has
FAULT already keeps its first cause, without a second record (DESIGN CHOICE, log entry 74). -/
def sfbFault (s : State) (f cause : Nat) : State :=
  if ¬ s.flag (Fld.SFB_CFGf_EN f) then s else
  if s.flag (Fld.SFB_STATf_FAULT f) then s.sfbInto f else
  let s := ((s.setFld (Fld.SFB_STATf_FAULT f) 1).setFld (Fld.SFB_STATf_FCAUSE f) cause).setFld (Fld.SFB_STATf_LOCKED f) 1
  let s := s.showSfb
  let s := s.raiseRec 0x0305 Page.SFB (w32 f) [s.reg (Reg.SFB_STATf f)]
  let s := if cause = 1 ∨ cause = 2 then s.raiseEvt Page.SFB Evt.SFB_DISC
    else if cause = 6 then s else s.raiseEvt Page.SFB Evt.SFB_TPFAULT
  s.sfbInto f

/-- An input of function `f` shows demand as the comparators read it (R225). -/
def shows (s : State) (f : Nat) (onB : Bool) : Bool :=
  let raw := s.reg Reg.FIO_RAW
  if onB then bit raw (s.fld (Fld.SFB_CFGf_CHB f)) = s.flag (Fld.SFB_CFGf_MODE f)
  else !bit raw (s.fld (Fld.SFB_CFGf_CHA f))

/-! ### Local channels (R208, R213) -/

/-- The committed word of an object, if one has been committed since entry to RUN. -/
def committed? (s : State) (o : Nat) : Option Word := (s.com.applied.find? fun e => e.1 = o).map Prod.snd

/-- The channels that the commit set commands energised (R208): CMD with P1 = 2 for an object bound to the channel. -/
def commandedChannels (s : State) : Word := match s.prog with
  | none => 0
  | some pr => pr.bindings.foldl (fun w b =>
      if bitsOf 31 30 b.2.toNat = 2 ∧ 3 ≤ b.1 / 8192 ∧ s.committed? b.1 = some 2 then putBit w (bitsOf 4 0 b.2.toNat) true else w) 0

/-- The channels of the commit set that are in an output mode, and those that are not (R424). -/
def outputMask (s : State) : Word := (List.range 32).foldl (fun w c => putBit w c (s.isOutput c)) 0

/-- The kernel gives energy (R204, R207, R213): a RUN state, and both heartbeats alternate in antiphase. -/
def energy (s : State) : Bool := s.isRun && !s.pod.hbStopped && s.pod.hbGood

/-- The STATUS contact conducts (R388, R437): in RUN_ACTIVE, and in RUN_STANDBY while the role is STANDBY; in every other state and role,
and from a declared supply loss on, it is open. -/
def statusContact (s : State) : Bool :=
  (s.opState = 5 || (s.opState = 6 && s.role = 3)) && s.boot.holdup.isNone

/-- The CMD word of a downlink (R213). -/
def downlinkCmd (s : State) : Word :=
  if s.energy ∧ ¬ s.flag Fld.TWIN_STAT_RESTRICT then
    s.commandedChannels &&& s.outputMask &&& ~~~(s.reg Reg.OUT_CHFAULT)
  else 0

/-- Put channel `c` into a status (R449); a change to other than 0 raises FIO_FAULT. -/
def chStatus (s : State) (c st : Nat) : State :=
  if s.fld (Fld.FIO_CHc_STATUS c) = st then s else
  let s := s.setFld (Fld.FIO_CHc_STATUS c) st
  if st = 0 then s else s.raiseRec 0x0A01 Page.FIO (w32 c) [s.reg (Reg.FIO_CHc c)]

/-- Channel `c` should carry no energy: commanded off, cut by the SFB, without pump, or off behind the barrier. -/
def shouldBeOff (s : State) (c : Nat) : Bool :=
  !bit (s.reg Reg.OUT_CMD) c || bit s.cutMask c || !s.flag Fld.OUT_STAT_PUMP || bit s.fio.latch c || s.fio.downLost

/-- Channel `c` is STUCK_ON (R213): VF is taken from every local output, and the module enters SAFE_LOCKOUT. -/
def stuckOn (s : State) (c : Nat) : State :=
  let s := (s.setFld Fld.OUT_STAT_STUCK 1).setFld Fld.OUT_STAT_GROUP 0
  let s := s.raiseRec 0x0308 Page.OUT (w32 c) [s.reg Reg.OUT_ACT, 1]
  (s.raiseEvt Page.OUT Evt.OUT_STUCK_ON).enterSafe 7 c false

end State

/-! ### Heartbeats and reservoir (R87, R205, R206) -/

namespace State

/-- A voter makes its transition. Once both have made theirs of an interval the levels show whether they alternate in antiphase; a voter
whose turn comes again before the other's finds the other's heartbeat missing. (DESIGN CHOICE, log entry 75) -/
def toggle (s : State) (voter : Bool) : State :=
  let p := if voter then { s.pod with level2 := !s.pod.level2 } else { s.pod with level1 := !s.pod.level1 }
  match s.pod.hbMark with
  | none => { s with pod := { p with hbMark := some voter } }
  | some v =>
    if v = voter then { s with pod := { p with hbGood := false } }
    else { s with pod := { p with hbMark := none, hbGood := p.level1 != p.level2 } }

/-- The group switch is closed: the pump, VF, and no latch against it. -/
def groupCloses (s : State) : Bool :=
  s.flag Fld.FIO_STAT_VF_OK && !s.flag Fld.FIO_STAT_GRPTRIP && !s.flag Fld.OUT_STAT_STUCK

/-- Pump and VRD follow the heartbeats (R204 to R206); the group switch stays closed until the reservoir has drained. -/
def showEnergy (s : State) : State :=
  if s.energy then
    let s := (s.setFld Fld.OUT_STAT_PUMP 1).setFld Fld.OUT_STAT_MODE 1
    (s.setFld Fld.OUT_STAT_VRD (b2n (!s.vrdCut))).setFld Fld.OUT_STAT_GROUP (b2n s.groupCloses)
  else
    let s := (s.setFld Fld.OUT_STAT_PUMP 0).setFld Fld.OUT_STAT_VRD 0
    if s.isRun then s.setFld Fld.OUT_STAT_MODE 0 else s

end State

/-- HEARTBEAT_TRANSITION (R87): a transition of voter 1 or 2 is due. It is made unless a fault withholds it, and then withheld for
good. -/
def execHeartbeatTransition (voter : Bool) (s : State) : Host.Outcome State Fault Refusal :=
  let st := s.opState
  if ¬ (st = 2 ∨ st = 4 ∨ st = 5 ∨ st = 6 ∨ st = 7 ∨ st = 8) ∨ s.pod.hbStopped then .next s
  else if s.pod.kfault ∨ s.flag Fld.TIME_TBCHK_FAULT then
    let s : State := { s with pod := { s.pod with hbStopped := true } }
    let s := ((s.setFld Fld.VOTE_STAT_HB 0).setFld Fld.OUT_STAT_PUMP 0).setFld Fld.OUT_STAT_VRD 0
    .next (s.raiseEvt Page.VOTE Evt.VOTE_HBSTOP)
  else
    .next ((s.toggle voter).setFld Fld.VOTE_STAT_HB 1).showEnergy

/-- RESERVOIR_DISCHARGED (R205): the pump has stopped, and the gate-drive reservoir has drained: the output switches and the group
switch open. -/
def execReservoirDischarged (s : State) : Host.Outcome State Fault Refusal :=
  if s.flag Fld.OUT_STAT_PUMP then .next s else
  .next ((s.setFld Fld.OUT_STAT_GROUP 0).setReg Reg.OUT_CMD 0)

/-! ### Supervision (R213, R214) -/

/-- READBACK_FAULT (R213): a channel commanded energised, with pump and enable lines, reads below 5 V for 1 ms. -/
def execReadbackFault (c : Fin 32) (s : State) : Host.Outcome State Fault Refusal :=
  if ¬ bit (s.reg Reg.OUT_CMD) c ∨ ¬ s.flag Fld.OUT_STAT_PUMP ∨ bit s.cutMask c ∨ bit (s.reg Reg.OUT_CHFAULT) c then .next s else
  let s := s.setReg Reg.OUT_CHFAULT (putBit (s.reg Reg.OUT_CHFAULT) c true)
  .next ((s.raiseRec 0x0308 Page.OUT (w32 c) [s.reg Reg.OUT_ACT, 2]).raiseEvt Page.OUT Evt.OUT_CHFAULT)

/-- STUCK_ON (R213): a channel that is not to carry energy reads above 5 V for 1 ms; or the group switch or VRD is found not to have opened
(R217). -/
def execStuckOn (x : StuckAt) (s : State) : Host.Outcome State Fault Refusal :=
  match x with
  | .channel c => .next (if s.isOutput c ∧ s.shouldBeOff c then s.stuckOn c else s)
  | .group => .next (if s.flag Fld.OUT_STAT_GROUP then s else s.enterSafe 7 0 false)
  | .vrd => .next (if s.flag Fld.OUT_STAT_VRD then s else s.enterSafe 7 0 false)

/-- OFF_PULSE (R214): the off-pulse of a dark-tested channel at every 4,000th refresh after the one that energised it; `falls` says whether
it read below 5 V within 150 µs. -/
def execOffPulse (c : Fin 32) (falls : Bool) (s : State) : Host.Outcome State Fault Refusal :=
  if ¬ bit s.fio.dark c ∨ falls then .next s
  else .next ((s.raiseEvt Page.OUT Evt.OUT_DARKFAIL).stuckOn c)

/-- CHFAULT_CLEAR (R213): service firmware clears bits of `OUT_CHFAULT`; the channels may follow the commit set again. -/
def execChfaultClear (mask : Word) (s : State) : Host.Outcome State Fault Refusal :=
  .next (s.setReg Reg.OUT_CHFAULT (s.reg Reg.OUT_CHFAULT &&& ~~~mask))

/-! ### Safety function commands (R225, R226) -/

/-- SFB_DEMAND (R225): the filter of an input of function `f` reaches demand in channels of the SFB. -/
def execSfbDemand (f : Fin 8) (x : SfbSight) (s : State) : Host.Outcome State Fault Refusal :=
  if ¬ s.flag (Fld.SFB_CFGf_EN f) then .next s else
  let i := if x.onB then 8 + f.val else f.val
  if s.flag (Fld.SFB_STATf_DEMAND f) then
    .next ((({ s with sfb := { s.sfb with shown := putBit s.sfb.shown i true } } : State).noteSeen f x.seenBy).showSfb)
  else
  let clear := putBit (putBit s.sfb.shown f false) (8 + f) false
  let s : State := { s with sfb := { s.sfb with shown := putBit clear i true, wait := putBit s.sfb.wait f false } }
  .next (s.sfbEnter f x.seenBy)

/-- SFB_DEMAND_END (R225, R226): both inputs show no demand. The demand ends, with a SYNC fault if an input never showed it. -/
def execSfbDemandEnd (f : Fin 8) (s : State) : Host.Outcome State Fault Refusal :=
  if ¬ s.flag (Fld.SFB_STATf_DEMAND f) then .next s else
  let sync := bit s.sfb.shown f && bit s.sfb.shown (8 + f)
  let s := if sync then s else s.sfbFault f 2
  let s := s.setFld (Fld.SFB_STATf_DEMAND f) 0
  let s := if s.flag (Fld.SFB_CFGf_RESTART f) then
      if s.flag (Fld.SFB_STATf_LOCKED f) then s else { s with sfb := { s.sfb with wait := putBit s.sfb.wait f true } }
    else s.setFld (Fld.SFB_STATf_LOCKED f) 1
  .next s.showSfb

/-- SFB_RESET (R225): a function with RESTART = 1 resets after 100 ms without demand. -/
def execSfbReset (f : Fin 8) (s : State) : Host.Outcome State Fault Refusal :=
  if ¬ bit s.sfb.wait f then .next s else
  let s : State := { s with sfb := { s.sfb with wait := putBit s.sfb.wait f false } }
  .next (s.raiseEvt Page.SFB Evt.SFB_RESET)

/-- SFB_DISC_FAULT (R226): the inputs have disagreed about demand for DISC × 10 ms. -/
def execSfbDiscFault (f : Fin 8) (s : State) : Host.Outcome State Fault Refusal := .next (s.sfbFault f 1)

/-- SFB_CHDIFF (R226): SFB-1 and SFB-2 have disagreed for more than 10 ms: every function enters demand with FAULT. -/
def execSfbChdiff (s : State) : Host.Outcome State Fault Refusal :=
  let s := (s.setFld Fld.SFB_STAT_CHDIFF 1).raiseEvt Page.SFB Evt.SFB_CHDIFF
  .next ((List.range 8).foldl (fun s f => s.sfbFault f 6) s)

end Sys2Proof.Machine
end

