-- ==== Sys2Proof/Machine/IveTables.lean ====
section
/-! DEFINITION. The IVE's table image (R173 to R178): its header, route index and entries, conflict matrix, point and binding
tables, and the checks that are made of it at staging. -/

namespace Sys2Proof.Machine

/-- Word `i` of a table image; 0 past its end. -/
def tw (t : List Word) (i : Nat) : Nat := (t.getD i 0).toNat

/-! ### The header (R173) -/

def tblRoutes (t : List Word) : Nat := bitsOf 31 16 (tw t 4)
def tblPoints (t : List Word) : Nat := bitsOf 15 0 (tw t 4)
def tblSignals (t : List Word) : Nat := bitsOf 31 16 (tw t 5)
def tblSections (t : List Word) : Nat := bitsOf 15 0 (tw t 5)
def tblLcs (t : List Word) : Nat := bitsOf 31 16 (tw t 6)
def tblStatusAddr (t : List Word) : Nat := bitsOf 20 0 (tw t 7)
def offRidx (t : List Word) : Nat := bitsOf 19 0 (tw t 8)
def offRdat (t : List Word) : Nat := bitsOf 19 0 (tw t 9)
def offConf (t : List Word) : Nat := bitsOf 19 0 (tw t 10)
def offPnt (t : List Word) : Nat := bitsOf 19 0 (tw t 11)
def offBind (t : List Word) : Nat := bitsOf 19 0 (tw t 12)
def tblLength (t : List Word) : Nat := bitsOf 20 0 (tw t 13)

/-! ### Route entries (R174, R175) -/

/-- The word offset of route `r`'s entry. -/
def routeAt (t : List Word) (r : Nat) : Nat := offRdat t + bitsOf 31 12 (tw t (offRidx t + r))

/-- Word `i` of route `r`'s entry. -/
def rw (t : List Word) (r i : Nat) : Nat := tw t (routeAt t r + i)

def rEntry (t : List Word) (r : Nat) : Nat := bitsOf 31 16 (rw t r 0)
def rCallon (t : List Word) (r : Nat) : Bool := bitsOf 31 31 (rw t r 1) = 1
def rV (t : List Word) (r : Nat) : Nat := bitsOf 23 16 (rw t r 1)
def rS (t : List Word) (r : Nat) : Nat := bitsOf 15 8 (rw t r 1)
def rP (t : List Word) (r : Nat) : Nat := bitsOf 7 0 (rw t r 1)
def rF (t : List Word) (r : Nat) : Nat := bitsOf 31 24 (rw t r 2)
def rL (t : List Word) (r : Nat) : Nat := bitsOf 23 16 (rw t r 2)
def rA (t : List Word) (r : Nat) : Nat := bitsOf 15 8 (rw t r 2)
def rApproach (t : List Word) (r : Nat) : Nat := bitsOf 31 16 (rw t r 3)
def rRelease (t : List Word) (r : Nat) : Nat := bitsOf 15 0 (rw t r 3)

/-- Bit `a` of a 64-bit mask whose low half is word `i` and high half word `i + 1` of the entry. -/
def rMask (t : List Word) (r i a : Nat) : Bool := bitsOf a a (rw t r i + rw t r (i + 1) * 2 ^ 32) = 1

/-- An element (R175): its object, required position, and whether it is SHAREABLE. -/
structure Elem where
  obj : Nat
  pos : Nat
  share : Bool
  flags : Nat
deriving DecidableEq, Repr

/-- The element in word `i` of route `r`'s entry. -/
def rElem (t : List Word) (r i : Nat) : Elem :=
  let w := rw t r i
  ⟨bitsOf 31 16 w, bitsOf 15 8 w, bitsOf 0 0 w = 1, bitsOf 7 0 w⟩

/-- The `n` elements from word `i` on. -/
def rElems (t : List Word) (r i n : Nat) : List Elem := (List.range n).map fun k => rElem t r (i + k)

def pathSections (t : List Word) (r : Nat) : List Elem := rElems t r 8 (rS t r)
def pathPoints (t : List Word) (r : Nat) : List Elem := rElems t r (8 + rS t r) (rP t r)
def flankPoints (t : List Word) (r : Nat) : List Elem := rElems t r (8 + rS t r + rP t r) (rF t r)
def crossings (t : List Word) (r : Nat) : List Elem := rElems t r (8 + rS t r + rP t r + rF t r) (rL t r)
def approachSections (t : List Word) (r : Nat) : List Elem :=
  rElems t r (8 + rS t r + rP t r + rF t r + rL t r) (rA t r)

/-- Where overlap variant `v` begins in route `r`'s entry. -/
def variantAt (t : List Word) (r : Nat) : Nat → Nat
  | 0 => 8 + rS t r + rP t r + rF t r + rL t r + rA t r
  | v + 1 => variantAt t r v + 1 + bitsOf 31 24 (rw t r (variantAt t r v)) + bitsOf 23 16 (rw t r (variantAt t r v))

def rSv (t : List Word) (r v : Nat) : Nat := bitsOf 31 24 (rw t r (variantAt t r v))
def rPv (t : List Word) (r v : Nat) : Nat := bitsOf 23 16 (rw t r (variantAt t r v))
def variantSections (t : List Word) (r v : Nat) : List Elem := rElems t r (variantAt t r v + 1) (rSv t r v)
def variantPoints (t : List Word) (r v : Nat) : List Elem := rElems t r (variantAt t r v + 1 + rSv t r v) (rPv t r v)

/-- Sv + Pv of a route's largest variant (R196). -/
def maxVariant (t : List Word) (r : Nat) : Nat :=
  ((List.range (rV t r)).map fun v => rSv t r v + rPv t r v).foldl Nat.max 0

/-- The words of a route entry (R175). -/
def routeWords (t : List Word) (r : Nat) : Nat := variantAt t r (rV t r)

/-- The conflict bit (r, s) (R176). -/
def conflict (t : List Word) (r s : Nat) : Bool :=
  let wc := (tblRoutes t + 31) / 32
  bitsOf (s % 32) (s % 32) (tw t (offConf t + r * wc + s / 32)) = 1

/-- The track section in which point `p` (an object number) lies (R177). -/
def detection (t : List Word) (p : Nat) : Nat := bitsOf 31 16 (tw t (offPnt t + p % 8192))

/-- The objects of the binding table in its order (R177), with their binding words. -/
def tblBindings (t : List Word) : List (Nat × Word) :=
  let part := fun (cls n first : Nat) =>
    (List.range n).map fun i => (cls * 8192 + i, t.getD (offBind t + first + i) 0)
  let np := tblPoints t
  let ng := tblSignals t
  let ns := tblSections t
  part 1 np 0 ++ part 2 ng np ++ part 3 ns (np + ng) ++ part 4 (tblLcs t) (np + ng + ns)

/-- The length of the status block in words (R195). -/
def statusWords (t : List Word) : Nat :=
  2 + (tblRoutes t + 7) / 8 + (tblPoints t + 7) / 8 + (tblSections t + 15) / 16 + (tblSignals t + 15) / 16 + 128

/-! ### The checks of R178 -/

/-- An object number is defined in the table's counts. -/
def tblDefined (t : List Word) (o : Nat) : Bool := match o / 8192 with
  | 0 => o % 8192 < tblRoutes t
  | 1 => o % 8192 < tblPoints t
  | 2 => o % 8192 < tblSignals t
  | 3 => o % 8192 < tblSections t
  | 4 => o % 8192 < tblLcs t
  | _ => false

/-- An element is a defined object of class `cls`, with a required position for a point, and only the flags allowed. -/
def elemOk (t : List Word) (cls : Nat) (mayShare : Bool) (e : Elem) : Bool :=
  e.obj / 8192 = cls && tblDefined t e.obj && (if cls = 1 then e.pos = 1 || e.pos = 2 else e.pos = 0) &&
    (e.flags = 0 || (mayShare && e.flags = 1))

/-- A route entry holds R174 and R175. -/
def routeOk (t : List Word) (r : Nat) : Bool :=
  let exit := bitsOf 15 0 (rw t r 0)
  rEntry t r / 8192 = 2 && tblDefined t (rEntry t r) &&
  (exit = 0xFFFF || (exit / 8192 = 2 && tblDefined t exit)) &&
  bitsOf 30 24 (rw t r 1) = 0 && bitsOf 7 0 (rw t r 2) = 0 &&
  1 ≤ rV t r && rV t r ≤ 8 && 1 ≤ rS t r && rS t r ≤ 32 && rP t r ≤ 32 && rF t r ≤ 32 && rL t r ≤ 4 && rA t r ≤ 8 &&
  1 ≤ rApproach t r && rApproach t r ≤ 6000 && 1 ≤ rRelease t r && rRelease t r ≤ 3000 &&
  rMask t r 4 0 && (rCallon t r || (rw t r 6 = 0 && rw t r 7 = 0)) &&
  (pathSections t r).all (elemOk t 3 false) && (pathPoints t r).all (elemOk t 1 false) &&
  (flankPoints t r).all (elemOk t 1 false) && (crossings t r).all (elemOk t 4 false) &&
  (approachSections t r).all (elemOk t 3 false) &&
  (List.range (rV t r)).all (fun v =>
    1 ≤ rSv t r v && rSv t r v ≤ 8 && rPv t r v ≤ 8 && bitsOf 15 0 (rw t r (variantAt t r v)) = 0 &&
    (variantSections t r v).all (elemOk t 3 true) && (variantPoints t r v).all (elemOk t 1 false)) &&
  routeWords t r = bitsOf 11 0 (tw t (offRidx t + r)) && routeWords t r ≤ 252

/-- A binding word keeps R172: points and signals are bound to controller elements. -/
def bindOk (pr : Program) (x : Nat × Word) : Bool :=
  let kind := bitsOf 31 30 x.2.toNat
  (pr.bindings.find? (fun b => b.1 = x.1)).map Prod.snd = some x.2 && (2 < x.1 / 8192 || kind = 1)

/-- The symbol covers data SRAM words [a, b) and is a vital IMAGE symbol. -/
def imageCovers (y : Symbol) (w : Nat) : Bool :=
  let per := match y.ty with
    | 1 => 16
    | 2 => 32
    | 3 => 2
    | _ => 1
  let n := if y.array then (y.len + per - 1) / per else 1
  y.image && y.cls = 0 && y.addr ≤ w && w < y.addr + n

/-- The table check of a table image matches (R173, R178). -/
def tablesSound (t : List Word) : Bool := t.getD (t.length - 1) 0 = crc32c (wordsBytes (t.take (t.length - 1)))

/-- A table image with bits of some of its words inverted. -/
def flipWords (t : List Word) (f : List (Nat × Word)) : List Word := f.foldl (fun t x => t.set x.1 (t.getD x.1 0 ^^^ x.2)) t

/-- The checks of R178 in order: the code of the first that fails with its detail. -/
def iveLoadError (pr : Program) (t : List Word) : Option (Nat × Nat) :=
  let n := t.length
  let routes := List.range (tblRoutes t)
  if ¬ tablesSound t then some (1, n - 1)
  else if tw t 0 ≠ 0x49564531 ∨ bitsOf 23 20 (tw t 1) ≠ 9 ∨ bitsOf 23 20 (tw t 1) ≠ pr.famlvl ∨
      bitsOf 19 18 (tw t 1) ≠ pr.seg ∨ bitsOf 31 24 (tw t 1) ≠ pr.compat ∨ 1 < bitsOf 31 24 (tw t 1) then some (2, 0)
  else if t.getD 3 0 ≠ pr.imgId then some (3, 3)
  else if [tblRoutes t, tblPoints t, tblSignals t, tblSections t, tblLcs t] ≠ (pr.objects.take 5) then some (4, 4)
  else match (tblBindings t).find? (fun x => !bindOk pr x) with
  | some x => some (5, x.1)
  | none =>
    match routes.find? (fun r => !(conflict t r r && routes.all (fun q => conflict t r q = conflict t q r))) with
    | some r => some (6, offConf t + r * ((tblRoutes t + 31) / 32))
    | none =>
      match routes.find? (fun r => !routeOk t r) with
      | some r => some (7, r)
      | none =>
        if 1048576 < tblLength t ∨ tblLength t ≠ n ∨ n < offRidx t + tblRoutes t ∨ n < offRdat t ∨
            n < offConf t + tblRoutes t * ((tblRoutes t + 31) / 32) ∨ n < offPnt t + tblPoints t ∨
            n < offBind t + tblPoints t + tblSignals t + tblSections t + tblLcs t ∨
            routes.any (fun r => n < routeAt t r + routeWords t r) then some (8, 13)
        else if (List.range (statusWords t)).all (fun i => (symbolsOf pr).any (fun y => imageCovers y (tblStatusAddr t + i)))
        then none else some (9, 7)

end Sys2Proof.Machine
end

