-- ==== Sys2Proof/Machine/ProgramChecks.lean ====
section
/-! DEFINITION. The staging checks of a program image in the order of R451, the SFB and channel records (R224, R423), and what a
start or a staging makes of the outcome (R135, R178). -/

namespace Sys2Proof.Machine

/-- The value that an image gives a register field. -/
def imgFld (pr : Program) (f : Field) : Nat := match pr.regs.find? (fun x => x.1 = f.addr) with
  | some x => bitsOf f.hi f.lo x.2.toNat
  | none => 0

/-! ### Symbol table (R111, R112) -/

/-- Words of a memory that symbols of a class may lie in. -/
def classWords : Nat → Nat
  | 2 => 2 ^ 16
  | _ => 2 ^ 20

/-- The words that a symbol takes. -/
def symbolSpan (y : Symbol) : Nat :=
  if y.ty = 5 then 2 else if y.array then (y.len + 32 / elemBits y.ty - 1) / (32 / elemBits y.ty) else 1

/-- A symbol's entry keeps R110 to R112 and R118: the identifier is a program symbol's, nothing reserved is set, the words lie in the
memory of its class, and a timer has an owner and a preset. -/
def symbolOk (tasks : List TaskDef) (y : Symbol) : Bool :=
  1 ≤ y.ty && y.ty ≤ 6 && y.cls ≤ 3 && y.rsv = 0 && 1 ≤ y.id && y.id < 0xFFF00 && y.addr + symbolSpan y ≤ classWords y.cls &&
  !(y.array && (y.ty = 5 || y.ty = 6)) && (y.ty != 5 || (1 ≤ y.len && tasks.any (fun t => t.slot = y.owner))) &&
  y.edge ≤ 2 && (y.array || y.ty = 5 || y.len = 0)

/-- The lowest identifier whose entry is invalid or given twice. -/
def symbolError (pr : Program) : Option Nat :=
  let bad := (symbolsOf pr).filter fun y => !symbolOk pr.tasks y || 1 < ((symbolsOf pr).filter fun z => z.id = y.id).length
  (bad.map Symbol.id).min?

/-! ### Code (R104, R106, R107) -/

/-- The bits of an instruction that must be 0 for its opcode, none for an undefined opcode. -/
def mustBeZero (op : Nat) : Option Nat :=
  let r := 0x3F
  let noB := 0xFFF
  if op ∈ [0x01, 0x26, 0x3A, 0x3C] then some noB
  else if op ∈ [0x13, 0x14, 0x20, 0x21, 0x22, 0x23, 0x24, 0x25, 0x28, 0x29, 0x2A, 0x2B, 0x2C, 0x30, 0x31, 0x34, 0x35, 0x38, 0x39,
      0x3B] then some r
  else if op = 0x3D then some 0xFC0FFF
  else if op ∈ [0x02, 0x03, 0x04, 0x27, 0x41, 0x42, 0x43, 0x44, 0x47] then some 0x030000
  else if op = 0x51 then some 0xF00000
  else if op ∈ [0x10, 0x11, 0x12, 0x50, 0x52, 0x53, 0x58] then some 0
  else if op = 0x40 ∨ op = 0x45 then some 0xFF0000
  else if op = 0x46 ∨ op = 0x66 then some 0xFFFFFF
  else if op ∈ [0x60, 0x61, 0x62, 0x63, 0x64, 0x65] then some 0xFFF
  else if op = 0x7E then some 0xFFFF80
  else none

/-- A code word is a defined instruction with nothing in its reserved fields; VCONST takes 1 or 2 only. -/
def codeWordOk (w : Word) : Bool := match mustBeZero (w.toNat / 2 ^ 24) with
  | none => false
  | some m => w.toNat % 2 ^ 24 &&& m = 0 && (w.toNat / 2 ^ 24 != 4 || w.toNat % 65536 = 1 || w.toNat % 65536 = 2)

/-- The word of the code at an offset of the half. -/
def codeAt (pr : Program) (a : Nat) : Word := match pr.code.find? (fun x => x.1 = a) with
  | some x => x.2
  | none => 0

/-- The lowest address in a code range whose word is not an instruction. -/
def codeError (pr : Program) : Option Nat :=
  ((pr.tasks.flatMap fun (t : TaskDef) => (List.range (t.last + 1 - t.first)).map (t.first + ·)).filter
    fun a => !codeWordOk (codeAt pr a)).min?

/-! ### Task table (R119, R123, R124) -/

/-- The slot's task is vital, and an event task. -/
def slotVital (pr : Program) (s : Nat) : Bool := imgFld pr (Fld.TASK_CFGs_VITAL s) = 1
def slotEvent (pr : Program) (s : Nat) : Bool := imgFld pr (Fld.TASK_CFGs_EVENT s) = 1

/-- Ring cycles per vital cycle that the image names. -/
def imgK (pr : Program) : Nat := imgFld pr Fld.PROG_CYCLE_K

/-- One task keeps R119 and R124.  Every timer's owner is a periodic task (R119), so a non-vital timer that an event task owns is refused
with the same code, which R124 names for vital timers only (DEDUCED, log entry 67). -/
def taskOk (pr : Program) (t : TaskDef) : Bool :=
  let c := imgFld pr (Fld.TASK_CFGs_PERIOD t.slot)
  let k := if imgK pr = 0 then 1 else imgK pr
  let ev := slotEvent pr t.slot
  let vital := slotVital pr t.slot
  t.slot < 32 && imgFld pr (Fld.TASK_CFGs_PRESENT t.slot) = 1 &&
  (if t.slot < 8 then vital && !ev else if t.slot < 16 then !vital && !ev else ev) &&
  (ev || (c % k = 0 && 1 ≤ c / k && c / k ≤ 255 && imgFld pr (Fld.TASK_CFGs_PHASE t.slot) < c / k)) &&
  t.first ≤ t.entry && t.entry ≤ t.last &&
  !(pr.tasks.any fun u => u.slot != t.slot && u.first ≤ t.last && t.first ≤ u.last) &&
  (!ev || imgFld pr (Fld.TASK_CFGs_TRIG t.slot) != 0) &&
  (vital || !(pr.tasks.any fun u => slotVital pr u.slot &&
    imgFld pr (Fld.TASK_CFGs_PRIO t.slot) ≤ imgFld pr (Fld.TASK_CFGs_PRIO u.slot))) &&
  !((symbolsOf pr).any fun y => y.ty = 5 && y.owner = t.slot && (ev || (y.cls = 0 && !(vital && c = k)))) &&
  1 ≤ t.maxOps && t.maxOps < 2 ^ 32 && 1 ≤ t.maxTok && t.maxTok ≤ 16383

/-- The lowest slot whose task breaks R124. -/
def taskError (pr : Program) : Option Nat := ((pr.tasks.filter fun t => !taskOk pr t).map TaskDef.slot).min?

/-! ### Cycle parameters (R25, R26, R250) -/

/-- The ring rotation time of `w` windows, ns (R26). -/
def rotationNs (w : Nat) : Nat := (40 + 32 * w) * 80 + (w - 1) * 1000 + w * 500

/-- Unit windows: 1 in a single installation, 2 in a twin (R24, `RSCH_NUNIT`). -/
def unitWindows (twin : Bool) : Nat := if twin then 2 else 1

/-- The longest rotation of the rings that an image uses, with the unit windows that every frame carries (R24, R26). -/
def longestRotation (pr : Program) (twin : Bool) : Nat :=
  ((List.range 4).map fun r =>
    if bitsOf r r (imgFld pr Fld.RSCH_STAT_USED) = 1 then rotationNs (branchControllers pr (r % 2) + unitWindows twin) else 0).foldl
      Nat.max 0

/-- Both rings of a branch are used. -/
def bothRings (pr : Program) : Bool :=
  [0, 1].any fun b => bitsOf b b (imgFld pr Fld.RSCH_STAT_USED) = 1 && bitsOf (b + 2) (b + 2) (imgFld pr Fld.RSCH_STAT_USED) = 1

/-- The cycle parameters keep R25 and R250. -/
def cycleOk (pr : Program) (twin : Bool) : Bool :=
  let tv := imgFld pr Fld.PROG_CYCLE_TV_MS
  let k := imgK pr
  let tr := tv * 1000 / k
  let lc := imgFld pr Fld.PROG_LC_LC
  let skew := imgFld pr Fld.VOTE_SKEW_SKEW
  let rot := longestRotation pr twin
  5 ≤ tv && tv ≤ 200 && (k = 1 || k = 2 || k = 4) && tv * 1000 % k = 0 && 1250 ≤ tr && 50 ≤ lc && lc ≤ tr &&
  rot + 50000 ≤ lc * 1000 && lc + (if twin then 1000 else 500) ≤ tr && 250 ≤ skew && skew ≤ 50000 &&
  (!bothRings pr || (rot + 20000) * 5 ≤ tr * 1000)

/-! ### Capacities, objects and bindings (R3, R21, R23, R236) -/

/-- The capacity of each class of objects (R20). -/
def classCapacity : Nat → Nat
  | 0 => 4096
  | 1 => 2048
  | 2 => 4096
  | 3 => 8192
  | 4 => 128
  | 5 => 4096
  | _ => 0

/-- The words that an image puts into a half of program MRAM, code, constants and tables, and its initial data (R141). -/
def imageWords (pr : Program) : Nat :=
  Nat.max (imgFld pr Fld.PROG_CODESZ_WORDS) ((pr.code.map fun x => x.1 + 1).foldl Nat.max 0) + pr.initial.length

/-- The lowest class with more objects than its capacity; 0xFFFF where the image exceeds a half of program MRAM (R141), for which R135 names
no code (DESIGN CHOICE, log entry 72). -/
def capacityError (pr : Program) : Option Nat :=
  ((List.range 6).find? fun c => classCapacity c < pr.objects.getD c 0).or (if 2 ^ 20 < imageWords pr then some 0xFFFF else none)

/-- The lowest position of a branch that no binding uses, and an object is bound above it: the object. -/
def gapError (pr : Program) (b : Nat) : Option Nat :=
  let used := positionsUsed pr b
  match (List.range 512).find? fun p => !used.contains p with
  | none => none
  | some g => ((pr.bindings.filter fun x =>
      bitsOf 31 30 x.2.toNat = 1 && bitsOf 25 25 x.2.toNat = b && g < bitsOf 24 16 x.2.toNat).map Prod.fst).min?

/-- The lowest object of a reserved class, beyond its class, or above a gap of its branch. -/
def objectError (pr : Program) : Option Nat :=
  let bad := pr.objectNumbers.filter fun o => classCapacity (o / 8192) ≤ o % 8192
  (bad ++ (gapError pr 0).toList ++ (gapError pr 1).toList).min?

/-- The element or channel that a binding word names (R22): the reserved bits do not count. -/
def bindingPlace (w : Word) : Option (Nat × Nat × Nat) := match bitsOf 31 30 w.toNat with
  | 1 => some (1, bitsOf 25 16 w.toNat, bitsOf 4 0 w.toNat)
  | 2 => some (2, 0, bitsOf 4 0 w.toNat)
  | _ => none

/-- A controller has elements 0 to 15 only (R22, R23). -/
def beyondElements (w : Word) : Bool := bitsOf 31 30 w.toNat = 1 && bitsOf 4 4 w.toNat = 1

/-- The lowest object that shares its element or channel with another, or is bound beyond a controller's 16 elements (R23). -/
def sharedError (pr : Program) : Option Nat :=
  ((pr.bindings.filter fun x => beyondElements x.2 || ((bindingPlace x.2).isSome &&
    1 < (pr.bindings.filter fun y => bindingPlace y.2 = bindingPlace x.2).length)).map Prod.fst).min?

/-! ### The checks in order (R451) -/

/-- R133: 200 operations for each microsecond of W = Tv − skew deadline − 200 µs, which is 8 for each tick. -/
def opsBudget (pr : Program) : Nat :=
  8 * (imgFld pr Fld.PROG_CYCLE_TV_MS * 25000 - imgFld pr Fld.VOTE_SKEW_SKEW - 5000)

/-- The code and detail of the first staging check that fails; a family level other than 9 counts with the signature and the seal, for
which R451 gives no row of its own (DESIGN CHOICE, log entry 84); `soundSeal` is the outcome of the seal of the UBC part, whose layout is
the tool's. -/
def stagingError (pr : Program) (soundSeal twin : Bool) : Option (Nat × Nat) :=
  if 1 < pr.compat then some (0x05, pr.compat)
  else if ¬ soundSeal ∨ pr.famlvl ≠ 9 then some (0x06, 0)
  else match symbolError pr with
  | some id => some (0x0A, id % 65536)
  | none => match codeError pr with
  | some a => some (0x0B, a % 65536)
  | none => match taskError pr with
  | some t => some (0x09, t)
  | none =>
    if ¬ cycleOk pr twin then some (0x04, 0)
    else match capacityError pr with
    | some c => some (0x01, c)
    | none => match objectError pr with
    | some o => some (0x02, o)
    | none => match sharedError pr with
    | some o => some (0x03, o)
    | none =>
      if 12288 < (pr.tasks.map TaskDef.maxTok).sum then some (0x07, 0)
      else if opsBudget pr < (pr.tasks.map TaskDef.maxOps).sum then some (0x08, 0)
      else if (iveLoadError pr pr.ive).isSome then some (0x06, 0)
      else none

/-! ### The SFB record and the channel record (R224, R423) -/

/-- The channels of function `f`'s mask. -/
def sfbMask (pr : Program) (f : Nat) : Nat := imgFld pr ⟨Reg.SFB_MASKf f, 31, 0⟩

/-- A channel is configured as an input, or as an output. -/
def chInput (pr : Program) (c : Nat) : Bool := let m := imgFld pr (Fld.FIO_CFGc_MODE c); m = 1 || m = 2
def chOutput (pr : Program) (c : Nat) : Bool := let m := imgFld pr (Fld.FIO_CFGc_MODE c); m = 3 || m = 4

/-- The inputs of an enabled function. -/
def sfbInputs (pr : Program) (f : Nat) : List Nat :=
  if imgFld pr (Fld.SFB_CFGf_EN f) = 1 then [imgFld pr (Fld.SFB_CFGf_CHA f), imgFld pr (Fld.SFB_CFGf_CHB f)] else []

/-- Function `f`'s record keeps R224 and R423. -/
def sfbOk (pr : Program) (f : Nat) : Bool :=
  if imgFld pr (Fld.SFB_CFGf_EN f) = 0 then imgFld pr ⟨Reg.SFB_CFGf f, 31, 0⟩ = 0 && sfbMask pr f = 0
  else
    let ins := sfbInputs pr f
    let d := imgFld pr (Fld.SFB_CFGf_DISC f)
    ins.getD 0 0 != ins.getD 1 0 && ins.all (chInput pr) &&
    !((List.range 8).any fun g => (g != f && (sfbInputs pr g).any (ins.contains ·)) ||
      (ins.any fun c => bitsOf c c (sfbMask pr g) = 1)) &&
    1 ≤ d && d ≤ 200 && !(imgFld pr (Fld.SFB_CFGf_MODE f) = 1 && imgFld pr (Fld.SFB_CFGf_TPSB f) != 0) &&
    ((List.range 32).all fun c => bitsOf c c (sfbMask pr f) = 0 || chOutput pr c)

/-- The functions whose records are faulty. -/
def sfbErrors (pr : Program) : List Nat := (List.range 8).filter fun f => !sfbOk pr f

end Sys2Proof.Machine
end

