-- ==== Sys2Proof/Machine/Recorder.lean ====
section
/-! DEFINITION. The event recorder (R365 to R377): writing records to module MRAM, the streams that follow, losses, and the clear of
the OX7-compatible mode. -/

namespace Sys2Proof.Machine

/-- The slots of the circulating area, and of the root area (R365). -/
def circSlots : Nat := 1032192
def rootSlots : Nat := 16384

namespace State

/-- Replace the recorder area. -/
def setRecorder (s : State) (r : Recorder) : State := { s with nv := { s.nv with recorder := r } }

/-- A RECORDS_LOST record: stream, the losses of classes 1 to 3, and the times of the first and last (R363, R370). -/
def lostRecord (s : State) (stream : Nat) (l : LossAcc) : Rec :=
  ⟨0, 0x0902, Page.EVR, s.now, s.vcyc, w32 (l.c0 + l.c1 + l.c2 + l.c3), w32 stream,
    [w32 l.c1, w32 l.c2, w32 l.c3, w32 l.first, w32 (l.first / 2 ^ 32), w32 l.last, w32 (l.last / 2 ^ 32)], false, true, s.nv.serial, none⟩

/-- The loss record of Q49 stands in its last entry. -/
def q49Gap (s : State) : Bool := match (s.queue 49).entries.getLast? with
  | some e => (match e.body with
    | .record r => r.code = 0x0902 && r.source = 1
    | _ => false)
  | none => false

/-- A record is lost from Q49 (R372): its last free entry takes the loss record, which goes on counting until it is consumed. -/
def q49Lose (s : State) (c : Nat) : State :=
  let s := ((s.addSat Fld.EVR_LOSSQ49_LOST 1).podCount 62 1).raiseEvt Page.EVR Evt.EVR_DROP
  let l := addLoss s.evr.q49loss c s.now
  let s : State := { s with evr := { s.evr with q49loss := l } }
  let r := s.lostRecord 1 (l.getD ⟨0, 0, 0, 0, 0, 0⟩)
  let x := s.queue 49
  if s.q49Gap then
    s.setQueue 49 { x with entries := x.entries.dropLast ++ (x.entries.getLast?.map fun e => { e with body := .record r }).toList }
  else if x.entries.length = 4095 then s.push 49 true (.record r)
  else s

/-- Offer a written record to Q49 (R372). -/
def offerQ49 (s : State) (r : Rec) : State :=
  let n := s.used 49
  let c := codeClass r.code
  if 4095 ≤ n ∨ (3072 ≤ n ∧ 2 ≤ c) then s.q49Lose c
  else s.push 49 true (.record r)

/-- The event ring entry of a record (R319, R373). -/
def recEntry (r : Rec) : EventEntry :=
  ⟨1, BitVec.ofNat 8 (codeClass r.code), 0, 0, 1, w32 (r.code + r.page * 2 ^ 16), r.vcyc, r.time, r.body⟩

/-- Session `i` subscribes to the record's class and area (R373), and the record does not enter its ring by another rule (R350). -/
def subscribes (s : State) (i : Nat) (r : Rec) : Bool :=
  let area := r.code / 256
  bitsOf (codeClass r.code) (codeClass r.code) (s.reg (Reg.EVR_SUBs i)).toNat = 1 &&
    bitsOf (16 + area) (16 + area) (s.reg (Reg.EVR_SUBs i)).toNat = 1 && r.dest != some i

/-- Count a written record in the present second (`EVR_RATE`). -/
def countWritten (s : State) : State :=
  let sec := s.now / 1000000000
  let e := s.evr
  if sec = e.rateSecond then { s with evr := { e with rateCount := e.rateCount + 1 } }
  else
    let last := if sec = e.rateSecond + 1 then Nat.min e.rateCount 65535 else 0
    let s : State := { s with evr := { e with rateSecond := sec, rateCount := 1 } }
    (s.setFld Fld.EVR_RATE_LAST last).raiseMax Fld.EVR_RATE_MAX last

/-- Put a record into the circulating area (R365). `EVR_OLDEST` does not go back to a record that a clear is erasing (R376). -/
def circPut (r : Recorder) (x : Rec) : Recorder :=
  let old := if circSlots ≤ r.circ.length then r.circ.drop 1 else r.circ
  let circ := old ++ [(r.wslot, x)]
  { r with circ := circ, wslot := (r.wslot + 1) % circSlots,
           oldest := if r.circ.isEmpty then x.rseq else if old.length = r.circ.length then r.oldest
             else
               let q := (old.head?.map fun (e : Nat × Rec) => e.2.rseq).getD x.rseq
               if later q r.oldest then q else r.oldest }

/-- Write one record to MRAM (R365, R366) and offer it to the streams. -/
def writeRecord (s : State) (x : Rec) : State :=
  let r := s.nv.recorder
  let s : State :=
    if x.code = 0x0903 then (s.setRecorder { r with root := r.root ++ [x] }).raiseEvt Page.EVR Evt.EVR_ROOTFULL
    else if ¬ x.rootFlag then s
    else if r.root.length < rootSlots - 1 then s.setRecorder { r with root := r.root ++ [x] }
    else if r.rootFull then s
    else (s.setRecorder { r with rootFull := true }).raiseRec 0x0903 Page.EVR 0 [0]
  let s := s.setRecorder (circPut s.nv.recorder x)
  let s := if codeClass x.code = 0 then s.raiseEvt Page.EVR Evt.EVR_CLASS0 else s
  let s := if x.code = 0x0901 ∧ s.evr.clearing = some x.rseq then s.setRecorder { s.nv.recorder with oldest := x.rseq } else s
  let s := (s.podCount 61 1).countWritten
  let s := s.offerQ49 x
  (List.range 16).foldl (fun s i =>
    if s.subscribes i x then s.offer i x.code x.page x.source (recEntry x) (some x.rseq) else s) s

/-- Write the next `n` staged records. -/
def writeStaged_ : Nat → State → State
  | 0, s => s
  | n + 1, s => match s.evr.staging with
    | [] => s
    | x :: rest => writeStaged_ n (writeRecord { s with evr := { s.evr with staging := rest } } x)

/-- Raise the loss record of staging (R370), if anything has been lost since the last. -/
def reportLoss (s : State) : State := match s.evr.loss with
  | none => s
  | some l => { s with evr := { s.evr with loss := none } }.stage (s.lostRecord 0 l)

/-- The flush at supply loss (R371): staged records of classes 1 to 3 are dropped with one loss record, the others written. -/
def flushRecorder (s : State) : State :=
  let drop := s.evr.staging.filter fun r => codeClass r.code != 0
  let s := drop.foldl (fun (s : State) (r : Rec) =>
    let c := codeClass r.code
    let s := (s.addSat (Fld.EVR_LOSSc_LOST c) 1).podCount 62 1
    { s with evr := { s.evr with loss := addLoss s.evr.loss c s.now } }) s
  let s : State := { s with evr := { s.evr with staging := s.evr.staging.filter fun r => codeClass r.code = 0 } }
  let s := s.reportLoss
  writeStaged_ 2049 s

/-- The decision on a REC_CLEAR request (R375), 0 for OK. -/
def recClearCode (s : State) : Nat :=
  if ¬ s.flag Fld.EVR_MODE_OX7 then 0x50
  else if rootSlots ≤ s.nv.recorder.root.length then 0x51
  else if s.evr.clearing.isSome then 0x52
  else 0

/-- The clear begins (R376): the REC_CLEARED record is staged, and `EVR_STAT.CLEARING` shows the erase. -/
def recClear (s : State) (session : Nat) (num : Word) : State :=
  let r := s.nv.recorder
  let first := if r.circ.isEmpty then r.nextSeq else r.oldest
  let s : State := { s with evr := { s.evr with clearing := some r.nextSeq } }
  (s.raiseRec 0x0901 Page.EVR (w32 session) [num, first, r.nextSeq - 1]).setFld Fld.EVR_STAT_CLEARING 1

end State

/-- RECORDER_WRITE (R368): the recorder writes the next `n` staged records, in RSEQ order. -/
def execRecorderWrite (n : Nat) (s : State) : Host.Outcome State Fault Refusal := .next (State.writeStaged_ n s)

/-- RECORDS_LOST_REPORT (R370). -/
def execRecordsLostReport (s : State) : Host.Outcome State Fault Refusal := .next s.reportLoss

/-- RECORDER_ERASE_END (R376): every circulating record older than the REC_CLEARED record has been erased. -/
def execRecorderEraseEnd (s : State) : Host.Outcome State Fault Refusal :=
  match s.evr.clearing with
  | none => .next s
  | some q =>
    if ¬ s.nv.recorder.circ.any (fun e => e.2.rseq = q) then .next s else
    let s := s.setRecorder { s.nv.recorder with circ := s.nv.recorder.circ.filter fun e => e.2.rseq = q || later e.2.rseq q }
    let s : State := { s with evr := { s.evr with clearing := none } }
    .next ((s.setFld Fld.EVR_STAT_CLEARING 0).raiseEvt Page.EVR Evt.EVR_CLEARED)

/-- FIRMWARE_RECORD (R364): service firmware can raise records of this code only. -/
def execFirmwareRecord (_core : Fin 4) (source : Word) (body : List Word) (s : State) : Host.Outcome State Fault Refusal :=
  if s.opState = 0 ∨ s.opState = 9 then .next s else .next (s.raiseRec 0x0F02 Page.EVR source (body.take 7))

end Sys2Proof.Machine
end

