-- ==== Sys2Proof/Machine/Forces.lean ====
section
/-! DEFINITION. Forcing (R157 to R163): the decision of a force request against the active symbol table, and its effect at
tV(n). -/

namespace Sys2Proof.Machine

/-- R157: a symbol that can be forced. -/
def forceable (y : Symbol) : Bool := y.cls = 1 && (y.ty = 2 || y.ty = 3 || y.ty = 4)

/-- R158: a value fits a symbol's type. -/
def forceValueOk (y : Symbol) (v : Word) : Bool :=
  if y.ty = 2 then v = 0 || v = 1
  else if y.ty = 3 then -32768 ≤ v.toInt && v.toInt ≤ 32767
  else true

namespace State

/-- The number of force entries in use, shown in `FORCE_STAT.COUNT`. -/
def showForces (s : State) : State := s.setFld Fld.FORCE_STAT_COUNT s.forceEntries.length

/-- The entry that forces element `e` of symbol `id`. -/
def forced (s : State) (id e : Nat) : Option Nat :=
  s.forceEntries.find? fun i => s.fld (Fld.FORCE_SYMe_SYM i) = id && s.fld (Fld.FORCE_ELEMe_ELEM i) = e

/-- The first row of R158 that a request matches: its outcome code. -/
def forceOutcome (s : State) (op id elem : Nat) (v : Word) : Nat :=
  if op = 3 then 1
  else if op ≠ 1 ∧ op ≠ 2 then 8
  else match s.symbol id with
  | none => 2
  | some y =>
    if op = 2 then (if (s.forced id elem).isSome then 1 else 7)
    else if ¬ forceable y then 3
    else if ¬ (if y.array then elem < y.len else elem = 0) then 4
    else if ¬ forceValueOk y v then 5
    else if (s.forced id elem).isSome then 1
    else if 64 ≤ s.forceEntries.length then 6
    else 1

/-- Empty force entry `e`. -/
def emptyForce (s : State) (e : Nat) : State :=
  (((s.setReg (Reg.FORCE_SYMe e) 0).setReg (Reg.FORCE_ELEMe e) 0).setReg (Reg.FORCE_VALe e) 0).setReg (Reg.FORCE_CYCe e) 0

/-- R160: a forced input that is cleared takes its sampled value. -/
def clearForce (s : State) (e : Nat) : State :=
  let id := s.fld (Fld.FORCE_SYMe_SYM e)
  let elem := s.fld (Fld.FORCE_ELEMe_ELEM e)
  let input := s.flag (Fld.FORCE_SYMe_IMAGE e)
  let s := s.emptyForce e
  let s := match s.symbol id with
    | some y => if input then s.writeElem s.imagePeas y s.cyc.bank elem (s.sampled s.cyc.image y elem) else s
    | none => s
  s.raiseEvt Page.FORCE Evt.FORCE_CLEARED

/-- Put an entry in and write its value (R159). Replacing the value of an entry also clears its CARRIED bit and renews its FORCE_CYC
(DESIGN CHOICE, log entry 70: R158 says only that the entry value is replaced). -/
def setForce (s : State) (e : Nat) (y : Symbol) (elem : Nat) (v : Word) : State :=
  let s := s.setReg (Reg.FORCE_SYMe e) (w32 (2 ^ 31 + y.ty * 2 ^ 28 + b2n y.image * 2 ^ 27 + y.id))
  let s := ((s.setReg (Reg.FORCE_ELEMe e) (w32 elem)).setReg (Reg.FORCE_VALe e) v).setReg (Reg.FORCE_CYCe e) s.vcyc
  (s.writeElem s.serving y s.cyc.bank elem v).raiseEvt Page.FORCE Evt.FORCE_SET

/-- The effect of an accepted request (R158, R159). -/
def applyForce (s : State) (op id elem : Nat) (v : Word) : State :=
  if op = 3 then s.forceEntries.foldl (fun s e => s.clearForce e) s
  else if op = 2 then
    match s.forced id elem with
    | some e => s.clearForce e
    | none => s
  else match s.symbol id with
  | none => s
  | some y =>
    let e := match s.forced id elem with
      | some e => e
      | none => ((List.range 64).find? fun e => !s.flag (Fld.FORCE_SYMe_VALID e)).getD 0
    s.setForce e y elem v

/-- Decide the force request of an image at tV(n), before any release (R158, R159). -/
def decideForce (s : State) (r : ReqRec) : State :=
  let op := (r.params.getD 0 0).toNat
  let id := (r.params.getD 1 0).toNat
  let elem := (r.params.getD 2 0).toNat
  let v := r.params.getD 3 0
  let code := s.forceOutcome op id elem v
  let shown := if op = 1 ∨ op = 2 then id % 2 ^ 20 else 0
  let s := if code = 1 then (s.applyForce op id elem v).showForces
    else (s.addSat Fld.FORCE_REFCNT_COUNT 1).raiseEvt Page.FORCE Evt.FORCE_REFUSED
  let s := s.setReg Reg.FORCE_LAST (w32 (2 ^ 31 + code * 2 ^ 20 + shown))
  let s := s.raiseRec 0x0403 Page.FORCE (w32 shown) [w32 (if op = 1 then 1 else 2), w32 elem, v, w32 code]
  s.respond r.session r.num (if code = 1 then 0 else 0x0F) 0 code

end State

end Sys2Proof.Machine
end

