-- ==== Sys2Proof/Machine/IveOps.lean ====
section
/-! DEFINITION. The IVE's state and what its decisions share (R165 to R201): status predicates, holds, the withdrawal and
reporting of refusals, timers, the status block and the exchange of tables. -/

namespace Sys2Proof.Machine

/-- A route that holds nothing (R179). -/
def freeRoute : RouteSt := ⟨1, 0, 0, false, false, none⟩

/-- A section that no route holds. -/
def freeSection : SectionSt := ⟨none, [], false⟩

/-- A point with no hold, commanded to hold. -/
def freePoint : PointSt := ⟨0, 0, 0, 0, 0⟩

/-- A signal committed at stop. -/
def stopSignal : SignalSt := ⟨0, 0xFFFF, false⟩

namespace Ive

/-- The status code of an object; 0x10 for a LOST entry or one that is not bound. -/
def code (v : Ive) (o : Nat) : Nat := Store.get (fun _ => 0x10) v.status o

def route (v : Ive) (r : Nat) : RouteSt := Store.get (fun _ => freeRoute) v.routes r
def section_ (v : Ive) (o : Nat) : SectionSt := Store.get (fun _ => freeSection) v.sections o
def point (v : Ive) (p : Nat) : PointSt := Store.get (fun _ => freePoint) v.points p
def signal (v : Ive) (g : Nat) : SignalSt := Store.get (fun _ => stopSignal) v.signals g
def setRoute (v : Ive) (r : Nat) (x : RouteSt) : Ive := { v with routes := Store.set (fun _ => freeRoute) v.routes r x }
def setSection (v : Ive) (o : Nat) (x : SectionSt) : Ive := { v with sections := Store.set (fun _ => freeSection) v.sections o x }
def setPoint (v : Ive) (p : Nat) (x : PointSt) : Ive := { v with points := Store.set (fun _ => freePoint) v.points p x }
def setSignal (v : Ive) (g : Nat) (x : SignalSt) : Ive := { v with signals := Store.set (fun _ => stopSignal) v.signals g x }

/-- A route is held (R179): it is not FREE. -/
def held (v : Ive) (r : Nat) : Bool := (v.route r).state != 1

/-! ### Predicates on the field (R170, R171) -/

def clear (v : Ive) (o : Nat) : Bool := v.code o = 5
def occupied (v : Ive) (o : Nat) : Bool := v.code o = 0xA
def lost (v : Ive) (o : Nat) : Bool := v.code o = 0x10
def proven (v : Ive) (o : Nat) : Bool := v.code o = 5
def protected_ (v : Ive) (o : Nat) : Bool := v.code o = 5

/-- Point `p` reads detected in position `q`: 1 normal, 2 reverse. -/
def detected (v : Ive) (p q : Nat) : Bool := (q = 1 && v.code p = 5) || (q = 2 && v.code p = 6)

/-- The point is in motion (R185): it is commanded to a position in which it does not read detected. -/
def inMotion (v : Ive) (p : Nat) : Bool := (v.point p).commanded != 0 && !v.detected p (v.point p).commanded

/-- Point `p` is held opposite to position `q` (R180). -/
def heldOpposite (v : Ive) (p q : Nat) : Bool :=
  let x := v.point p
  if q = 1 then x.routeReverse + x.flankReverse != 0 else x.routeNormal + x.flankNormal != 0

/-! ### Holds -/

/-- Add or remove one route hold of point `p` in position `q`. -/
def routeHold (add : Bool) (v : Ive) (p q : Nat) : Ive :=
  let x := v.point p
  let f := fun n : Nat => if add then n + 1 else n - 1
  v.setPoint p (if q = 1 then { x with routeNormal := f x.routeNormal } else { x with routeReverse := f x.routeReverse })

/-- Add or remove one flank hold of point `p` in position `q`. -/
def flankHold (add : Bool) (v : Ive) (p q : Nat) : Ive :=
  let x := v.point p
  let f := fun n : Nat => if add then n + 1 else n - 1
  v.setPoint p (if q = 1 then { x with flankNormal := f x.flankNormal } else { x with flankReverse := f x.flankReverse })

/-- The points on which a held route can have route holds: path points and those of its locked variant. -/
def routePoints (v : Ive) (r : Nat) : List Elem :=
  pathPoints v.tables r ++ variantPoints v.tables r (v.route r).variant

/-- Path section `o` of route `r` has been freed behind the train (R188). -/
def released (v : Ive) (r o : Nat) : Bool := (v.section_ o).path != some r

/-- Route `r` still has its route hold on point `p`: the hold goes when the point's detection section is freed. -/
def hasHold (v : Ive) (r p : Nat) : Bool :=
  let d := detection v.tables p
  !((pathSections v.tables r).any (fun e => e.obj = d) && v.released r d)

/-- Remove the path hold on section `o`. -/
def freePath (v : Ive) (o : Nat) : Ive := v.setSection o { v.section_ o with path := none, seen := false }

/-- Route `r` becomes FREE (R188): every hold it has is removed. -/
def free (v : Ive) (r : Nat) : Ive :=
  let t := v.tables
  let x := v.route r
  let v := ((routePoints v r).filter (fun e => v.hasHold r e.obj)).foldl (fun v e => routeHold false v e.obj e.pos) v
  let v := if x.flank then (flankPoints t r).foldl (fun v e => flankHold false v e.obj e.pos) v else v
  let v := ((pathSections t r).filter (fun e => !v.released r e.obj)).foldl (fun v e => v.freePath e.obj) v
  let v := (variantSections t r x.variant).foldl (fun v e =>
    v.setSection e.obj { v.section_ e.obj with overlaps := (v.section_ e.obj).overlaps.filter (· != r) }) v
  v.setRoute r freeRoute

/-- Take the holds of a lock (R184). -/
def lock (v : Ive) (r variant : Nat) (req : Word) : Ive :=
  let t := v.tables
  let v := (pathSections t r).foldl (fun v e => v.setSection e.obj { v.section_ e.obj with path := some r, seen := false }) v
  let v := (variantSections t r variant).foldl (fun v e =>
    v.setSection e.obj { v.section_ e.obj with overlaps := (v.section_ e.obj).overlaps ++ [r] }) v
  let v := (pathPoints t r ++ variantPoints t r variant).foldl (fun v e => routeHold true v e.obj e.pos) v
  let v := (flankPoints t r).foldl (fun v e => flankHold true v e.obj e.pos) v
  v.setRoute r ⟨2, variant, req, false, true, none⟩

/-! ### Decisions: the code of the first condition that fails, 0 for none -/

/-- The overlap section `e` of the variant may be held by `r` (R184). -/
def overlapFree (v : Ive) (r : Nat) (e : Elem) : Bool :=
  let x := v.section_ e.obj
  let others := x.overlaps.filter (· != r)
  (x.path = none || x.path = some r) && others.all fun q =>
    e.share && (variantSections v.tables q (v.route q).variant).any fun f => f.obj = e.obj && f.share

/-- R184. -/
def lockCode (v : Ive) (r variant : Nat) : Nat :=
  let t := v.tables
  if ¬ (r < tblRoutes t ∧ variant < rV t r) then 0x01
  else if v.held r then 0x02
  else if (v.routes.map Prod.fst).any (fun q => q != r && conflict t r q) then 0x03
  else if ¬ ((pathSections t r).all (fun e => (v.section_ e.obj).path = none && (v.section_ e.obj).overlaps.all (· = r)) ∧
      (variantSections t r variant).all (v.overlapFree r)) then 0x04
  else if (pathPoints t r ++ variantPoints t r variant).any (fun e => v.heldOpposite e.obj e.pos) then 0x05
  else if (flankPoints t r).any (fun e => v.heldOpposite e.obj e.pos) then 0x06
  else 0

/-- Route `u` holds point `p` in position `q` as a path point, a point of its locked variant or a flank point (R185). -/
def holdsPoint (v : Ive) (u p q : Nat) : Bool :=
  ((v.routePoints u).any fun e => e.obj = p && e.pos = q && v.hasHold u p) ||
    ((v.route u).flank && (flankPoints v.tables u).any fun e => e.obj = p && e.pos = q)

/-- R185. -/
def pointCode (v : Ive) (p q u : Nat) : Nat :=
  let d := detection v.tables p
  if ¬ (u = 0xFFFF ∨ v.held u) then 0x08
  else if ¬ (u = 0xFFFF ∨ v.holdsPoint u p q) then 0x09
  else if v.heldOpposite p q then 0x05
  else if v.lost d then 0x11
  else if ¬ v.clear d then 0x07
  else 0

/-- R186. -/
def signalCode (v : Ive) (g a u : Nat) : Nat :=
  let t := v.tables
  let x := v.route u
  let path := pathSections t u
  let overlap := variantSections t u x.variant
  let exempt := rCallon t u && rMask t u 6 a
  if ¬ (u < tblRoutes t ∧ rEntry t u = g) then 0x09
  else if x.state ≠ 2 then 0x08
  else if ¬ rMask t u 4 a then 0x0A
  else if ¬ v.proven g then 0x0E
  else if (path ++ overlap).any (fun e => v.lost e.obj) then 0x11
  else if ¬ (overlap.all (fun e => v.clear e.obj) ∧ (exempt ∨ path.all (fun e => v.clear e.obj))) then 0x07
  else if ¬ ((v.routePoints u).all (fun e => (v.point e.obj).commanded = e.pos && v.detected e.obj e.pos) ∧
      (flankPoints t u).all (fun e => v.detected e.obj e.pos)) then 0x0B
  else if ¬ (crossings t u).all (fun e => v.protected_ e.obj) then 0x0C
  else 0

/-- The tests of R188 that every RELEASE token meets; `waits` says that an accepted proceed for the entry signal waits. -/
def releaseCode (v : Ive) (r : Nat) (waits : Bool) : Nat :=
  let t := v.tables
  if ¬ r < tblRoutes t then 0x01
  else if ¬ v.held r then 0x08
  else if (v.signal (rEntry t r)).aspect ≠ 0 ∨ waits then 0x0D
  else 0

/-- The conditions of mode NORMAL (R188) with element position `e`. -/
def normalCode (v : Ive) (r e : Nat) : Nat :=
  let t := v.tables
  let path := pathSections t r
  let obj := fun i => (rElem t r (8 + i)).obj
  if (v.route r).state ≠ 3 then 0x08
  else if ¬ (e < rS t r ∧ (path.take e).all (fun x => v.released r x.obj)) then 0x0F
  else if ¬ ((v.section_ (obj e)).path = some r ∧ (v.section_ (obj e)).seen = true ∧ v.clear (obj e)) then 0x0F
  else if ¬ (e + 1 = rS t r ∨ v.occupied (obj (e + 1))) then 0x0F
  else 0

/-- The cycles a preset of `p` units of 100 ms counts (R189). -/
def presetCycles (p tv : Nat) : Nat := (p * 100 + tv - 1) / (if tv = 0 then 1 else tv) + 1

/-- Put route `r` into a state with a timer started in cycle `n`. -/
def startTimer (v : Ive) (r st : Nat) (n : Word) (cycles : Nat) : Ive :=
  v.setRoute r { v.route r with state := st, timer := some (n, n + w32 cycles) }

/-- The effect of an accepted NORMAL release (R188). -/
def releaseNormal (v : Ive) (r e : Nat) (n : Word) (tv : Nat) : Ive :=
  let t := v.tables
  let o := (rElem t r (8 + e)).obj
  let pts := (v.routePoints r).filter fun x => detection t x.obj = o
  let v := pts.foldl (fun v x => routeHold false v x.obj x.pos) v
  let v := v.freePath o
  if e + 1 = rS t r then
    let v := if (v.route r).flank then (flankPoints t r).foldl (fun v x => flankHold false v x.obj x.pos) v else v
    (v.setRoute r { v.route r with flank := false }).startTimer r 5 n (presetCycles (rRelease t r) tv)
  else v

/-- CANCEL frees the route at once (R188): it was never cleared, or every approach and path section reads CLEAR. -/
def cancelFree (v : Ive) (r : Nat) : Bool :=
  !(v.route r).cleared || (approachSections v.tables r ++ pathSections v.tables r).all fun e => v.clear e.obj

/-- R181: the image of a cycle is taken. -/
def takeImage (v : Ive) : Ive :=
  let v := (v.sections.map Prod.fst).foldl (fun v o =>
    if (v.section_ o).path.isSome ∧ v.occupied o then v.setSection o { v.section_ o with seen := true } else v) v
  (v.routes.map Prod.fst).foldl (fun v r =>
    let x := v.route r
    if ((x.state = 2 ∧ x.cleared = true) ∨ x.state = 4) ∧ v.occupied (rElem v.tables r 8).obj then
      v.setRoute r { x with state := 3, timer := none }
    else v) v

/-! ### The status block (R195) -/

/-- Pack values of `b` bits each, lowest first, into words. -/
def packWords (b : Nat) : Nat → List Nat → List Word
  | 0, _ => []
  | fuel + 1, vs =>
    match vs with
    | [] => []
    | _ => w32 ((vs.take (32 / b)).foldr (fun x a => a * 2 ^ b + x % 2 ^ b) 0) :: packWords b fuel (vs.drop (32 / b))

/-- The two words of a refusal-list entry. -/
def refusalWords (x : Refused) : List Word :=
  [w32 (x.object * 65536 + x.code * 256 + b2n x.withdrawal * 128 + x.kind * 16), x.p1]

/-- The status block of cycle `n`. -/
def statusBlock (v : Ive) (n : Word) : List Word :=
  let t := v.tables
  let pack := fun b vs => packWords b (vs.length + 1) vs
  let routes := (List.range (tblRoutes t)).map fun r => (v.route r).state
  let points := (List.range (tblPoints t)).map fun i =>
    let x := v.point (8192 + i)
    b2n (x.routeNormal != 0) + 2 * b2n (x.routeReverse != 0) + 4 * b2n (x.flankNormal + x.flankReverse != 0) +
      8 * b2n (v.inMotion (8192 + i))
  let sections := (List.range (tblSections t)).map fun i =>
    let x := v.section_ (24576 + i)
    if x.path.isSome then 1 else if x.overlaps.isEmpty then 0 else 2
  let signals := (List.range (tblSignals t)).map fun i =>
    let x := v.signal (16384 + i)
    if x.withdrawn then 2 else if x.aspect != 0 then 1 else 0
  let list := v.refusals.take 64
  [n, w32 (Nat.min v.refCount 65535 * 65536 + Nat.min v.wdrCount 255 * 256 + list.length)] ++
    pack 4 routes ++ pack 4 points ++ pack 2 sections ++ pack 2 signals ++
    (list.flatMap refusalWords ++ List.replicate (128 - 2 * list.length) 0)

end Ive

namespace State

/-- Replace the IVE. -/
def setIve (s : State) (v : Ive) : State := { s with ive := v }

/-- Show the held routes and running timers (`IVE_HOLD`). -/
def showHold (s : State) : State :=
  let n := (s.ive.routes.filter (fun e => e.2.timer.isSome)).length
  s.setReg Reg.IVE_HOLD (w32 (s.ive.routes.length * 65536 + n))

/-- A token of `kind` for signal `g` asks for a proceed aspect. -/
def isProceed (g : Nat) (t : Released) : Bool :=
  tagKind t.tag = 2 && bitsOf 31 16 t.p0.toNat = g && bitsOf 15 8 t.p0.toNat != 0

/-- An accepted proceed for signal `g` waits in the commit buffer. -/
def proceedWaits (s : State) (g : Nat) : Bool := s.com.buffer.any (isProceed g)

/-- Add an entry to the refusal list of the cycle (R195); beyond 64, `IVE_EVT.LIST_FULL`. -/
def listRefusal (s : State) (x : Refused) : State :=
  let full := 64 ≤ s.ive.refusals.length
  let s := s.setIve { s.ive with refusals := s.ive.refusals ++ [x] }
  if full then s.raiseEvt Page.IVE Evt.IVE_LIST_FULL else s

/-- R193: report a refusal, with whether it causes a withdrawal. -/
def reportRefusal (s : State) (kind object code : Nat) (p1 : Word) (wdr : Bool) : State :=
  let s := s.listRefusal ⟨object, code, false, kind, p1⟩
  let s := s.setIve { s.ive with refCount := s.ive.refCount + 1 }
  let s := (s.refusalRecord object kind code p1).addSat Fld.IVE_REFTOT_REFTOT 1
  let s := s.setReg Reg.IVE_LASTREF (w32 (2 ^ 31 + b2n wdr * 2 ^ 30 + kind * 2 ^ 27 + code * 65536 + object))
  let s := (s.setReg Reg.IVE_LASTREQ p1).setReg Reg.IVE_LASTCYC s.vcyc
  s.raiseEvt Page.IVE Evt.IVE_REFUSED

/-- R187: a refused proceed withdraws a signal that shows or awaits proceed. -/
def withdraw (s : State) (g code : Nat) (p1 : Word) : State :=
  let s := { s with com := { s.com with buffer := s.com.buffer.filter (fun t => !isProceed g t) } }
  let s := s.showBuffer
  let s := s.setIve { s.ive with stops := s.ive.stops.filter (· != g) ++ [g], wdrCount := s.ive.wdrCount + 1 }
  let s := (s.listRefusal ⟨g, code, true, 2, p1⟩).addSat Fld.IVE_WDRTOT_WDRTOT 1
  (s.raiseRec 0x0202 Page.IVE (w32 g) [w32 code, p1]).raiseEvt Page.IVE Evt.IVE_WITHDRAWN

/-- A decision takes its time (R196): at most 120 ns + 20 ns × `w`; the time itself is a free value. -/
def checkTime (s : State) (kind w : Nat) (full : Bool) : State :=
  let v := s.ive
  let ns := Nat.min (Config.iveCheckNs v.decided).toNat (120 + 20 * w)
  let s := s.podCount (if full then 21 else 22) 1
  s.setIve { v with decided := v.decided + 1, busyNs := v.busyNs + ns, fullCount := v.fullCount + b2n full,
                    checkMax := Nat.max v.checkMax ns, checkKind := if v.checkMax < ns then kind else v.checkKind }

/-- Stamp the open sample of a token the IVE has decided (R383): 1 accepted, 2 refused with its code. -/
def sampleIve (s : State) (t : Released) (out code : Nat) : State :=
  let now := w32 s.phase
  let f : Sample → Sample := fun z =>
    if z.emitted ∧ ¬ z.iveDone ∧ z.tag = t.tag then
      { z with iveDone := true, iveEnd := now, iveOut := BitVec.ofNat 8 out, refusal := BitVec.ofNat 8 code }
    else z
  { s with pmon := { s.pmon with samples := s.pmon.samples.map (Option.map f) } }

/-- An accepted token enters the commit buffer (R165). -/
def iveAccept (s : State) (t : Released) : State := (s.sampleIve t 1 0).bufferToken t

/-- A refused token is discarded and reported; a refused proceed may withdraw its signal. -/
def iveRefuse (s : State) (t : Released) (code : Nat) : State :=
  let kind := tagKind t.tag
  let o := bitsOf 31 16 t.p0.toNat
  let asks := kind = 2 && bitsOf 15 8 t.p0.toNat != 0
  let wdr := asks && ((s.ive.signal o).aspect != 0 || s.proceedWaits o)
  let s := ((s.sampleIve t 2 code).podCount 23 1).reportRefusal kind o code t.p1 wdr
  if wdr then (s.withdraw o code t.p1).podCount 24 1 else s

/-- The token at the IVE's input, if it is the turn of one for which `want` holds. -/
def iveHead (s : State) (want : Released → Bool) : Option Released :=
  match s.com.iveIn with
  | t :: _ => if want t ∧ ¬ s.pod.kfault then some t else none
  | [] => none

/-- Take the head token off the IVE's input. -/
def iveTake (s : State) : State := { s with com := { s.com with iveIn := s.com.iveIn.tail } }

/-- A point token or a signal token gets the light check (R183). -/
def lightToken (s : State) (t : Released) : Bool :=
  let o := bitsOf 31 16 t.p0.toNat
  let q := bitsOf 15 8 t.p0.toNat
  (tagKind t.tag = 1 && (q = 0 || (q = (s.ive.point o).commanded && s.ive.detected o q))) || (tagKind t.tag = 2 && q = 0)

/-- Single-bit errors of the IVE's words that were corrected (R167). -/
def iveCorrected (s : State) (n : Nat) : State :=
  if n = 0 then s else (s.addSat Fld.IVE_SCRUB_CORR n).raiseEvt Page.IVE Evt.IVE_SCRUB_CORR

/-- The state digests of the two halves have come apart (R201). -/
def iveApart (s : State) (x : Bool) : State := if x then s.setIve { s.ive with apart := true } else s

/-- The frame of an IVE decision: the head token if it is of the command's kind, and what the halves find while deciding it
(R166, R167). The voters then release what waited behind it (R197). -/
def iveDecide (s : State) (want : Released → Bool) (h : IveCheck) (body : Released → State → State) : State :=
  match s.iveHead want with
  | none => s
  | some t =>
    match h with
    | .agree n x => (body t ((s.iveTake.iveCorrected n).iveApart x)).settle
    | .differ => s.iveFault 1 0
    | .badTable half => s.iveFault 2 half
    | .badState half => s.iveFault 3 half

/-- R190 step 3: expire the timers that are due at `n + 1`, at most 8, in route number order. -/
def expireTimers (s : State) : State :=
  if s.ive.expired then s else
  let s := s.setIve { s.ive with expired := true }
  let due := (s.ive.routes.filter fun e => match e.2.timer with
    | some x => !later x.2 (s.vcyc + 1)
    | none => false).map Prod.fst
  let s := (due.take 8).foldl (fun s r =>
    let st := (s.ive.route r).state
    (((s.setIve (s.ive.free r)).raiseRec 0x0204 Page.IVE (w32 r) [w32 st]).raiseEvt Page.IVE Evt.IVE_TIMER_EXPIRED).podCount 25 1) s
  let s := if 8 < due.length then (s.raiseEvt Page.IVE Evt.IVE_EXPIRY_DEFER).podCount 26 (due.length - 8) else s
  s.showHold

/-- R201: the digest of the IVE state, as at C(n). -/
def iveDigestNow (s : State) : State := s.setIve { s.ive with digest := s.ive.storeDigest fun _ => true }

/-- The status of every object that the binding table names, from an image (R169, R170). -/
def imageStatus (t : List Word) (img : Image) : Store Nat :=
  (tblBindings t).foldl (fun st x =>
    let w := x.2.toNat
    let kind := bitsOf 31 30 w
    let c : Nat :=
      if kind = 1 then
        match img.entries.find? (fun e => e.addr = bitsOf 25 16 w) with
        | some e => if e.lost then 0x10 else bitsOf (4 * bitsOf 4 0 w + 3) (4 * bitsOf 4 0 w) e.status.toNat
        | none => 0x10
      else if kind = 2 then
        let ch := bitsOf 4 0 w
        if img.localLost.getLsbD ch then 0x10 else if img.localIn.getLsbD ch then 5
        else if x.1 / 8192 = 1 then 6 else 0xA
      else 0x10
    Store.set (fun _ => 0x10) st x.1 c) []

/-- The points that a held route holds, by its route holds and its flank holds. -/
def pointsHeld (s : State) (r : Nat) : List Elem :=
  ((s.ive.routePoints r).filter fun e => s.ive.hasHold r e.obj) ++ (if (s.ive.route r).flank then flankPoints s.ive.tables r else [])

/-- The sections, signals and level crossings that a route's entry names. -/
def objectsNamed (t : List Word) (r : Nat) : List Nat :=
  let exit := bitsOf 15 0 (rw t r 0)
  ((List.range (rV t r)).flatMap (fun v => variantSections t r v) ++ pathSections t r ++ approachSections t r ++ crossings t r).map
    Elem.obj ++ rEntry t r :: (if exit = 0xFFFF then [] else [exit])

/-- R199: every held route exists in new tables `t'` with what R199 names unchanged. -/
def exchangeKeepsRoutes (s : State) (t' : List Word) : Bool :=
  let t := s.ive.tables
  let held := s.ive.routes.map Prod.fst
  let bind := fun (u : List Word) o => (tblBindings u).find? (fun b => b.1 = o)
  let pointWord := fun (u : List Word) p => tw u (offPnt u + p % 8192)
  held.all fun r =>
    r < tblRoutes t' && [rw t r 0, rw t r 1, rw t r 2] = [rw t' r 0, rw t' r 1, rw t' r 2] &&
    routeWords t r = routeWords t' r && (List.range (routeWords t r - 8)).all (fun i => rw t r (8 + i) = rw t' r (8 + i)) &&
    held.all (fun q => q = r || !conflict t' r q) &&
    (s.pointsHeld r).all (fun e => pointWord t e.obj = pointWord t' e.obj && bind t e.obj = bind t' e.obj) &&
    (objectsNamed t r).all (fun o => bind t o = bind t' o)

/-- R198, R200: the halves switch to the staged tables; running timers get one cycle more and the new presets. -/
def switchTables (s : State) : State :=
  match s.ive.staged with
  | none => s
  | some t' =>
    let old := s.ive.tables
    let v := { s.ive with tables := t', staged := some old }
    let fix := fun (e : Nat × RouteSt) => match e.2.timer with
      | some (a, _) =>
        let p := if e.2.state = 5 then rRelease t' e.1 else rApproach t' e.1
        (e.1, { e.2 with timer := some (a, a + w32 (Ive.presetCycles p s.tvMs + 1)) })
      | none => e
    let s := s.setIve { v with routes := v.routes.map fix }
    let s := (s.setReg Reg.IVE_TBLID (t'.getD 2 0)).setReg Reg.IVE_TBLCHK (t'.getD (t'.length - 1) 0)
    (s.setFld Fld.IVE_STAT_BANK (1 - s.fld Fld.IVE_STAT_BANK)).setFld Fld.IVE_STAT_STAGED 0

end State

end Sys2Proof.Machine
end

