-- ==== Sys2Proof/Machine/UbcEmit.lean ====
section
/-! DEFINITION. UBC: token emission, END, and what follows the end of a release (R46, R59, R74, R121, R127, R128). -/

namespace Sys2Proof.Machine

/-- EMIT.CMD. -/
def execEmitCmd (p : PeaId) (w : BitVec 24) (s : State) : Host.Outcome State Fault Refusal :=
  runInstr p 0x60 4 (zero w 11 0) (fun x => ubcEmit p x 0 w) s

/-- EMIT.POINT. -/
def execEmitPoint (p : PeaId) (w : BitVec 24) (s : State) : Host.Outcome State Fault Refusal :=
  runInstr p 0x61 4 (zero w 11 0) (fun x => ubcEmit p x 1 w) s

/-- EMIT.SIGNAL. -/
def execEmitSignal (p : PeaId) (w : BitVec 24) (s : State) : Host.Outcome State Fault Refusal :=
  runInstr p 0x62 4 (zero w 11 0) (fun x => ubcEmit p x 2 w) s

/-- EMIT.LOCK. -/
def execEmitLock (p : PeaId) (w : BitVec 24) (s : State) : Host.Outcome State Fault Refusal :=
  runInstr p 0x63 4 (zero w 11 0) (fun x => ubcEmit p x 3 w) s

/-- EMIT.RELEASE. -/
def execEmitRelease (p : PeaId) (w : BitVec 24) (s : State) : Host.Outcome State Fault Refusal :=
  runInstr p 0x64 4 (zero w 11 0) (fun x => ubcEmit p x 4 w) s

/-- EMIT.HRES. -/
def execEmitHres (p : PeaId) (w : BitVec 24) (s : State) : Host.Outcome State Fault Refusal :=
  runInstr p 0x65 4 (zero w 11 0) (fun x => ubcEmit p x 5 w) s

namespace State

/-- A task's working registers are 0 at its release (R46). -/
def clearRegs (s : State) (p : PeaId) (slot : Nat) : State :=
  s.setPea p ((List.range 64).foldl (fun x i => peaPut p x .ctx (slot * 64 + i) 0) (s.pea p))

/-- R74, R93: the DIGEST token of cycle `n`, with DIG as it stands. -/
def emitDigest (s : State) (p : PeaId) : State :=
  let x := s.pea p
  let s := s.setPea p { x with digestDue := false }
  pushToken s p (w32 (7 * 2 ^ 24 + s.vcyc.toNat % 2 ^ 24)) (x.dig.extractLsb' 32 32) (x.dig.extractLsb' 0 32)

/-- R59: the pea has no released task pending: the completion time and the margin are stamped, its DIGEST token goes out, and
it waits for the next release. -/
def goIdle (s : State) (p : PeaId) : State :=
  let n := peaNum p
  let s := s.setPeaState p 2
  let s := s.setPea p { s.pea p with doneTick := some s.phase }
  if (s.pea p).digestDue then
    let tv := s.fld Fld.PROG_CYCLE_TV_MS * 25000
    let d : Int := (tv : Int) - (s.fld Fld.VOTE_SKEW_SKEW : Int) - 5000
    let ovr := d < (s.phase : Int)
    let m : Int := if ovr then 0 else d - (s.phase : Int)
    let s := s.setReg (Reg.PEA_x_CMPL n) (w32 (2 ^ 31 + b2n ovr * 2 ^ 30 + s.phase % 2 ^ 23))
    let s := s.setReg (Reg.PEA_x_MARGIN n) (BitVec.ofInt 32 m)
    let s := if m < (s.reg (Reg.PEA_x_MARGINMIN n)).toInt then s.setReg (Reg.PEA_x_MARGINMIN n) (BitVec.ofInt 32 m) else s
    s.emitDigest p
  else s

/-- R77: a pea whose delay register holds 24 tokens or more is HELD, else it runs. -/
def runOrHold (s : State) (p : PeaId) : State :=
  if s.peaState p = 4 then s
  else if 24 ≤ (s.pea p).dr.length then holdPea s p 0
  else s.setPeaState p 3

/-- R127 step 5, R128: the next release in order begins; a pea with none left becomes idle. -/
def startNext (s : State) (p : PeaId) : State :=
  match (s.pea p).queue with
  | [] => s.goIdle p
  | r :: rest =>
    let s := s.setPea p { s.pea p with cur := some r, queue := rest }
    let s := (s.clearRegs p r.slot).setReg (Reg.PEA_x_CYCLE (peaNum p)) r.cycle
    let s := s.peaCount (peaNum p) 4 1
    s.runOrHold p

end State

/-- END: emit the END token (P0 the cycle of the release, P1 its operations) and end the release; a and b are 0. -/
def execEndOp (p : PeaId) (w : BitVec 24) (s : State) : Host.Outcome State Fault Refusal :=
  match (s.pea p).cur with
  | none => .next s
  | some x =>
    if ¬ mayRun s p 2 then .next s else
    let (s, ok) := fetchWord s p x
    if ¬ ok then .next s else
    let s := sampleTry s p x 0x66
    if ¬ zero w 23 0 then .next (s.trapPea p x.slot x.pc 0x02)
    else if maxOps s x.slot < x.ops + 4 then .next (s.trapPea p x.slot x.pc 0x11)
    else
      let n := peaNum p
      let s := emitToken s p x 6 x.cycle (w32 (Nat.min (x.ops + 4) 0xFFFFFFFF))
      if ¬ s.inService p then .next s else
      let y := s.pea p
      let s := s.setPea p { y with cur := none, opsCycle := y.opsCycle + 4 }
      let t := w32 s.phase
      let s := s.sample p fun z => if z.addr = w32 x.pc ∧ z.execEnd = 0xFFFFFFFF then { z with execEnd := t } else z
      .next (((s.peaCount n 1 1).peaCount n 2 4).startNext p)

end Sys2Proof.Machine
end

