-- ==== Sys2Proof/Machine/UbcFlow.lean ====
section
/-! DEFINITION. UBC: branches, traps, timers and edge detectors (R107, R109, R118 to R120, R122). -/

namespace Sys2Proof.Machine

/-- BR: branch; a is 0. -/
def execBr (p : PeaId) (w : BitVec 24) (s : State) : Host.Outcome State Fault Refusal :=
  runInstr p 0x40 1 (zero w 23 16) (fun x => ubcBranch p x w true) s

/-- BT: branch if a is true. -/
def execBt (p : PeaId) (w : BitVec 24) (s : State) : Host.Outcome State Fault Refusal :=
  runInstr p 0x41 1 (zero w 17 16) (fun x => ubcVital p x (opD w) fun a => ubcBranch p x w a) s

/-- BF: branch if a is false. -/
def execBf (p : PeaId) (w : BitVec 24) (s : State) : Host.Outcome State Fault Refusal :=
  runInstr p 0x42 1 (zero w 17 16) (fun x => ubcVital p x (opD w) fun a => ubcBranch p x w (!a)) s

/-- BNZ: branch if a ≠ 0. -/
def execBnz (p : PeaId) (w : BitVec 24) (s : State) : Host.Outcome State Fault Refusal :=
  runInstr p 0x43 1 (zero w 17 16) (fun x => ubcReg p x (opD w) fun a => ubcBranch p x w (a != 0)) s

/-- BZ: branch if a = 0. -/
def execBz (p : PeaId) (w : BitVec 24) (s : State) : Host.Outcome State Fault Refusal :=
  runInstr p 0x44 1 (zero w 17 16) (fun x => ubcReg p x (opD w) fun a => ubcBranch p x w (a = 0)) s

/-- The target of a branch is legal (R109). -/
def targetOk (s : State) (x : Release) (w : BitVec 24) : Bool :=
  let t := branchTarget x.pc w
  0 ≤ t && inCode s x.slot t.toNat

/-- CALL: w63 ← address of the next instruction; branch; a is 0. -/
def execCall (p : PeaId) (w : BitVec 24) (s : State) : Host.Outcome State Fault Refusal :=
  runInstr p 0x45 1 (zero w 23 16) (fun x s =>
    ubcCheck (targetOk s x w) 0x08 (ubcPut p x 63 (w32 (x.pc + 1)) (ubcBranch p x w true)) s) s

/-- RET: branch to the address in w63; a and offset are 0. -/
def execRet (p : PeaId) (w : BitVec 24) (s : State) : Host.Outcome State Fault Refusal :=
  runInstr p 0x46 1 (zero w 23 0) (fun x => ubcReg p x 63 fun v s =>
    if inCode s x.slot v.toNat then .done (s.peaCount (peaNum p) 6 1) (some v.toNat) else .trap s 0x08) s

/-- LOOP: a ← a − 1; branch if a > 0, signed. -/
def execLoop (p : PeaId) (w : BitVec 24) (s : State) : Host.Outcome State Fault Refusal :=
  runInstr p 0x47 1 (zero w 17 16) (fun x => ubcReg p x (opD w) fun a s =>
    ubcCheck (targetOk s x w) 0x08
      (ubcPut p x (opD w) (sat32 (a.toInt - 1)) (ubcBranch p x w (0 < (sat32 (a.toInt - 1)).toInt))) s) s

/-- TRAP: trap with cause 0x80 + imm; d is 0; imm ≤ 0x007F. -/
def execTrap (p : PeaId) (w : BitVec 24) (s : State) : Host.Outcome State Fault Refusal :=
  runInstr p 0x7E 1 (zero w 23 16 && zero w 15 7) (fun _ => ubcTrap (0x80 + (opImm w).toNat)) s

/-- The opcodes of R107. -/
def definedOpcode (o : Nat) : Bool :=
  (1 ≤ o && o ≤ 4) || (0x10 ≤ o && o ≤ 0x14) || (0x20 ≤ o && o ≤ 0x2C) || o = 0x30 || o = 0x31 || o = 0x34 || o = 0x35 ||
  (0x38 ≤ o && o ≤ 0x3D) || (0x40 ≤ o && o ≤ 0x47) || (0x50 ≤ o && o ≤ 0x53) || o = 0x58 || (0x60 ≤ o && o ≤ 0x66) || o = 0x7E

/-- R106: a fetched word whose opcode is not in the table traps with OPC. A word whose opcode is in the table is not this
command's: nothing happens. -/
def execUndefinedOpcode (p : PeaId) (w : Word) (s : State) : Host.Outcome State Fault Refusal :=
  if definedOpcode (w.toNat / 2 ^ 24) then .next s else
  match (s.pea p).cur with
  | none => .next s
  | some x =>
    if ¬ mayRun s p 1 then .next s else
    let (s, ok) := fetchWord s p x
    .next (if ok then s.trapPea p x.slot x.pc 0x01 else s)

/-! ### Timers (R118, R119) -/

/-- The words of a timer are sound: a state code of R118, and word 1 [31:24] zero. -/
def timerOk (w0 w1 : Word) : Bool :=
  (bitsOf 31 24 w0.toNat = 0x3C || bitsOf 31 24 w0.toNat = 0x69 || bitsOf 31 24 w0.toNat = 0x96) && bitsOf 31 24 w1.toNat = 0

/-- Access a timer symbol: SYM, TYPE and TIMER checks; the continuation gets its address and its two words. -/
def ubcTimer (p : PeaId) (x : Release) (w : BitVec 24) (pre : Symbol → UbcK → UbcK)
    (k : Symbol → Nat → Word → Word → UbcK) : UbcK :=
  ubcSym (opSym w) fun y => ubcCheck (y.ty = 5) 0x04 (pre y fun s =>
    ubcRead p (classMem y.cls) (s.symAddr y x.bank 0) (fun w0 =>
      ubcRead p (classMem y.cls) (s.symAddr y x.bank 1) fun w1 =>
        ubcCheck (timerOk w0 w1) 0x0F (k y (s.symAddr y x.bank 0) w0 w1)) s)

/-- R117: TSTART, TSTOP and EDGE on a vital symbol need a vital task; they write the symbol, so one that is a constant or an IMAGE symbol
traps as a store to it does (DEDUCED, log entry 83). -/
def ubcClass (x : Release) (y : Symbol) (k : UbcK) : UbcK := fun s =>
  ubcCheck (storeAllowed (s.taskVital x.slot) y) 0x05 k s

/-- TSTART: start the timer from 0 with preset q, or with its declared preset if q = 0. -/
def execTstart (p : PeaId) (w : BitVec 24) (s : State) : Host.Outcome State Fault Refusal :=
  runInstr p 0x50 2 true (fun x => ubcReg p x (opQ w) fun q =>
    ubcTimer p x w (fun y k => ubcClass x y (ubcCheck (q.toNat < 2 ^ 24) 0x0D k)) fun y a _ _ =>
      ubcWrite p (classMem y.cls) a 0x69000000
        (ubcWrite p (classMem y.cls) (a + 1) (if q = 0 then w32 (y.len % 2 ^ 24) else q) ubcDone)) s

/-- TSTOP: stop the timer, keeping its elapsed count; q is w0. -/
def execTstop (p : PeaId) (w : BitVec 24) (s : State) : Host.Outcome State Fault Refusal :=
  runInstr p 0x51 2 (zero w 23 20) (fun x => ubcTimer p x w (fun y k => ubcClass x y k) fun y a w0 _ =>
    ubcWrite p (classMem y.cls) a (w32 (0x3C000000 + bitsOf 23 0 w0.toNat)) ubcDone) s

/-- TREAD: q ← elapsed count of the timer. -/
def execTread (p : PeaId) (w : BitVec 24) (s : State) : Host.Outcome State Fault Refusal :=
  runInstr p 0x52 2 true (fun x => ubcTimer p x w (fun _ k => k) fun _ _ w0 _ =>
    ubcPut p x (opQ w) (w32 (bitsOf 23 0 w0.toNat)) ubcDone) s

/-- TEXP: q ← expired, as a Boolean of the timer's class. -/
def execTexp (p : PeaId) (w : BitVec 24) (s : State) : Host.Outcome State Fault Refusal :=
  runInstr p 0x53 2 true (fun x => ubcTimer p x w (fun _ k => k) fun y _ w0 _ =>
    ubcPut p x (opQ w) (classBool y.cls (bitsOf 31 24 w0.toNat = 0x96)) ubcDone) s

/-! ### Edge detectors (R120) -/

/-- A value as a Boolean of a class: VBOOL or TYPE if it is none. -/
def ubcClassBool (cls : Nat) (v : Word) (k : Bool → UbcK) : UbcK :=
  if cls = 0 then (match vital? v with
    | some b => k b
    | none => ubcTrap 0x03)
  else if v = 1 then k true else if v = 0 then k false else ubcTrap 0x04

/-- An edge of the detector's type (0 rising, 1 falling, 2 any) between two samples. -/
def isEdge (kind : Nat) (prev cur : Bool) : Bool :=
  match kind with
  | 0 => !prev && cur
  | 1 => prev && !cur
  | _ => prev != cur

/-- EDGE: present q to the edge detector; q ← edge seen. A stored sample that is no Boolean of the detector's class traps as q would: VBOOL,
or TYPE for a non-vital detector, for which R120 and R122 name no cause (DESIGN CHOICE, log entry 68). -/
def execEdge (p : PeaId) (w : BitVec 24) (s : State) : Host.Outcome State Fault Refusal :=
  runInstr p 0x58 3 true (fun x => ubcSym (opSym w) fun y => ubcCheck (y.ty = 6) 0x04 (ubcClass x y
    (ubcReg p x (opQ w) fun v => ubcClassBool y.cls v fun cur s =>
      ubcRead p (classMem y.cls) (s.symAddr y x.bank 0) (fun d =>
        let stored := w32 (2 ^ 31 + (classBool y.cls cur).toNat)
        let finish := fun (e : Bool) => ubcWrite p (classMem y.cls) (s.symAddr y x.bank 0) stored
          (ubcPut p x (opQ w) (classBool y.cls e) ubcDone)
        if bitsOf 31 31 d.toNat = 0 then finish false
        else ubcClassBool y.cls (w32 (bitsOf 1 0 d.toNat)) fun prev => finish (isEdge y.edge prev cur)) s))) s

end Sys2Proof.Machine
end

