-- ==== Sys2Proof/Machine/Releases.lean ====
section
/-! DEFINITION. Releases (R119, R125 to R131): the timer advance, triggers, the run list of a cycle and its hand-over to the
peas. -/

namespace Sys2Proof.Machine

/-- Controllers that an image marks as changed against an earlier one (R125): a status code or the LOST mark differs. On a
previous image only those that have just become LOST count. -/
def changedControllers (old new : Image) (previous : Bool) : List Nat :=
  (new.entries.filter fun e => match Img.entry old e.addr with
    | some f => if previous then e.lost && !f.lost else e.status != f.status || e.lost != f.lost
    | none => !previous).map (·.addr)

/-- Merge sort is not needed: slots of priority 0 first, and within a priority in slot order (R127 step 4). -/
def byPriority (prio : Nat → Nat) (slots : List (Nat × Nat)) : List (Nat × Nat) :=
  (List.range 8).flatMap fun k => slots.filter fun x => prio x.1 = k

namespace State

/-- Slot `slot` holds a task. -/
def taskPresent (s : State) (slot : Nat) : Bool := s.flag (Fld.TASK_CFGs_PRESENT slot)

/-- Slot `slot` holds an event task. -/
def taskEvent (s : State) (slot : Nat) : Bool := s.flag (Fld.TASK_CFGs_EVENT slot)

/-- The period of a task in vital cycles (R123). -/
def taskPeriod (s : State) (slot : Nat) : Nat :=
  s.fld (Fld.TASK_CFGs_PERIOD slot) / (if s.fld Fld.PROG_CYCLE_K = 0 then 1 else s.fld Fld.PROG_CYCLE_K)

/-- A periodic task is due in cycle `n` (R127 step 2). -/
def taskDue (s : State) (slot : Nat) (n : Word) : Bool :=
  s.taskPresent slot && !s.taskEvent slot && s.taskPeriod slot != 0 &&
    n.toNat % s.taskPeriod slot = s.fld (Fld.TASK_CFGs_PHASE slot)

/-- R119: advance timer `id` of pea `p` by `m` cycles. The flags: the words were sound, and the timer took the state expired. -/
def advanceTimer (s : State) (p : PeaId) (id m : Nat) : State × Bool × Bool :=
  match s.symbol id with
  | none => (s, true, false)
  | some y =>
    let mem := classMem y.cls
    let a := s.symAddr y 0 0
    match s.readWord p mem a with
    | (s, none) => (s.uncorrectable p mem a, true, false)
    | (s, some w0) =>
      match s.readWord p mem (a + 1) with
      | (s, none) => (s.uncorrectable p mem (a + 1), true, false)
      | (s, some w1) =>
        if ¬ timerOk w0 w1 then (s, false, false)
        else if bitsOf 31 24 w0.toNat ≠ 0x69 then (s, true, false)
        else
          let preset := bitsOf 23 0 w1.toNat
          let c := Nat.min (bitsOf 23 0 w0.toNat + m) preset
          let done := preset ≤ c
          (s.writeWord p mem a (w32 ((if done then 0x96000000 else 0x69000000) + c)), true, done)

/-- The timers that the task in `slot` owns, by the OWNER of their entries (R111, R119). -/
def ownedTimers (s : State) (slot : Nat) : List Nat := match s.prog with
  | some pr => ((symbolsOf pr).filter fun y => y.ty = 5 && y.owner = slot).map Symbol.id
  | none => []

/-- Advance every timer of the task in `slot` (R119), with the timers that expired. An unsound timer traps. -/
def advanceTask (s : State) (p : PeaId) (slot : Nat) : State × List Nat :=
  match s.taskDef slot with
  | none => (s, [])
  | some t =>
    if t.maxOps < (s.ownedTimers slot).length then (s.trapPea p slot t.entry 0x11, []) else
    let m := s.taskPeriod slot
    (s.ownedTimers slot).foldl (fun (x : State × List Nat) id =>
      if ¬ x.1.inService p then x else
      let (s, ok, e) := x.1.advanceTimer p id m
      let s := s.peaCount (peaNum p) 0x0A 1
      if ok then (s, if e then x.2 ++ [id] else x.2) else (s.trapPea p slot t.entry 0x0F, x.2)) (s, [])

/-- The trigger kinds of event slot `slot` that fire (R125): bit 0 input change, bit 1 host request, bit 2 timer expiry. -/
def firedKinds (s : State) (slot : Nat) (expired : List Nat) : Nat :=
  match s.taskDef slot with
  | none => 0
  | some t =>
    let trig := s.fld (Fld.TASK_CFGs_TRIG slot)
    let ring := trig % 2 = 1 && s.cyc.changed.any (t.watch.contains ·)
    let host := trig / 2 % 2 = 1 && !s.cyc.prevImage &&
      s.cyc.image.reqs.any (fun r => r.kind.toNat < 16 && t.kinds.contains r.kind.toNat)
    let timer := trig / 4 % 2 = 1 && expired.any (t.timers.contains ·)
    b2n ring + 2 * b2n host + 4 * b2n timer

/-- A held trigger of a slot is pending. -/
def heldKinds (s : State) (slot : Nat) : Nat := match s.cyc.held.find? (fun h => h.1 = slot) with
  | some h => h.2
  | none => 0

/-- A release of the slot's task has not yet had its END voted. -/
def taskActive (s : State) (slot : Nat) : Bool := s.flag (Fld.TASK_STATs_ACTIVE slot)

/-- The slots to release in cycle `n` with their triggers, in run order (R127 steps 2 to 4). -/
def runList (s : State) (n : Word) (expired : List Nat) : List (Nat × Nat) :=
  let skip := s.pod.skipVec
  let slots := (List.range 32).filterMap fun slot =>
    if skip.contains slot ∨ s.taskActive slot then none
    else if s.taskDue slot n then some (slot, 0)
    else if s.taskPresent slot ∧ s.taskEvent slot then
      let k := s.firedKinds slot expired + (if s.heldKinds slot ≠ 0 then 8 else 0)
      if k = 0 then none else some (slot, k)
    else none
  byPriority (fun slot => s.fld (Fld.TASK_CFGs_PRIO slot)) slots

/-- Hand the run list of cycle `n` to pea `p`: what remains of earlier releases runs first (R127 step 5, R128). The timer advance of each
release opens its count and the pea's count of the cycle (R108). -/
def releasePea (s : State) (p : PeaId) (n : Word) (run : List (Nat × Nat)) : State :=
  if ¬ s.inService p then s else
  let rel := run.map fun x => match s.taskDef x.1 with
    | some t => (⟨x.1, n, t.entry, 0, if s.taskEvent x.1 then 0 else (s.ownedTimers x.1).length, x.2, s.cyc.bank, s.cyc.prevImage,
        s.fld (Fld.TASK_STATs_STALE x.1)⟩ : Release)
    | none => ⟨x.1, n, 0, 0, 0, x.2, s.cyc.bank, s.cyc.prevImage, 0⟩
  let x := s.pea p
  let s := s.setReg (Reg.PEA_x_OPS (peaNum p)) (w32 x.opsCycle)
  let ops := (rel.map Release.ops).sum
  let s := s.setPea p { x with queue := x.queue ++ rel, digestDue := true, opsCycle := ops, doneTick := none, scrubDone := false }
  let s := s.setFld (Fld.PEA_x_STAT_OVERRUN (peaNum p)) 0
  if x.cur = none then s.startNext p else s

/-- Advance the timers of every periodic task that is due and not skipped, in one pea (R127 step 2). -/
def advanceDue (s : State) (p : PeaId) (n : Word) : State × List Nat :=
  ((List.range 32).filter fun slot => s.taskDue slot n && !s.pod.skipVec.contains slot && !s.taskActive slot).foldl
    (fun (x : State × List Nat) slot => if x.1.inService p then
      let (s, e) := x.1.advanceTask p slot
      (s, x.2 ++ e) else x) (s, [])

/-- R131: event triggers that fire while the slot is skipped or still running are held; a released slot's held trigger is spent. -/
def holdTriggers (s : State) (expired : List Nat) (run : List (Nat × Nat)) : State :=
  let s := (List.range 16).foldl (fun s j =>
    let slot := 16 + j
    if ¬ (s.taskPresent slot ∧ s.taskEvent slot) then s
    else if run.any (fun x => x.1 = slot) then
      { s with cyc := { s.cyc with held := s.cyc.held.filter (fun h => h.1 != slot) } }
    else
      let k := s.firedKinds slot expired
      if k = 0 then s else
      let old := s.heldKinds slot
      let s := { s with cyc := { s.cyc with held := (slot, old ||| k) :: s.cyc.held.filter (fun h => h.1 != slot) } }
      (s.podCount 58 1).raiseEvt Page.TASK Evt.TASK_TRIG_HELD) s
  let vec := (List.range 16).foldl (fun a j => if s.heldKinds (16 + j) ≠ 0 then a + 2 ^ (16 + j) else a) 0
  let s := s.setReg Reg.TASK_HELDVEC (w32 vec)
  (List.range 16).foldl (fun s j => s.setFld (Fld.TASK_STATs_HELD (16 + j)) (b2n (s.heldKinds (16 + j) ≠ 0))) s

/-- Bits of a vector of slots. -/
def slotVec (l : List Nat) : Word := w32 (l.foldl (fun a x => a + 2 ^ x) 0)

/-- R127: release cycle `n` in every pea in service. -/
def releaseCycle (s : State) (n : Word) : State :=
  let late := s.serving.any fun p => (s.pea p).cur.isSome
  let s := s.setFld Fld.TASK_STAT_LATEWORK (b2n late)
  let ps := s.serving
  let (s, exps) := ps.foldl (fun (x : State × List (PeaId × List Nat)) p =>
    let (s, e) := x.1.advanceDue p n
    (s, x.2 ++ [(p, e)])) (s, [])
  let expOf := fun p => match exps.find? (fun e => e.1 = p) with
    | some e => e.2
    | none => []
  let first := match s.serving with
    | p :: _ => expOf p
    | [] => []
  let run := s.runList n first
  let lists := ps.map fun p => (p, s.runList n (expOf p))
  let s := s.holdTriggers first run
  let s := s.setReg Reg.TASK_RELVEC (slotVec (run.map Prod.fst))
  let s := lists.foldl (fun s x => s.releasePea x.1 n x.2) s
  run.foldl (fun s x => s.setFld (Fld.TASK_STATs_ACTIVE x.1) 1) s

end State

end Sys2Proof.Machine
end

