-- ==== Sys2Proof/Machine/ExchangeOps.lean ====
section
/-! DEFINITION. Program exchange (R137 to R156): what an exchange may change, its refusals, the switch at tV(X) and the migration
of a pea's data. -/

namespace Sys2Proof.Machine

open State (imageReg)

/-! ### Comparing two images -/

/-- The registers that R137 fixes: SFB configuration, field channels and host port addresses, on pages 21, 22, 38 and 39. -/
def fixedRegs (pr : Program) : List (Nat × Word) :=
  (pr.regs ++ pr.regsQ).filter fun x => [0x21, 0x22, 0x38, 0x39].contains ((x.1 - 0x40000000) / 0x1000)

/-- The controller addresses that a program binds (R22). -/
def boundControllers (pr : Program) : List Nat :=
  (pr.bindings.filter fun b => bitsOf 31 30 b.2.toNat = 1).map fun b => bitsOf 25 16 b.2.toNat

/-- R137: an item differs that an online exchange may not change. -/
def fixedDiffers (old new : Program) : Bool :=
  let a := boundControllers old
  let b := boundControllers new
  imageReg old Reg.PROG_CYCLE != imageReg new Reg.PROG_CYCLE || imageReg old Reg.PROG_LC != imageReg new Reg.PROG_LC ||
    imageReg old Reg.SESS_DOMAIN != imageReg new Reg.SESS_DOMAIN || old.seg != new.seg ||
    !(a.all (b.contains ·) && b.all (a.contains ·)) || old.windowTable != new.windowTable || old.orders != new.orders ||
    fixedRegs old != fixedRegs new || old.channelRecord != new.channelRecord

/-- The symbol of an identifier in a table. -/
def findSymbol (pr : Program) (id : Nat) : Option Symbol := (symbolsOf pr).find? fun y => y.id = id

/-- The words of data SRAM that a symbol occupies (R112). -/
def symbolWords (y : Symbol) : Nat :=
  if y.ty = 5 then 2 else if y.array then (y.len + 32 / elemBits y.ty - 1) / (32 / elemBits y.ty) else 1

/-- A symbol keeps its type, class, IMAGE and ARRAY bits. -/
def sameKind (y z : Symbol) : Bool := y.ty = z.ty && y.cls = z.cls && y.image = z.image && y.array = z.array

/-- The elements of an array in one word. -/
def perWord (y : Symbol) : Nat := 32 / elemBits y.ty

/-- The data words that the migration writes for a symbol of the new table (R150). A carried timer's preset word is written in place; of an
array in place whose LEN grows, the words that hold an element beyond the old LEN are. -/
def migrationWords (old : Program) (y : Symbol) : List Nat :=
  let all := (List.range (symbolWords y)).map (y.addr + ·)
  if y.cls = 3 ∨ y.cls = 2 ∨ y.image then [] else
  match findSymbol old y.id with
  | none => all
  | some z =>
    if ¬ sameKind y z then all
    else if y.ty = 5 then (if y.addr = z.addr then [y.addr + 1] else all)
    else if y.addr ≠ z.addr then all
    else if y.array then all.drop (Nat.min y.len z.len / perWord y)
    else []

/-- The length of an array; 0 for a symbol that is none. -/
def arrayLen (y : Symbol) : Nat := if y.array then y.len else 0

/-- A symbol keeps its type, class and array length (R140). -/
def keptLayout (y z : Symbol) : Bool := y.ty = z.ty && y.cls = z.cls && y.array = z.array && arrayLen y = arrayLen z

/-- R140: kept symbols stay in place, and every word that the exchange writes is one the active image does not declare. The preset word of a
timer in place, which R150 has every exchange write, does not count (DEDUCED, log entry 71). -/
def layoutBroken (old new : Program) : Bool :=
  let kept := (symbolsOf new).any fun y => match findSymbol old y.id with
    | some z => keptLayout y z && y.addr != z.addr
    | none => false
  let timer := fun (y : Symbol) => match findSymbol old y.id with
    | some z => sameKind y z && y.ty = 5 && y.addr = z.addr
    | none => false
  let writes := ((symbolsOf new).filter fun y => !timer y).flatMap (migrationWords old)
  let image := (List.range new.bankWords).flatMap fun i => [new.bank0 + i, new.bank1 + i]
  kept || writes.any (inRanges old.declared) ||
    ((new.bank0, new.bank1, new.bankWords) != (old.bank0, old.bank1, old.bankWords) && image.any (inRanges old.declared))

/-- R151: the migration estimate, ns. -/
def migrationNs (old new : Program) : Nat :=
  40 * (symbolsOf new).length + 10 * ((symbolsOf new).flatMap (migrationWords old)).length + 10 * (new.declared.map Prod.snd).sum

/-- R161: an entry conflicts with a symbol table. -/
def forceConflict (new : Program) (ty : Nat) (image : Bool) (id elem : Nat) : Bool :=
  match findSymbol new id with
  | none => true
  | some y => y.ty != ty || y.cls != 1 || y.image != image || !(if y.array then elem < y.len else elem = 0) || !forceable y

namespace State

/-- The force entries that conflict with a new symbol table (R161). -/
def forceConflicts (s : State) (new : Program) : List Nat := s.forceEntries.filter fun e =>
  forceConflict new (s.fld (Fld.FORCE_SYMe_TYPE e)) (s.flag (Fld.FORCE_SYMe_IMAGE e)) (s.fld (Fld.FORCE_SYMe_SYM e))
    (s.fld (Fld.FORCE_ELEMe_ELEM e))

/-- The exchange checks that are made at staging, in the order of R147. -/
def stagingRefusal (s : State) (new : Program) : Option Nat :=
  match s.prog with
  | none => none
  | some old =>
    if fixedDiffers old new then some 0x21
    else if new.base ≠ s.reg Reg.PROG_IMGID then some 0x22
    else if layoutBroken old new then some 0x23
    else
      let tr := s.tvMs * 1000000 / (if s.fld Fld.PROG_CYCLE_K = 0 then 1 else s.fld Fld.PROG_CYCLE_K)
      if (s.tvMs * 1000000 - tr + s.fld Fld.PROG_LC_LC * 1000 : Int) - 100000 < (migrationNs old new : Int) then some 0x24
      else none

/-- R29: the vital cycle at whose boundary an action for station time `t` takes effect. -/
def cycleAt (s : State) (t : Nat) : Word :=
  let tv := s.tvMs * 1000000
  let t0 := s.now - 40 * s.phase
  s.vcyc + w32 (if t ≤ t0 ∨ tv = 0 then 1 else (t - t0 + tv - 1) / tv)

/-- Two cycles lie within 10 s of each other (R147, R298). -/
def within10s (s : State) (a b : Word) : Bool :=
  let d := if later a b then (a - b).toNat else (b - a).toNat
  d * s.tvMs ≤ 10000

/-- A firmware activation is scheduled within 10 s of cycle `x` (R147, R298). -/
def activationNear (s : State) (x : Word) : Bool := match s.upd.sched with
  | some a => decide (a.slot < 2) && s.within10s a.cycle x
  | none => false

/-- The first row of R147 that an arming matches, the partner's READY aside. -/
def armRefusal (s : State) (flags : Nat) (time : Nat) (build : Word) : Option Nat :=
  match s.xch.staged, s.prog with
  | some new, some old =>
    if ¬ s.flag Fld.PROG_STAT_STAGED ∨ ¬ s.flag Fld.IVE_STAT_STAGED ∨ new.imgId ≠ build then some 0x20
    else if fixedDiffers old new then some 0x21
    else if new.base ≠ s.reg Reg.PROG_IMGID then some 0x22
    else if flags % 2 = 0 ∧ ¬ (s.forceConflicts new).isEmpty then some 0x25
    else if time < s.now + 2000000000 then some 0x26
    else if s.opState ≠ 5 then some 0x28
    else if s.activationNear (s.cycleAt time) then some 0x2B
    else none
  | _, _ => some 0x20

/-- Refuse or abort an exchange (R147). -/
def refuseExchange (s : State) (code : Nat) : State :=
  let build := match s.xch.staged with
    | some p => p.imgId
    | none => 0
  let s := s.refuseProgram code 0 build
  if code = 0x25 then s.raiseEvt Page.FORCE Evt.FORCE_CONFLICT else s

/-- Show the staged image: its identifier, its base image and its migration estimate in µs; 0 where none is staged. -/
def showStaged (s : State) : State :=
  match s.xch.staged, s.prog with
  | some new, some old => ((s.setReg Reg.PROG_XIMG new.imgId).setReg Reg.PROG_XBASE new.base).setFld Fld.PROG_XTIME_EST
      (Nat.min (migrationNs old new / 1000) 65535)
  | _, _ => ((s.setReg Reg.PROG_XIMG 0).setReg Reg.PROG_XBASE 0).setFld Fld.PROG_XTIME_EST 0

/-- Show the phase of an exchange and its flags. -/
def showXstat (s : State) : State :=
  let armed := match s.xch.armed with
    | some a => !a.waiting
    | none => false
  let ph := if ¬ s.xch.migrating.isEmpty then 4 else if armed then 3 else if s.flag Fld.PROG_STAT_STAGED then 2
    else if s.xch.staged.isSome then 1 else 0
  let s := s.showStaged.setFld Fld.PROG_XSTAT_PHASE ph
  match s.xch.armed with
  | some a => (s.setFld Fld.PROG_XSTAT_DROPF (b2n a.dropForces)).setFld Fld.PROG_XSTAT_ALONE (b2n a.alone)
  | none => (s.setFld Fld.PROG_XSTAT_DROPF 0).setFld Fld.PROG_XSTAT_ALONE 0

/-- Replace the arming. -/
def setArmed (s : State) (a : Option Armed) : State := showXstat { s with xch := { s.xch with armed := a } }

/-- The exchange is armed: `PROG_XCYCLE` shows X, and the request is answered. -/
def armNow (s : State) (a : Armed) : State :=
  let s := (s.setArmed (some { a with waiting := false })).setReg Reg.PROG_XCYCLE a.x
  s.respond a.session a.num 0 0 0

/-- An EXCHANGE request with op ARM is decided on ordering (R144, R145). -/
def exchangeArm (s : State) (session : Nat) (num : Word) (flags time : Nat) (build : Word) : State :=
  match s.armRefusal flags time build with
  | some c => (s.refuseExchange c).respond session num 0x0F 0 c
  | none =>
    let a : Armed := ⟨s.cycleAt time, build, flags % 2 = 1, flags / 2 % 2 = 1, session, num, true, false, false, false, s.ticks⟩
    if ¬ s.isTwin then s.armNow a
    else
      let partner := s.linkUp && (match s.twin.status with
        | some v => v.tflags % 2 = 1
        | none => false)
      if a.alone ∧ ¬ partner then (s.twinSend (.xarm a.x build)).armNow a
      else (s.setArmed (some { a with mirrored := true })).twinSend (.xarm a.x build)

/-- An EXCHANGE request with op CANCEL disarms (R144). -/
def exchangeCancel (s : State) (session : Nat) (num : Word) : State :=
  match s.xch.armed with
  | some a =>
    if a.go then s.respond session num 0x0F 0 0x28 else
    let s := (s.refuseExchange 0x2C).setArmed none
    (s.twinSend (.xabort a.x 0x2C)).respond session num 0 0 0
  | none => s.respond session num 0x0F 0 0x2C

/-- R199: the halves' staged tables keep every held route. -/
def iveLive (s : State) : Bool := match s.ive.staged with
  | some t => !s.exchangeKeepsRoutes t
  | none => false

/-- The peas that have verified the staged half at the commit point before cycle X, and those in REJOIN there (R143). -/
def latchReady (s : State) : State := match s.xch.armed with
  | some a => if a.x ≠ s.vcyc + 1 then s else
    { s with xch := { s.xch with ready := [PeaId.a, .b, .c].filter s.peaVerified,
                                 joining := [PeaId.a, .b, .c].filter fun p => s.peaState p = 7 } }
  | none => s

/-- The decision at C(X−1) (R146, R147): abort, or GO to the partner unless it is excluded. -/
def decideExchange (s : State) : State :=
  let s := s.latchReady
  match s.xch.armed, s.xch.staged with
  | some a, some new =>
    if a.x ≠ s.vcyc + 1 ∨ a.waiting ∨ a.byPartner then s else
    let code :=
      if ¬ a.dropForces ∧ ¬ (s.forceConflicts new).isEmpty then 0x25
      else if s.opState ≠ 5 then 0x28
      else if (List.range 32).any s.taskActive then 0x29
      else if s.iveLive then 0x2A
      else 0
    if code ≠ 0 then
      ((s.refuseExchange code).setArmed none).twinSend (.xabort a.x code)
    else
      let s := s.setArmed (some { a with go := true })
      if a.mirrored then s.twinSend (.xgo a.x) else s
  | _, _ => s

/-- The exchange is due at the boundary of cycle `n`. -/
def exchangeDue (s : State) (n : Word) : Bool := match s.xch.armed with
  | some a => a.go && a.x = n
  | none => false

/-! ### The switch at tV(X) -/

/-- R161, R162: force entries at the exchange: conflicting ones are dropped, the others carried. -/
def carryForces (s : State) (new : Program) : State :=
  let bad := s.forceConflicts new
  let note := fun (s : State) (e op : Nat) => s.raiseRec 0x0403 Page.FORCE (w32 (s.fld (Fld.FORCE_SYMe_SYM e)))
    [w32 op, w32 (s.fld (Fld.FORCE_ELEMe_ELEM e)), s.reg (Reg.FORCE_VALe e), 1]
  let carried := s.forceEntries.filter fun e => !bad.contains e
  let s := bad.foldl (fun s e => ((note s e 4).emptyForce e).raiseEvt Page.FORCE Evt.FORCE_DROPPED) s
  let s := carried.foldl (fun s e =>
    ((note s e 3).setFld (Fld.FORCE_SYMe_CARRIED e) 1).raiseEvt Page.FORCE Evt.FORCE_CARRIED) s
  let s := s.setReg Reg.PROG_XFORCE (w32 (bad.length * 256 + carried.length))
  showForces { s with xch := { s.xch with carriedForces := carried } }

/-- The carried forces are applied to the new table in every pea in service (R159, R161). -/
def applyCarried (s : State) (ps : List PeaId) : State :=
  s.xch.carriedForces.foldl (fun s e =>
    match s.symbol (s.fld (Fld.FORCE_SYMe_SYM e)) with
    | some y => if y.image then s else s.writeElem ps y s.cyc.bank (s.fld (Fld.FORCE_ELEMe_ELEM e)) (s.reg (Reg.FORCE_VALe e))
    | none => s) s

/-- The held triggers whose slot of the new table does not name a kind of theirs. -/
def droppedHeld (s : State) : List (Nat × Nat) := s.cyc.held.filterMap fun h =>
  let k := if s.taskPresent h.1 ∧ s.taskEvent h.1 then s.fld (Fld.TASK_CFGs_TRIG h.1) else 0
  let gone := (List.range 3).filter fun i => h.2.testBit i && !k.testBit i
  if gone.isEmpty then none else some (h.1, (gone.map fun i => 2 ^ i).sum)

/-- R153: held triggers pass to a slot of the new table that names the same kind, and are dropped elsewhere, each with a record. -/
def carryHeld (s : State) : State :=
  let s := s.droppedHeld.foldl (fun (s : State) h => s.recordUnlisted Page.PROG 2 (w32 h.1) [w32 h.2]) s
  let held := s.cyc.held.filterMap fun h =>
    let k := h.2 &&& s.fld (Fld.TASK_CFGs_TRIG h.1)
    if s.taskPresent h.1 ∧ s.taskEvent h.1 ∧ k ≠ 0 then some (h.1, k) else none
  let s := { s with cyc := { s.cyc with held := held } }
  let vec := (held.map fun h => 2 ^ h.1).sum
  let s := s.setReg Reg.TASK_HELDVEC (w32 vec)
  (List.range 16).foldl (fun s j => s.setFld (Fld.TASK_STATs_HELD (16 + j)) (b2n (held.any fun h => h.1 = 16 + j))) s

/-- The sender and the peer addresses of a session (R308). -/
def sessionDef (pr : Program) (i : Nat) : Option SessionDef := pr.sessions.find? fun d => d.session = i

/-- R138: the session's entry changes in enable, class, permissions, sender identity or peer addresses. -/
def sessionChanged (old new : Program) (i : Nat) : Bool :=
  let f := fun (pr : Program) => (imgFld pr (Fld.SESS_CFGs_EN i), imgFld pr (Fld.SESS_CFGs_CLASS i), imgFld pr (Fld.SESS_CFGs_PERMS i))
  f old != f new || sessionDef old i != sessionDef new i

/-- R138: at tV(X) every session whose entry changes is closed, and the class of a session beyond the fourth of class 2 is recorded (R309). -/
def exchangeSessions (s : State) (old new : Program) : State :=
  (((List.range 16).filter (sessionChanged old new)).foldl (fun (s : State) i => s.closeSess i) s).noteClasses

/-- R150: the retyped symbols and the arrays whose LEN changes are recorded. -/
def recordMigration (s : State) (old new : Program) : State :=
  ((symbolsOf new).filter fun y => !(y.cls = 2 || y.cls = 3 || y.image)).foldl (fun (s : State) y => match findSymbol old y.id with
    | some z => if ¬ sameKind y z then s.recordUnlisted Page.PROG 0 (w32 y.id) [w32 z.ty, w32 y.ty]
      else if arrayLen y ≠ arrayLen z then s.recordUnlisted Page.PROG 1 (w32 y.id) [w32 z.len, w32 y.len] else s
    | none => s) s

/-- R148: at tV(X) halves, tables and image-supplied fields switch, and the migration begins. -/
def exchangeSwitch (s : State) (old new : Program) : State :=
  let oldId := s.reg Reg.PROG_IMGID
  let ready := s.serving.filter s.xch.ready.contains
  let slot := 1 - s.fld Fld.PROG_STAT_SLOT
  let s := { s with prog := some new, xch := { s.xch with old := some old, staged := none, armed := none, migrating := ready },
                    pod := { s.pod with half := 1 - s.pod.half } }
  let s := (s.loadImg new).setFld Fld.PROG_STAT_SLOT slot
  let s := (s.setFld Fld.PROG_STAT_STAGED 0).setFld Fld.PROG_XSTAT_PEAS 0
  let s := (s.activate (2 + slot)).raiseFloor (2 + slot)
  let s : State := s.switchTables
  let s : State := (List.range 32).foldl (fun s i => (s.setFld (Fld.TASK_STATs_STALE i) 0).setFld (Fld.TASK_STATs_SKIPS i) 0) s
  let s := if s.fld Fld.PWR_VCORE_SET = 36 then s else (s.setFld Fld.PWR_VCORE_SET 36).podCount 59 1
  let s := ((s.setReg Reg.PROG_XTIME 0).setReg Reg.PROG_XSYMS 0).setReg Reg.PROG_XNEW 0
  let s := (s.raiseRec 0x0402 Page.PROG s.vcyc [oldId, new.imgId]).raiseEvt Page.PROG Evt.PROG_EXCHANGED
  let s := ((s.carryForces new).carryHeld).recordMigration old new
  ((s.exchangeSessions old new).applyCarried ready).showXstat

/-! ### The migration of one pea (R150) -/

/-- The initial value of a data word. -/
def initialWord (pr : Program) (a : Nat) : Word := match pr.initial.find? (fun x => x.1 = a) with
  | some x => x.2
  | none => 0

/-- How a symbol fares: its words in the new layout with their values, and 1 initialised, 2 retyped, 3 relocated, 0 otherwise. -/
def migrateSymbol (old new : Program) (read : Nat → Word) (y : Symbol) : List (Nat × Word) × Nat :=
  let fresh := (List.range (symbolWords y)).map fun i => (y.addr + i, initialWord new (y.addr + i))
  if y.cls = 3 ∨ y.cls = 2 ∨ y.image then ([], 0) else
  match findSymbol old y.id with
  | none => (fresh, 1)
  | some z =>
    if ¬ sameKind y z then (fresh, 2)
    else if y.ty = 5 then
      ([(y.addr, read z.addr), (y.addr + 1, w32 (y.len % 2 ^ 24))], if y.addr = z.addr then 0 else 3)
    else if y.array ∧ y.len ≠ z.len then
      let per := 32 / elemBits y.ty
      ((List.range (symbolWords y)).map fun i =>
        (y.addr + i, (List.range per).foldl (fun w j =>
          if i * per + j < Nat.min y.len z.len then elemPut y.ty j w (elemGet y.ty j (read (z.addr + i))) else w)
          (initialWord new (y.addr + i))), if y.addr = z.addr then 0 else 3)
    else if y.addr = z.addr then ([], 0)
    else ((List.range (symbolWords y)).map fun i => (y.addr + i, read (z.addr + i)), 3)

/-- The walk of the new symbol table in pea `p` (R150), its digests (R92), and the timers of the tasks due in cycle X (R154). -/
def migratePea (s : State) (p : PeaId) (old new : Program) : State :=
  let x := s.pea p
  let read := fun a => peaGet p x .sram a
  let moves := (symbolsOf new).map (migrateSymbol old new read)
  let x := (moves.flatMap Prod.fst).foldl (fun x m => peaPut p x .sram m.1 m.2) x
  let s := s.setPea p (recomputeDigests new p x)
  let count := fun k => (moves.filter fun m => m.2 = k).length
  let s := (s.setReg Reg.PROG_XNEW (w32 (count 1))).setReg Reg.PROG_XSYMS
    (w32 (Nat.min (count 3) 65535 * 65536 + Nat.min (count 2) 255 * 256))
  let s := s.applyCarried [p]
  (s.advanceDue p s.vcyc).1

end State

end Sys2Proof.Machine
end

