-- ==== Sys2Proof/Machine/TwinOps.lean ====
section
/-! DEFINITION. What the rows of the twin link share (R277 to R299): flags and views, the receipt of a frame, the link's state,
digest comparison, the blocks of a state transfer, roles at a boundary, and the entry into ACTIVE. -/

namespace Sys2Proof.Machine

/-- How long a frame with a payload of `len` bytes lasts on the line, in ticks: 18 bytes more, 80 ns each (R233, R281). -/
def frameTicks (len : Nat) : Nat := 2 * (len + 18)

/-- An image as it comes over the link: what its frames carry (R287). -/
def Img.received (img : Image) : Image :=
  { img with entries := img.entries.map fun e => { e with heard := false, lostCycles := 0, rxA := none, rxB := none } }

/-! ### The IVE's state store as 32 blocks of words (R290)

Routes take four words each from word 0, points two from 16,384, signals one from 20,480, sections one from 24,576. -/

/-- Word `i` of the IVE state store. -/
def iveWord (v : Ive) (i : Nat) : Word :=
  if i < 16384 then
    let x := v.route (i / 4)
    match i % 4 with
    | 0 => w32 (x.state + x.variant * 16 + b2n x.cleared * 2 ^ 12 + b2n x.flank * 2 ^ 13 + b2n x.timer.isSome * 2 ^ 14)
    | 1 => x.req
    | 2 => (x.timer.map Prod.fst).getD 0
    | _ => (x.timer.map Prod.snd).getD 0
  else if i < 20480 then
    let x := v.point (8192 + (i - 16384) / 2)
    if i % 2 = 0 then w32 (x.routeNormal + x.routeReverse * 2 ^ 16)
    else w32 (x.flankNormal + x.flankReverse * 2 ^ 14 + x.commanded * 2 ^ 28)
  else if i < 24576 then
    let x := v.signal (16384 + (i - 20480))
    w32 (x.aspect + x.route * 2 ^ 8 + b2n x.withdrawn * 2 ^ 31)
  else
    let x := v.section_ (24576 + (i - 24576))
    w32 ((match x.path with
      | some r => r + 1
      | none => 0) + b2n x.seen * 2 ^ 16)

/-- Write word `i` of the IVE state store. Overlap holds are rebuilt from the routes. -/
def iveWrite (v : Ive) (i : Nat) (w : Word) : Ive :=
  let n := w.toNat
  if i < 16384 then
    let r := i / 4
    let x := v.route r
    match i % 4 with
    | 0 => v.setRoute r { x with state := bitsOf 3 0 n, variant := bitsOf 11 4 n, cleared := bitsOf 12 12 n = 1,
                                 flank := bitsOf 13 13 n = 1, timer := if bitsOf 14 14 n = 1 then some (0, 0) else none }
    | 1 => v.setRoute r { x with req := w }
    | 2 => v.setRoute r { x with timer := x.timer.map fun t => (w, t.2) }
    | _ => v.setRoute r { x with timer := x.timer.map fun t => (t.1, w) }
  else if i < 20480 then
    let o := 8192 + (i - 16384) / 2
    let x := v.point o
    if i % 2 = 0 then v.setPoint o { x with routeNormal := bitsOf 15 0 n, routeReverse := bitsOf 31 16 n }
    else v.setPoint o { x with flankNormal := bitsOf 13 0 n, flankReverse := bitsOf 27 14 n, commanded := bitsOf 31 28 n }
  else if i < 24576 then
    v.setSignal (16384 + (i - 20480)) ⟨bitsOf 7 0 n, bitsOf 23 8 n, bitsOf 31 31 n = 1⟩
  else
    let x := v.section_ i
    let p := bitsOf 15 0 n
    v.setSection i { x with path := if p = 0 then none else some (p - 1), seen := bitsOf 16 16 n = 1 }

/-- The overlap holds that the held routes have by their locked variants (R184). -/
def rebuildOverlaps (v : Ive) : Ive :=
  let v := (v.sections.map Prod.fst).foldl (fun v o => v.setSection o { v.section_ o with overlaps := [] }) v
  (v.routes.map Prod.fst).foldl (fun (v : Ive) r =>
    (variantSections v.tables r (v.route r).variant).foldl (fun v e =>
      v.setSection e.obj { v.section_ e.obj with overlaps := (v.section_ e.obj).overlaps ++ [r] }) v) v

/-- The IVE blocks in use: those with a word of an object that the tables define. -/
def iveBlocks (t : List Word) : List Nat :=
  let up := fun n => (n + 1023) / 1024
  (List.range (up (4 * tblRoutes t)) ++ (List.range (up (2 * tblPoints t))).map (16 + ·) ++
    (List.range (up (tblSignals t))).map (20 + ·) ++ (List.range (up (tblSections t))).map (24 + ·)).map (0x8000 + ·)

/-- A data block holds a declared word outside the input image area (R290). -/
def transferable (pr : Program) (b : Nat) : Bool :=
  (List.range 1024).any fun i =>
    let a := b * 1024 + i
    inRanges pr.declared a && !inRanges [(pr.bank0, pr.bankWords), (pr.bank1, pr.bankWords)] a

/-- The blocks of a transfer, in block order. -/
def transferBlocks (pr : Program) (t : List Word) : List Nat := (List.range 1024).filter (transferable pr) ++ iveBlocks t

/-- The index of a block among the 1,056 digests of a BDIG frame. -/
def blockIndex (b : Nat) : Nat := if b < 0x8000 then b else 1024 + (b - 0x8000)

/-- The priority of a frame (R282). -/
def framePriority : TwinBody → Nat
  | .sync .. | .probe _ | .echo .. => 1
  | .image _ => 3
  | .order _ | .fwd _ => 4
  | .status .. => 5
  | .bdig .. => 6
  | .block .. => 7
  | .pad => 8
  | _ => 2

namespace State

/-- Replace the twin state. -/
def setTwin (s : State) (x : Twin) : State := { s with twin := x }

/-- TFLAGS (R279). -/
def tflags (s : State) : Nat :=
  b2n (s.role = 3 ∨ s.role = 4) + 2 * b2n s.linkUp + 4 * s.fld Fld.TWIN_STAT_RESTRICT + 8 * b2n s.xferring +
    16 * s.fld Fld.TWIN_SWAP_ARMED + 32 * b2n (s.fld Fld.TWIN_STAT_WITNESS = 1) + 64 * s.fld Fld.TWIN_STAT_ROLECLASH

/-- The partner's last STATUS, while the link is up. -/
def partnerStatus (s : State) : Option PartnerView := if s.linkUp then s.twin.status else none

/-- A STATUS or a unit window within `k` ring cycles shows the partner in rank 2. -/
def partnerActive (s : State) (k : Nat) : Bool :=
  (match s.partnerStatus with
    | some v => v.claim.toNat / 2 ^ 24 = 2
    | none => false) ||
  (match s.twin.window with
    | some (v, age) => age < k && v.claim.toNat / 2 ^ 24 = 2
    | none => false)

/-! ### Claims (R276, R277) -/

/-- The unit takes role `r` at the first boundary that lies after tick `from_`, for a cause of `TWIN_ROLECHG`. -/
def planRole (s : State) (r cause from_ : Nat) : State :=
  s.setTwin { s.twin with roleNext := some (r, cause), roleFrom := from_ }

/-- A valid claim of the partner, or one seen in a header, a unit window or a command section. A unit in the role ACTIVE that
sees a higher one of rank 2 yields at the next boundary. -/
def seeClaim (s : State) (c : Nat) : State :=
  let s := s.noteClaim c
  let s := if c / 2 ^ 24 = 2 then s.setTwin { s.twin with rank2At := some s.now } else s
  if s.isActive ∧ c / 2 ^ 24 = 2 ∧ s.claim < c then s.planRole 2 5 0 else s

/-- A claim in a unit window of the partner, with its serial: a unit whose equal claim has the lower serial yields too (R277). -/
def seeRival (s : State) (c serial : Nat) : State :=
  let s := s.seeClaim c
  if s.isActive ∧ c / 2 ^ 24 = 2 ∧ s.claim = c ∧ s.nv.serial.toNat < serial then s.planRole 2 5 0 else s

/-- The units read the same letter, or disagree about the installation (R277): the clash is recorded, and the unit of the lower serial
leaves its RUN state at the next boundary. (DEDUCED, log entry 78) -/
def noteClash (s : State) (serial : Word) : State :=
  if s.flag Fld.TWIN_STAT_ROLECLASH then s else
  let s := s.setFld Fld.TWIN_STAT_ROLECLASH 1
  let s := (s.raiseRec 0x0603 Page.TWIN 0 [serial]).raiseEvt Page.TWIN Evt.TWIN_REFUSED
  if s.role ≠ 0 ∧ s.nv.serial.toNat < serial.toNat then s.planRole 0 5 0 else s

/-! ### The link (R281 to R283) -/

/-- A transfer that the unit takes part in ends: the joiner is left UNSYNCED (R293). -/
def failXfer (s : State) (cause : Nat) : State :=
  if ¬ s.xferring then s
  else if s.role = 1 then
    let s := (s.endXfer cause).toState 6
    (s.setRole 2 (s.claim % 2 ^ 24) 8).raiseEvt Page.TWIN Evt.TWIN_UNSYNC
  else s.endXfer cause

/-- A condition of R283 occurs: the link counts as down. -/
def linkDown (s : State) : State :=
  let s := s.setTwin { s.twin with fault := true, good := 0 }
  if ¬ s.linkUp then s else
  let s := (s.setFld Fld.TWIN_STAT_LINK 0).addSat Fld.TWIN_LINKERR_DOWNS 1
  let s := (s.podCount 51 1).setTwin { s.twin with lastDown := some s.vcyc, rxImage := none, rxParts := none, rxDig := none,
                                                        swapDown := true }
  let s : State := if s.isActive then s.limitNums else { s with hosts := { s.hosts with gapDue := true } }
  let s := (s.raiseRec 0x0602 Page.TWIN 0 [s.reg Reg.TWIN_LINKERR]).raiseEvt Page.TWIN Evt.TWIN_LINK
  s.failXfer 1

/-- An invalid frame, or one whose SEQ is not the next (R281, R283). -/
def badFrame (s : State) : State :=
  let s := (s.addSat Fld.TWIN_LINKERR_BAD 1).podCount 50 1
  let s := s.setTwin { s.twin with bad := s.twin.bad + 1 }
  if 8 ≤ s.twin.bad then s.linkDown else s

/-- Frame `k` of a body is received (R281): an invalid one is counted, a valid one is used. DIR shows the sender's letter (R277). -/
def twinRx (s : State) (h : TwinHdr) (b : TwinBody) (k : Nat) (body : State → State) : State :=
  if ¬ s.isTwin then s
  else if ¬ h.ok b k then s.badFrame
  else
    let s := if s.twin.rxSeq = none ∨ s.twin.rxSeq = some (h.seq - 1) then s else s.badFrame
    let s := s.setTwin { s.twin with rxSeq := some h.seq, gotFrame := true }
    let s := (s.setReg Reg.TWIN_PSERIAL h.serial).podCount 49 1
    body (if h.dir = s.letter then s.noteClash h.serial else s)

/-- Send a PROBE (R285). -/
def sendProbe (s : State) : State :=
  let n := s.twin.probeNext
  (s.setTwin { s.twin with probeNext := n + 1 }).twinSend (.probe n)

/-- The link's count of cycles without a condition (R283), at a vital cycle boundary. -/
def linkCycle (s : State) : State :=
  if ¬ s.isTwin then s else
  let t := s.twin
  let ok := t.gotFrame && !t.fault
  let good := if ok then Nat.min (t.good + 1) 255 else 0
  let s := s.setTwin { t with gotFrame := false, fault := false, bad := 0, good := good }
  if s.linkUp ∨ good < 8 then s else
  let s := s.setFld Fld.TWIN_STAT_LINK 1
  let s := (s.raiseRec 0x0602 Page.TWIN 1 [s.reg Reg.TWIN_LINKERR]).raiseEvt Page.TWIN Evt.TWIN_LINK
  let s := s.freeNums
  if s.isActive then s else s.sendProbe

/-! ### Digest comparison (R289, R291) -/

/-- Whether the unit's own digests match the partner's for the same cycle; none where there is nothing new to compare. -/
def compareDigests (s : State) : Option (Word × Bool × Bool) :=
  let fromLink := s.linkUp
  let view := if fromLink then s.twin.status else s.twin.window.map Prod.fst
  match view with
  | none => none
  | some v =>
    if s.twin.cmpLast = some v.n then none else
    match s.twin.own.find? (fun o => o.1 = v.n) with
    | none => none
    | some (_, d, sd) =>
      some (v.n, fromLink, d = v.dig && (if fromLink then sd = v.sdig else sd.extractLsb' 0 32 = v.sdig.extractLsb' 0 32))

/-- The unit compares: it is STANDBY or ACTIVE, or a joiner in VERIFY. -/
def comparing (s : State) : Bool := s.role = 3 || s.role = 4 || (s.role = 1 && s.fld Fld.TWIN_XFER_PHASE = 4)

/-- Enter a phase of a transfer. -/
def xferPhase (s : State) (ph : Nat) : State :=
  ((s.setFld Fld.TWIN_XFER_PHASE ph).setFld Fld.TWIN_XFER_CYCLES 0).setTwin { s.twin with xferRun := 0 }

/-- Compare as soon as both units' digests of a cycle are known (R289, R291, R293): `TWIN_DIGCMP`, `TWIN_DIGMISS`, and what the unit's role
makes of it. A third match in VERIFY gives STANDBY at the first boundary more than 100 µs later; a mismatch there is CATCHUP again, for the
joiner and for the donor. -/
def takeComparison (s : State) : State :=
  if ¬ s.comparing then s else
  match s.compareDigests with
  | none => s
  | some (n, link, same) =>
    let verify := s.fld Fld.TWIN_XFER_PHASE = 4
    let s := (s.setFld Fld.TWIN_DIGCMP_NOCMP 0).setFld Fld.TWIN_DIGCMP_SRC (if link then 0 else 1)
    let s := s.setTwin { s.twin with cmpLast := some n, compared := true, matches_ := if same then s.twin.matches_ + 1 else 0 }
    if same then
      let s := s.addSat Fld.TWIN_DIGCMP_RUN 1
      if s.role = 1 ∧ s.twin.matches_ = 3 then s.planRole 3 7 (s.ticks + 2500) else s
    else
      let s := (s.setFld Fld.TWIN_DIGCMP_RUN 0).setReg Reg.TWIN_DIGMISS n
      if s.role = 3 then s.planRole 2 8 0
      else if verify then
        let s := s.xferPhase 3
        if s.role = 1 then s.setTwin { s.twin with roleNext := none } else s
      else s

/-- The sixteenth cycle in a row without a comparison is about to end: a unit in the role STANDBY becomes UNSYNCED (R289). -/
def lacksComparison (s : State) : Bool := s.role = 3 && !s.twin.compared && decide (15 ≤ s.fld Fld.TWIN_DIGCMP_NOCMP)

/-- The count of cycles without a comparison, at a boundary (R289). -/
def digestCycleEnd (s : State) : State :=
  if ¬ s.comparing then s else
  let s := if s.lacksComparison then s.planRole 2 8 0 else s
  let s := if s.twin.compared then s else (s.addSat Fld.TWIN_DIGCMP_NOCMP 1).setFld Fld.TWIN_DIGCMP_SRC 2
  s.setTwin { s.twin with compared := false }

/-! ### Running (R30, R127) -/

/-- Nothing of the tasks, the voters or the commit buffer remains. -/
def haltTasks (s : State) : State :=
  let clear := fun (x : Pea) => { x with cur := none, queue := [], dr := [], arrived := 0, digestDue := false, lagging := false }
  let s : State := { s with
    pod := { s.pod with a := clear s.pod.a, b := clear s.pod.b, c := clear s.pod.c, positions := [], history := [],
                        nextPass := 0, skipVec := [], reseed := none }
    com := { s.com with iveIn := [], buffer := [] } }
  let s := s.serving.foldl (fun s p => (s.setPeaState p 2).setFld (Fld.PEA_x_DRFILL_NOW (peaNum p)) 0) s
  let s : State := (List.range 32).foldl (fun s i => s.setFld (Fld.TASK_STATs_ACTIVE i) 0) s
  s.showBuffer

/-- Cycles run from cycle `n`, whose boundary lies `ago` ticks back, or is the next one where none has been taken yet (R30). -/
def startCycles (s : State) (n : Word) (ago : Nat) : State :=
  { s with cyc := { s.cyc with n := n, running := true, i := 0, tick0 := s.ticks - ago } }

/-- Join the partner's cycles in its cycle `n` (R285). -/
def joinCycles (s : State) (n : Word) (ago : Nat) : State :=
  { s.startCycles n ago with boot := { s.boot with running := true } }

/-! ### The blocks of a transfer (R290 to R293) -/

/-- Word `i` of block `b` as the unit holds it. -/
def blockWord (s : State) (b i : Nat) : Word :=
  if b < 0x8000 then
    match s.serving with
    | p :: _ => peaGet p (s.pea p) .sram (b * 1024 + i)
    | [] => 0
  else iveWord s.ive ((b - 0x8000) * 1024 + i)

/-- The donor reads a block now: its first pea in service is IDLE. -/
def canSnapshot (s : State) : Bool := match s.serving with
  | p :: _ => s.peaState p = 2
  | [] => false

/-- The joiner writes a block into each of its peas, or into the IVE. -/
def writeBlock (s : State) (b : Nat) (ws : List Word) : State :=
  let iws := (List.range ws.length).zip ws
  if b < 1024 then
    s.imagePeas.foldl (fun s p => iws.foldl (fun s (w : Nat × Word) => s.writeWord p .sram (b * 1024 + w.1) w.2) s) s
  else if 0x8000 ≤ b ∧ b < 0x8020 then
    let v := iws.foldl (fun v (w : Nat × Word) => iveWrite v ((b - 0x8000) * 1024 + w.1) w.2) s.ive
    (s.setIve (rebuildOverlaps v)).showHold
  else s

/-- Show the blocks left in `TWIN_XFER`. -/
def showBlocks (s : State) (n : Nat) : State := s.setFld Fld.TWIN_XFER_BLKLEFT n

/-- Enter JOINING and request a transfer (R278, R289). -/
def startJoin (s : State) (cause : Nat) : State :=
  let s := s.toState 4
  let s := s.setRole 1 (s.claim % 2 ^ 24) cause
  let s := (s.setReg Reg.TWIN_XFER 0).xferPhase 1
  let s := s.setTwin { s.twin with xferStart := s.now, xferRetry := none, xferStaged := false, xferBdig := none, matches_ := 0 }
  (s.haltTasks).twinSend (.xferReq (s.reg Reg.PROG_IMGID) (s.reg Reg.IVE_TBLID))

/-- R291: a joiner whose verified staged image is the donor's switches to that half at the start of BULK. -/
def adoptStaged (s : State) : State :=
  match s.xch.staged with
  | none => s
  | some new =>
    let slot := 1 - s.fld Fld.PROG_STAT_SLOT
    let s : State := { s with prog := some new, pod := { s.pod with half := 1 - s.pod.half },
                              xch := { s.xch with staged := none, armed := none } }
    let s := ((s.loadImg new).setFld Fld.PROG_STAT_SLOT slot).setFld Fld.PROG_STAT_STAGED 0
    let s := [PeaId.a, .b, .c].foldl (fun (s : State) p => if s.peaVerified p then s else s.setPea p { s.pea p with behind := true }) s
    (((s.activate (2 + slot)).raiseFloor (2 + slot)).setFld Fld.PROG_XSTAT_PEAS 0).switchTables.showXstat

/-- Compare the unit's latched block digests with the donor's of cycle `n`: the blocks that differ, image blocks apart (R292). -/
def differing (s : State) (digests : List (BitVec 64)) : List Nat :=
  match s.prog with
  | none => []
  | some pr => (transferBlocks pr s.ive.tables).filter fun b =>
      !imageBlock pr b && s.twin.xferLatch.getD (blockIndex b) 0 != digests.getD (blockIndex b) 0

/-- The joiner's comparison in CATCHUP (R291): it asks for up to 12 differing blocks, or passes to VERIFY. -/
def catchup (s : State) (n : Word) (digests : List (BitVec 64)) : State :=
  let bs := s.differing digests
  let need := bs.take 12
  let s := ((s.setTwin { s.twin with xferNeed := need, xferBdig := none }).showBlocks bs.length).twinSend (.xferNeed n need)
  if bs.isEmpty then (s.setTwin { s.twin with matches_ := 0 }).xferPhase 4 else s

/-! ### Taking the role ACTIVE (R276, R278, R296) -/

/-- R296: what a unit that was UNSYNCED does on taking ACTIVE: data words take their initial values, forces are cleared, every
held route becomes EMERGENCY and every committed aspect stop. -/
def restrict (s : State) : State :=
  let s : State := match s.prog with
    | none => s
    | some pr =>
      let words : List Nat := (pr.declared.flatMap fun (r : Nat × Nat) => (List.range r.2).map (r.1 + ·)).filter fun a =>
        !inRanges [(pr.bank0, pr.bankWords), (pr.bank1, pr.bankWords)] a
      s.serving.foldl (fun s p =>
        s.setPea p (recomputeDigests pr p (words.foldl (fun x a => peaPut p x .sram a (initialWord pr a)) (s.pea p)))) s
  let s : State := s.forceEntries.foldl (fun s e => s.emptyForce e) s
  let s := s.showForces
  let v := s.ive
  let s : State := { s with com := { s.com with committed := s.com.committed.filter fun e => e.1 / 8192 ≠ 2 } }
  let v := (v.routes.map Prod.fst).foldl (fun v r =>
    Ive.startTimer v r 6 s.vcyc (Ive.presetCycles (rApproach v.tables r) s.tvMs)) v
  let s := (s.setIve { v with signals := [] }).showHold
  s.setFld Fld.TWIN_STAT_RESTRICT 1

/-- Become ACTIVE in RUN_ACTIVE with a new epoch (R276). -/
def becomeActive (s : State) (cause : Nat) : State :=
  let (s', ok) := s.takeActive cause
  if ok then s'.toState 5 else s'

/-- A takeover is decided (R295, R296): its epoch is chosen and stored before the first composition that uses it (R276). -/
def planTakeover (s : State) (cause : Nat) : State :=
  if s.twin.takeover.isSome then s else
  match nextEpoch s.knownEpoch s.letter with
  | some e => let s := s.storeEpoch e; s.setTwin { s.twin with takeover := some (cause, e) }
  | none => (s.raiseRec 0x0604 Page.TWIN 0 [w32 s.nv.epoch]).raiseEvt Page.TWIN Evt.TWIN_REFUSED

/-- The takeover decided at C(n) takes effect at tV(n+1) (R296). -/
def takeOver (s : State) (cause epoch : Nat) : State :=
  let unsynced := s.role = 2
  let s := (s.enterActive epoch cause).toState 5
  let s := s.setTwin { s.twin with takeover := none, roleNext := none }
  if unsynced then s.restrict else s

/-- The lower unit of a role clash leaves its RUN state (R277): no vital computation goes on, and START is blocked by R393. -/
def leaveRun (s : State) : State :=
  let s := s.haltTasks.toState 2
  let s : State := { s with cyc := { s.cyc with running := false }, boot := { s.boot with running := false } }
  (s.setTwin { s.twin with readyAt := some s.now }).startBlock 3

/-- The epoch that a role planned for a boundary brings (R275): a unit that becomes STANDBY takes its partner's. -/
def plannedEpoch (s : State) (cause : Nat) : Nat :=
  if cause = 6 ∨ cause = 7 then (s.reg Reg.TWIN_PCLAIM).toNat % 2 ^ 24 else s.claim % 2 ^ 24

/-- The claim that holds from the next vital cycle boundary, as far as it is decided: of a takeover, of a swap that goes ahead, or of
another role (R277, R289, R296, R299). -/
def nextClaim (s : State) : Nat :=
  match s.twin.takeover with
  | some (_, e) => 2 * 2 ^ 24 + e
  | none =>
    if ¬ s.isActive ∧ s.twin.swapGo ∧ s.reg Reg.TWIN_SWAPCYC = s.vcyc + 1 then 2 * 2 ^ 24 + s.fld Fld.TWIN_SWAP_NEWEPOCH
    else match s.twin.roleNext with
      | some (r, cause) =>
        if s.cyc.tick0 + s.cycleTicks ≤ s.twin.roleFrom then s.claim else roleRank r * 2 ^ 24 + s.plannedEpoch cause
      | none => s.claim

/-- What the unit's role becomes at a boundary: a takeover, a planned change, or JOINING for an UNSYNCED unit with the link up. -/
def roleCycle (s : State) : State :=
  match s.twin.takeover with
  | some (c, e) => (s.setTwin { s.twin with takeover := none }).takeOver c e
  | none =>
    match s.twin.roleNext with
    | some (r, cause) =>
      if s.ticks ≤ s.twin.roleFrom then s else
      let s := s.setTwin { s.twin with roleNext := none }
      if r = 0 then s.leaveRun else
      let e := s.plannedEpoch cause
      let s := s.toState 6
      let s := if cause = 7 then s.endXfer 0 else s
      let s := s.setRole r e cause
      if cause = 7 then s.raiseEvt Page.TWIN Evt.TWIN_SYNC else if r = 2 then s.raiseEvt Page.TWIN Evt.TWIN_UNSYNC else s
    | none =>
      if s.role = 2 ∧ s.linkUp ∧ s.twin.xferRetry = none ∧ s.partnerActive 0 then s.startJoin 0 else s

/-! ### Alignment (R285, R286) -/

/-- Take an alignment error: `TWIN_ALIGN` shows it, one above 2 ticks steers the next vital cycle by 8 ticks at most, and three in a row
above 500 ticks in STANDBY make the unit UNSYNCED. -/
def noteAlign (s : State) (e : Int) (src : Nat) : State :=
  let s := s.setReg Reg.TWIN_ALIGN (w32 (s.fld Fld.TWIN_ALIGN_MAX * 2 ^ 24 + src * 2 ^ 22 + (BitVec.ofInt 16 e).toNat))
  let s := if s.role = 3 then s.raiseMax Fld.TWIN_ALIGN_MAX (Nat.min e.natAbs 255) else s
  let beyond := if s.role = 3 ∧ 500 < e.natAbs then s.twin.alignOver + 1 else 0
  let by_ : Int := if e.natAbs ≤ 2 then 0 else (Nat.min e.natAbs 8 : Nat)
  let s := s.setTwin { s.twin with alignErr := e, alignOver := beyond, steer := if 0 < e then -by_ else by_ }
  if 3 ≤ beyond then (s.setTwin { s.twin with alignOver := 0 }).planRole 2 8 0 else s

/-- Insert a measured error by its value. -/
def insertError (x : Int) : List Int → List Int
  | [] => [x]
  | y :: rest => if x ≤ y then x :: y :: rest else y :: insertError x rest

/-- The median of the errors of the rings; of an even number the mean of the two in the middle, rounded down (DESIGN CHOICE, log entry
79). -/
def median (es : List Int) : Option Int :=
  let l := es.foldl (fun l x => insertError x l) []
  if l.isEmpty then none
  else some ((l.getD ((l.length - 1) / 2) 0 + l.getD (l.length / 2) 0) / 2)

end State

end Sys2Proof.Machine
end

