-- ==== Sys2Proof/Machine/RingOps.lean ====
section
/-! DEFINITION. What the rows of the Snirin ring share (R231 to R267): the layout of frames, headers, windows and seals, the roles
of a port, composition and launch, and the classification and attribution of damage. -/

namespace Sys2Proof.Machine

/-! ### Layout (R235 to R245) -/

/-- Byte `i` of a list; 0 past its end. -/
def rb (bs : List Byte) (i : Nat) : Nat := (byteAt bs i).toNat

/-- A little-endian field of `n` bytes at `i`. -/
def rle (bs : List Byte) (i n : Nat) : Nat := leNat ((bs.drop i).take n)

/-- A seal (R240): over the address word, RCYC and the first 28 bytes. KIND 0 header, 1 controller window, 2 unit window. -/
def ringSeal (kind ring addr : Nat) (rcyc : Word) (bs : List Byte) : Word :=
  crc32c (wordBytes (w32 (0x534E0000 + kind * 2 ^ 14 + ring * 2 ^ 12 + addr)) ++ wordBytes rcyc ++ padBytes 28 bs)

/-- 28 bytes with their seal. -/
def sealed (kind ring addr : Nat) (rcyc : Word) (bs : List Byte) : List Byte :=
  padBytes 28 bs ++ wordBytes (ringSeal kind ring addr rcyc bs)

/-- The seal of 32 bytes holds. -/
def sealOk (kind ring addr : Nat) (rcyc : Word) (bs : List Byte) : Bool :=
  bs.length = 32 && rle bs 28 4 = (ringSeal kind ring addr rcyc (bs.take 28)).toNat

/-- The trailer's check (R239). -/
def trailerCheck (bs : List Byte) : Nat := crcGeneric 16 0x1021 0xFFFF false false false (bs.take 4)

/-- A trailer of HOPS and FIRSTSLIP. -/
def trailer (hops first : Nat) : List Byte :=
  let b := leBytes 2 hops ++ leBytes 2 first
  b ++ leBytes 2 (trailerCheck b)

end Sys2Proof.Machine

namespace Sys2Proof.RingFrame

open Sys2Proof.Machine

def type (f : RingFrame) : Nat := rb f.header 0
def nwin (f : RingFrame) : Nat := rle f.header 2 2
def rcyc (f : RingFrame) : Word := w32 (rle f.header 4 4)
def claim (f : RingFrame) : Nat := rle f.header 8 4
def serial (f : RingFrame) : Nat := rle f.header 12 4
def nunit (f : RingFrame) : Nat := rb f.header 18
def joinok (f : RingFrame) : Bool := rb f.header 19 % 2 = 1
def schedid (f : RingFrame) : Nat := rle f.header 20 4
def hops (f : RingFrame) : Nat := rle f.trailer 0 2
def firstslip (f : RingFrame) : Nat := rle f.trailer 2 2

/-- (CLAIM, SERIAL) as one number (R255). -/
def precedence (f : RingFrame) : Nat := f.claim * 2 ^ 32 + f.serial

/-- Controller window `p` of a frame. -/
def window (f : RingFrame) (p : Nat) : List Byte := f.windows.getD (f.nunit + p) []

/-- Unit window `u` of a frame. -/
def unitWindow (f : RingFrame) (u : Nat) : List Byte := if u < f.nunit then f.windows.getD u [] else []

/-- An order field holds no reserved value (R266). -/
def orderOk (w : Nat) : Bool := w / 2 ^ 12 ≤ 3 && bitsOf 11 10 w = 0

/-- The windows that the type of a frame allows (R238). -/
def countsOk (f : RingFrame) : Bool :=
  if f.type = 2 ∨ f.type = 3 then decide (f.nwin ≤ 512 ∧ 1 ≤ f.nunit ∧ f.nunit ≤ 2) else f.nwin = 0 && f.nunit = 0

/-- A valid header on ring `r`: its seal holds and no field holds a reserved value (R237). -/
def headerOk (f : RingFrame) (r : Nat) : Bool :=
  f.header.length = 32 && sealOk 0 r 0 f.rcyc f.header && 1 ≤ f.type && f.type ≤ 4 && rb f.header 1 = r &&
    f.countsOk && 5 ≤ rle f.header 16 2 && rle f.header 16 2 ≤ 800 && rb f.header 19 < 2 &&
    orderOk (rle f.header 24 2) && orderOk (rle f.header 26 2)

/-- A valid frame on ring `r` (R237): a valid header, the length that it gives, and no code group but those of R233. -/
def ok (f : RingFrame) (r : Nat) : Bool :=
  f.headerOk r && f.codeOk && f.trailer.length = 6 && f.windows.all (·.length = 32) && f.windows.length = f.nunit + f.nwin

/-- The trailer's check holds (R239). -/
def trailerOk (f : RingFrame) : Bool := f.trailer.length = 6 && rle f.trailer 4 2 = trailerCheck f.trailer

/-- The codes of the orders in a header of ring `r` that are addressed to the unit of unit window 1; none unless its seal holds (R266). -/
def unitOrders (r : Nat) (h : List Byte) : List Nat :=
  if h.length = 32 ∧ sealOk 0 r 0 (w32 (rle h 4 4)) h then
    ([rle h 24 2, rle h 26 2].filter fun w => bitsOf 9 0 w = 0x3FF && bitsOf 11 10 w = 0).map (· / 2 ^ 12)
  else []

/-- Two code groups a byte, low nibble first (R233). -/
def nibbles (bs : List Byte) : List (BitVec 4) := bs.flatMap fun b => [b.extractLsb' 0 4, b.extractLsb' 4 4]

/-- Bytes from code groups; a group left over is the low half of a last byte. -/
def ofNibbles : List (BitVec 4) → List Byte
  | a :: b :: rest => (b ++ a) :: ofNibbles rest
  | [a] => [(0 : BitVec 4) ++ a]
  | [] => []

/-- Cut bytes into `n` windows; the last takes what is left. -/
def cutWindows : Nat → List Byte → List (List Byte)
  | 0, _ => []
  | 1, bs => [bs]
  | n + 1, bs => bs.take 32 :: cutWindows n (bs.drop 32)

/-- The frame that leaves an elastic buffer which slipped (R251): a code group is inserted or dropped at its place in the header and the
windows, and every byte behind it is shifted by one group. -/
def slipped (f : RingFrame) (x : Slip) : RingFrame :=
  let g := nibbles (f.header ++ f.windows.flatten)
  let g := match x.group with
    | some v => g.take x.pos ++ v :: g.drop x.pos
    | none => g.take x.pos ++ g.drop (x.pos + 1)
  let bs := ofNibbles g
  if f.windows.length = 0 then { f with header := bs }
  else { f with header := bs.take 32, windows := cutWindows f.windows.length (bs.drop 32) }

end Sys2Proof.RingFrame

namespace Sys2Proof.Machine

/-- The classes of a controller window in a returned frame (R263). -/
inductive WinClass where
  | unwritten | ok | cmdbad | echo | sealfail
deriving DecidableEq, Repr

/-- The class of a window of the controller at `addr`, of which the master sent `sent`. -/
def classify (ring addr : Nat) (rcyc : Word) (sent w : List Byte) : WinClass :=
  let good := sealOk 1 ring addr rcyc w
  let wit := rb w 27
  if good ∧ w.take 18 = sent.take 18 ∧ ((w.drop 18).take 10).all (· = 0) then .unwritten
  else if good ∧ bitsOf 3 3 wit = 1 then .cmdbad
  else if good ∧ w.take 18 ≠ sent.take 18 then .echo
  else if good ∧ bitsOf 1 1 wit = 1 then .ok
  else .sealfail

/-- A window counts under R31. -/
def WinClass.counts (c : WinClass) : Bool := c = .ok || c = .cmdbad

/-- A damaged window. -/
def WinClass.damaged (c : WinClass) : Bool := c = .cmdbad || c = .echo || c = .sealfail

/-- A port with nothing behind it. -/
def freshPort : Port := ⟨[], [], none, 0, none, none, false, 0, 0, 0, [], 0, false, none, none, 0, none, 0, none, [], [], 0, none, 0, []⟩

namespace State

/-- Port `r`. -/
def port (s : State) (r : Nat) : Port := Store.get (fun _ => freshPort) s.rings r

/-- Replace port `r`. -/
def setPort (s : State) (r : Nat) (x : Port) : State := { s with rings := Store.set (fun _ => freshPort) s.rings r x }

/-- The role of a port (R253): 0 STOPPED, 1 LISTEN, 2 COLD, 3 BACKOFF, 4 SURVEY, 5 RUN, 6 PASS, 7 STOPPING, 8 UNUSED, 9 HALTED. -/
def ringRole (s : State) (r : Nat) : Nat := s.fld (Fld.RNG_x_STAT_ROLE r)

/-- The port is inserted (R260). -/
def inserted (s : State) (r : Nat) : Bool := s.flag (Fld.RNG_x_STAT_INSERTED r)

/-- The unit masters the ring and sends its frames: roles COLD, SURVEY, RUN and STOPPING. -/
def masters (s : State) (r : Nat) : Bool := [2, 4, 5, 7].contains (s.ringRole r)

/-- The branch of ring `r`. -/
def ringBranch (r : Nat) : Nat := r % 2

/-- The image uses ring `r`. -/
def ringUsed (s : State) (r : Nat) : Bool := bitsOf r r (s.fld Fld.RSCH_STAT_USED) = 1

/-- The unit is the preferred master of ring `r` (R253). -/
def prefers (s : State) (r : Nat) : Bool := !s.isTwin || s.letter = r / 2

/-- The ring cycle number (R30). -/
def ringCycle (s : State) : Word :=
  s.vcyc * w32 s.ringsPerCycle + w32 s.cyc.i

/-- The field of `OUT_RINGEN` for ring `r`. -/
def ringEnField (r : Nat) : Field := ⟨Reg.OUT_RINGEN, 8 * r + 7, 8 * r⟩

/-- Pass to a role (R253 to R258). -/
def setRingRole (s : State) (r role : Nat) : State :=
  let old := s.ringRole r
  if old = role then s else
  let s := (s.setFld (Fld.RNG_x_STAT_ROLE r) role).setFld (Fld.RNG_x_STAT_MASTER r) (b2n ([2, 4, 5, 7].contains role))
  let on := [2, 4, 5, 7].contains role
  let s := if on then s else (s.setFld (ringEnField r) 0).setFld (Fld.RNG_x_ROT_LAST r) 0
  let p := s.port r
  let s := s.setPort r { p with frames := 0, coldBack := 0, coldRun := 0, launched := none, cut := false,
                                survey := if role = 4 then [] else p.survey, unclear := 0, single := [],
                                orders := if on then p.orders else [],
                                contain := if role = 5 then p.contain else none }
  let s := if role = 2 then s.addSat (Fld.RNG_x_COLD_TRIES r) 1 else s
  let s := if role = 3 then
      let n := 4 + s.nv.serial.toNat % 8
      ((s.addSat (Fld.RNG_x_COLD_YIELDS r) 1).setFld (Fld.RNG_x_COLD_BACKOFF r) n).setPort r { s.port r with backoffLeft := n }
    else s
  (s.raiseRec 0x0503 (Page.RNG r) (w32 r) [w32 old, w32 role]).raiseEvt (Page.RNG r) Evt.RNG_ROLECHG

/-- Enter LISTEN, and act at once on the first two rows of its table (R254): HALT, and a valid frame of another master in the last 8 ring
cycles. -/
def enterListen (s : State) (r : Nat) : State :=
  let s := s.setRingRole r 1
  if s.flag (Fld.RNG_x_CTRL_HALT r) then s.setRingRole r 0
  else if (s.port r).foreign.any (· < 8) then s.setRingRole r 6
  else s

/-- Begin the STOP sequence (R258), with the role that follows it. -/
def stopRing (s : State) (r after : Nat) : State :=
  (s.setRingRole r 7).setPort r { (s.setRingRole r 7).port r with after := after }

/-- A write of 1 to `RNG_x_CTRL.HALT` takes effect (R258); LISTEN passes to STOPPED (R254). -/
def haltRing (s : State) (r : Nat) : State :=
  match s.ringRole r with
  | 2 | 4 | 5 => s.stopRing r 0
  | 1 => s.setRingRole r 0
  | _ => s

/-- HALT returns to 0: a stopped ring may start again (R258). -/
def unhaltRing (s : State) (r : Nat) : State := if s.ringRole r = 0 then s.enterListen r else s

/-! ### Composition and launch (R207, R245, R247, R248) -/

/-- The 6-bit element command of a committed word (R242). -/
def elementCommand (o : Nat) (v : Word) : Nat := if 3 ≤ o / 8192 ∧ 0x3F < v.toNat then 0 else v.toNat % 64

/-- The CMD field of the controller at `addr` from the committed words. -/
def commandField (s : State) (addr : Nat) : Nat := match s.prog with
  | none => 0
  | some pr => pr.bindings.foldl (fun a b =>
      if bitsOf 31 30 b.2.toNat = 1 ∧ bitsOf 25 16 b.2.toNat = addr then
        match s.com.committed.find? fun e => e.1 = b.1 with
        | some e => a ||| elementCommand b.1 e.2 * 2 ^ (6 * bitsOf 4 0 b.2.toNat)
        | none => a
      else a) 0

/-- EN of the command sections for ring cycle `j` (R207). -/
def ringEn (s : State) (j : Word) : Nat := if ¬ s.energy then 0 else if j.toNat % 2 = 0 then 0x5A else 0xA5

/-- Compose the 18 bytes of a command section for ring cycle `j`, with a claim. -/
def commandSection (s : State) (claim addr : Nat) (j : Word) : List Byte :=
  if s.energy then
    leBytes 4 claim ++ [BitVec.ofNat 8 (s.ringEn j), 0] ++ leBytes 12 (if s.flag Fld.TWIN_STAT_RESTRICT then 0 else s.commandField addr)
  else leBytes 4 (claim % 2 ^ 24) ++ List.replicate 14 0

/-- The controller windows of branch `b`. -/
def branchWindows (s : State) (b : Nat) : Nat := if b = 0 then s.fld Fld.RSCH_NWIN_BR0 else s.fld Fld.RSCH_NWIN_BR1

/-- The unit window of this unit (R245). -/
def unitBytes (s : State) : List Byte :=
  wordBytes s.nv.serial ++ leBytes 4 s.claim ++ [BitVec.ofNat 8 s.opState, BitVec.ofNat 8 s.tflags, 0, 0] ++
    wordBytes (s.reg Reg.POD_DIGCYC) ++ wordBytes (s.reg Reg.POD_DIGLO) ++ wordBytes (s.reg Reg.POD_DIGHI) ++
    wordBytes (s.ive.digest.extractLsb' 0 32)

/-- The frame type of a master's role. -/
def frameType (role : Nat) : Nat := if role = 2 then 1 else if role = 4 then 2 else if role = 5 then 3 else 4

/-- The frame that the master of ring `r` launches in ring cycle `j` (R238). -/
def launchFrame (s : State) (r : Nat) (j : Word) : RingFrame :=
  let t := frameType (s.ringRole r)
  let p := s.port r
  let full := t = 2 || t = 3
  let nwin := if full then s.branchWindows (ringBranch r) else 0
  let nunit := if full then s.fld Fld.RSCH_NUNIT_NUNIT else 0
  let ords := p.orders.take 2
  let ord := fun i => match ords[i]? with
    | some (c, tgt) => c * 2 ^ 12 + tgt % 1024
    | none => 0
  let join := (t = 1 || t = 3) && ords.isEmpty
  let h := [BitVec.ofNat 8 t, BitVec.ofNat 8 r] ++ leBytes 2 nwin ++ wordBytes j ++ leBytes 4 s.claim ++ wordBytes s.nv.serial ++
    leBytes 2 (s.tvMs * 4 / s.ringsPerCycle) ++ [BitVec.ofNat 8 nunit, BitVec.ofNat 8 (b2n join)] ++
    wordBytes (s.reg Reg.RSCH_SCHEDID) ++ leBytes 2 (ord 0) ++ leBytes 2 (ord 1)
  let units := (List.range nunit).map fun u => sealed 2 r u j (if u = 0 then s.unitBytes else [])
  let wins := (List.range nwin).map fun q => sealed 1 r (ringBranch r * 512 + q) j (p.tx.getD q (List.replicate 18 0))
  ⟨sealed 0 r 0 j h, units ++ wins, trailer 0 0xFFFF, true⟩

/-- Show a valid header that was sent or received. -/
def showHeader (s : State) (r : Nat) (f : RingFrame) : State :=
  (s.setReg (Reg.RNG_x_MCLAIM r) (w32 f.claim)).setReg (Reg.RNG_x_MSERIAL r) (w32 f.serial)

/-- Show what a frame sent or forwarded carries: JOINOK, and RCYC of a valid one. -/
def showSent (s : State) (r : Nat) (f : RingFrame) : State :=
  let s := s.setFld (Fld.RNG_x_STAT_JOINOK r) (b2n f.joinok)
  if f.ok r then s.setReg (Reg.RNG_x_CYCLE r) f.rcyc else s

/-- A readmission goes with the next header (R267), behind an order that is due in ORD0. -/
def readmit (s : State) (r : Nat) : State :=
  if s.flag (Fld.RNG_x_READMIT_REQ r) then
    let p := s.port r
    (s.setPort r { p with orders := p.orders.take 1 ++ (3, s.fld (Fld.RNG_x_READMIT_POS r)) :: p.orders.drop 1 }).setFld
      (Fld.RNG_x_READMIT_REQ r) 0
  else s

/-- A master launches its frame for the present ring cycle (R248), and sends the cut signal behind it if that is its order (R265). -/
def launch (s : State) (r : Nat) : State :=
  let s := s.readmit r
  let f := s.launchFrame r s.ringCycle
  let p := s.port r
  let s := s.setPort r { p with sent := f.windows.drop f.nunit, launched := some s.ticks, frames := p.frames + 1,
                                orders := p.orders.drop 2, cut := false }
  let s := (s.showHeader r f).showSent r f
  { s with out := (if p.cut then [.cut r] else []) ++ .ring r f :: s.out }

/-! ### Witness (R294) -/

/-- Take the witness byte of a checked window of class OK or CMDBAD: coverage, and HEAR for a ring of the partner. -/
def noteWitness (s : State) (addr wit : Nat) : State :=
  if ¬ s.isTwin then s else
  let b := addr / 512
  let mine := fun (r : Nat) => s.reg (Reg.RNG_x_MSERIAL r) = s.reg Reg.TWIN_PSERIAL && s.reg Reg.TWIN_PSERIAL != 0
  let hear := (mine b && bitsOf 5 5 wit = 1) || (mine (b + 2) && bitsOf 4 4 wit = 1)
  let t := s.twin
  s.setTwin { t with covered := if t.covered.contains addr then t.covered else addr :: t.covered,
                     hearNow := t.hearNow + b2n hear, heardNow := t.heardNow || hear, hearMax := Nat.max t.hearMax (t.hearNow + b2n hear) }

/-! ### Windows that count (R31) -/

/-- Take a window of the controller at `addr` received on ring `r` since the last close point. -/
def takeWindow (s : State) (r addr : Nat) (w : List Byte) : State :=
  let x : RxWindow := ⟨BitVec.ofNat 64 (rle w 18 8), byteAt w 26⟩
  let f := fun (e : CtrlEntry) =>
    if e.addr ≠ addr then e else if r < 2 then { e with rxA := some x } else { e with rxB := some x }
  ({ s with cyc := { s.cyc with entries := s.cyc.entries.map f } } : State).noteWitness addr (rb w 27)

/-! ### Received frames -/

/-- The guardian of a port bypasses it in the next gap and latches it excluded (R266). -/
def exclude (s : State) (r : Nat) : State := s.setPort r { s.port r with excluded := true, relayGoal := some false }

/-- A BYPASS order reaches the unit of unit window 1 (R266). -/
def obeyBypass (s : State) (r : Nat) : State := s.exclude r

/-- A CUT_NEXT order: an inserted port sends H for 500 µs after the end delimiter (R266). -/
def obeyCutNext (s : State) (r : Nat) : State := if s.inserted r then { s with out := .cut r :: s.out } else s

/-- A JOIN order: the exclusion is cleared, and the port may insert under R260. -/
def obeyJoin (s : State) (r : Nat) : State := s.setPort r { s.port r with excluded := false }

/-- The guardian of port `r` obeys the orders of code `code` in a header that it receives; the master of the ring is no target (R266). -/
def obeyCode (s : State) (r : Nat) (h : List Byte) (code : Nat) (act : State → State) : State :=
  if ¬ s.masters r ∧ code ∈ RingFrame.unitOrders r h then act s else s

/-- The guardian obeys the orders in a received header, whatever else is wrong with the frame (R266). -/
def obey (s : State) (r : Nat) (h : List Byte) : State :=
  let s := s.obeyCode r h 1 fun s => s.obeyBypass r
  let s := s.obeyCode r h 2 fun s => s.obeyCutNext r
  s.obeyCode r h 3 fun s => s.obeyJoin r

/-- A foreign window table (R259). -/
def noteSched (s : State) (f : RingFrame) : State :=
  if f.schedid ≠ (s.reg Reg.RSCH_SCHEDID).toNat then
    (s.setReg Reg.RSCH_SCHEDFOR (w32 f.schedid)).raiseEvt Page.RSCH Evt.RSCH_SCHED
  else s

/-- The claims in the command sections of a frame's controller windows whose seals hold (R276). -/
def sectionClaims (r : Nat) (f : RingFrame) : List Nat :=
  (List.range f.nwin).filterMap fun p =>
    let w := f.window p
    if sealOk 1 r (ringBranch r * 512 + p) f.rcyc w then some (rle w 0 4) else none

/-- A valid frame counts for the timers of LISTEN and PASS (R254). -/
def heardValid (s : State) (r : Nat) (f : RingFrame) : State :=
  s.setPort r { s.port r with quiet := 0, sinceStop := if f.type = 4 then some 0 else none }

/-- R286: the frame of a ring that the active unit masters. Its start delimiter arrived at an offset from the own tR(j). While the link is
up and the unit is aligned the offset is recorded; while it is down the difference from the recorded one is measured, and a changed HOPS
makes a new record. -/
def noteOffset (s : State) (r : Nat) (x : RingRx) : State :=
  let f := x.frame
  if ¬ s.isTwin ∨ s.isActive ∨ s.role = 0 ∨ f.claim / 2 ^ 24 ≠ 2 ∨ f.serial ≠ (s.reg Reg.TWIN_PSERIAL).toNat then s else
  let tr : Int := (s.tvMs * 25000 / s.ringsPerCycle : Nat)
  let own : Int := (s.cyc.tick0 : Int) + (f.rcyc - s.vcyc * w32 s.ringsPerCycle).toInt * tr
  let o : Int := (s.ticks : Int) - (x.ago : Int) - own
  let p := s.port r
  if s.linkUp then
    if s.twin.alignErr.natAbs ≤ 2 then s.setPort r { p with offset := some o, offHops := f.hops } else s
  else match p.offset with
    | some o₀ => if p.offHops = f.hops then s.setPort r { p with measured := some (o - o₀) }
      else s.setPort r { p with offset := some o, offHops := f.hops }
    | none => s.setPort r { p with offset := some o, offHops := f.hops }

/-- A valid frame of another master: it counts for the port's timers and for insertion (R254, R260), and shows claims (R276). -/
def heardFrame (s : State) (r : Nat) (x : RingRx) : State :=
  let f := x.frame
  let s := s.heardValid r f
  let p := s.port r
  let pair := p.lastRx = some (f.rcyc - 1)
  let fits := f.joinok && x.drift.natAbs ≤ 1000
  let goal := if ¬ s.inserted r ∧ ¬ p.excluded ∧ pair ∧ fits ∧ s.ringRole r ≠ 8 then some true else p.relayGoal
  let s := s.setPort r { p with foreign := some 0, lastRx := some f.rcyc, heardType := f.type, relayGoal := goal }
  let s := s.noteOffset r x
  let s := ((s.showHeader r f).noteSched f).seeClaim f.claim
  let s := (sectionClaims r f).foldl seeClaim s
  if s.ringRole r = 1 then s.enterListen r else s

/-- R252: the drift of IN, and slips; a node beyond the limits bypasses itself in the next gap. DRIFT also shows a FIRSTSLIP. -/
def noteDrift (s : State) (r : Nat) (x : RingRx) : State :=
  let s := (s.setFld (Fld.RNG_x_DRIFT_PPM10 r) (BitVec.ofInt 16 x.drift).toNat).setFld (Fld.RNG_x_STAT_LINK r) 1
  let s := if 1000 < x.drift.natAbs ∨ (x.frame.trailerOk ∧ x.frame.firstslip ≠ 0xFFFF) then s.raiseEvt (Page.RNG r) Evt.RNG_DRIFT else s
  let p := s.port r
  let slips := (x.slip.isSome :: p.slips).take 8
  let out := (1500 < x.drift.natAbs || 2 ≤ (slips.filter id).length) && s.inserted r
  s.setPort r { p with slips := slips, relayGoal := if out then some false else p.relayGoal }

/-- A port that is not master forwards the frame (R251): a slip damages it, unit window 1 is written in a RUN or SURVEY frame, and the
trailer is rewritten. -/
def forward (s : State) (r : Nat) (x : RingRx) : State :=
  if ¬ s.inserted r ∨ s.masters r then s else
  let f := match x.slip with
    | some p => x.frame.slipped p
    | none => x.frame
  let own := s.isTwin && x.frame.nunit = 2 && (x.frame.type = 2 || x.frame.type = 3)
  let wins := if own then f.windows.set 1 (sealed 2 r 1 x.frame.rcyc s.unitBytes) else f.windows
  let hops := (f.hops + 1) % 65536
  let first := if f.firstslip = 0xFFFF ∧ (x.slip.isSome ∨ ¬ f.codeOk) then hops else f.firstslip
  let g : RingFrame := ⟨f.header, wins, trailer hops first, f.codeOk⟩
  let s := s.showSent r g
  { s with out := .ring r g :: s.out }

/-- A frame of another master arrives: a valid one is taken, any is forwarded, and the guardian obeys its header. -/
def ringRx (s : State) (r type : Nat) (x : RingRx) (body : State → State) : State :=
  if s.ringRole r = 8 then s.obey r x.frame.header else
  let s := s.noteDrift r x
  let s := if x.frame.ok r ∧ x.frame.type = type then body (s.heardFrame r x) else s
  (s.forward r x).obey r x.frame.header

/-- R255, R256: a COLD or RUN frame of a higher (CLAIM, SERIAL) makes a port in COLD or RUN back off. -/
def yieldTo (s : State) (r : Nat) (f : RingFrame) : State :=
  let own := s.claim * 2 ^ 32 + s.nv.serial.toNat
  if (s.ringRole r = 2 ∨ s.ringRole r = 5) ∧ own < f.precedence then s.setRingRole r 3 else s

/-- A unit window of the partner (R245), in a frame whose seals hold. -/
def takeUnitWindow (s : State) (r u : Nat) (f : RingFrame) : State :=
  let w := f.unitWindow u
  if ¬ s.isTwin ∨ ¬ sealOk 2 r u f.rcyc w ∨ rb w 8 = 0 ∨ rle w 0 4 = s.nv.serial.toNat then s else
  let v : PartnerView := ⟨w32 (rle w 12 4), w32 (rle w 4 4), rb w 8, rb w 9,
    BitVec.ofNat 64 (rle w 20 4 * 2 ^ 32 + rle w 16 4), BitVec.ofNat 64 (rle w 24 4)⟩
  let s := (s.setReg Reg.TWIN_PCLAIM (w32 (rle w 4 4))).setReg Reg.TWIN_PSERIAL (w32 (rle w 0 4))
  ((s.setTwin { s.twin with window := some (v, 0) }).takeComparison).seeRival (rle w 4 4) (rle w 0 4)

/-! ### The order table and the damage point (R259, R264) -/

/-- The order table of ring `r`, rotated to begin at this unit as master. -/
def rotated (s : State) (r : Nat) : List Nat := match s.prog with
  | none => []
  | some pr =>
    let t := pr.orders.getD r []
    let me := if s.isTwin ∧ s.letter = 1 then 0x401 else 0x400
    t.dropWhile (· != me) ++ t.takeWhile (· != me)

/-- The classes of the controller windows of a returned frame, by position: of the windows that the master sent, in the ring cycle in
which it sent them, whatever became of the header. -/
def windowClasses (s : State) (r : Nat) (f : RingFrame) : List WinClass :=
  let sent := (s.port r).sent
  let nunit := f.windows.length - sent.length
  (List.range sent.length).map fun p =>
    classify r (ringBranch r * 512 + p) s.ringCycle (sent.getD p []) (f.windows.getD (nunit + p) [])

/-- The classes of the controller windows of a frame that passes: the unit does not know what its master sent, so that none is ECHO
(DEDUCED, log entry 76). -/
def passingClasses (r : Nat) (f : RingFrame) : List WinClass :=
  (List.range f.nwin).map fun p => classify r (ringBranch r * 512 + p) f.rcyc (f.window p) (f.window p)

/-- Unit window 1 is written (R245). -/
def unitWritten (f : RingFrame) : Bool := 2 ≤ f.nunit && ((f.windows.getD 1 []).take 28).any (· != 0)

/-- A node of the order table is inserted: its window is not UNWRITTEN, or, for the partner, unit window 1 is written. -/
def nodeInserted (f : RingFrame) (cs : List WinClass) (x : Nat) : Bool :=
  if 0x400 ≤ x then unitWritten f else cs.getD x .unwritten != .unwritten

/-- The orders o(x) of the nodes that satisfy every constraint of R264. -/
def candidates (order : List Nat) (f : RingFrame) (cs : List WinClass) : List Nat :=
  let o := fun (p : Nat) => order.idxOf p
  let bad := (List.range cs.length).map fun p => (p, cs.getD p .ok)
  let ins := (List.range order.length).filter fun i => i ≠ 0 && nodeInserted f cs (order.getD i 0)
  let fits := fun (i : Nat) =>
    bad.all (fun x => match x.2 with
      | .sealfail => o x.1 ≤ i
      | .cmdbad => i < o x.1
      | .echo => i = o x.1
      | _ => true) &&
    (f.firstslip = 0xFFFF || ins.idxOf i + 1 = f.firstslip)
  ins.filter fits

/-- The target number of a node (R266). -/
def nodeTarget (x : Nat) : Nat := if 0x400 ≤ x then 0x3FF else x

/-- Record an outcome in `RNG_x_SUSPECT` (R265); SUSPCYC shows the ring cycle of the first and of every change of OUTCOME. -/
def showSuspect (s : State) (r outcome ord pos : Nat) : State :=
  let old := (s.reg (Reg.RNG_x_SUSPECT r)).toNat
  let s := s.setReg (Reg.RNG_x_SUSPECT r) (w32 (2 ^ 31 + outcome * 2 ^ 29 + ord % 1024 * 2 ^ 16 + pos))
  if bitsOf 31 31 old = 0 ∨ bitsOf 30 29 old ≠ outcome then s.setReg (Reg.RNG_x_SUSPCYC r) s.ringCycle else s

/-- Containment ends, cut or failed. -/
def endContain (s : State) (r outcome : Nat) (c : Containment) : State :=
  let s := (s.showSuspect r outcome c.ord c.target).setPort r { s.port r with contain := none, single := [] }
  (s.raiseRec 0x0502 (Page.RNG r) (w32 (r * 2 ^ 16 + c.target)) [s.reg (Reg.RNG_x_SUSPECT r)]).raiseEvt (Page.RNG r) Evt.RNG_CUT

/-- Add an order behind those that wait for a header. -/
def addOrder (s : State) (r code target : Nat) : State :=
  s.setPort r { s.port r with orders := (s.port r).orders ++ [(code, target)] }

/-- An order for ORD0 of the next composed header (R265). -/
def firstOrder (s : State) (r code target : Nat) : State :=
  s.setPort r { s.port r with orders := (code, target) :: (s.port r).orders }

/-- A step of the containment under way, from the first frame that returns behind the one with its last order (R265). -/
def containStep (s : State) (r : Nat) (f : RingFrame) (cs : List WinClass) (c : Containment) : State :=
  if 2 ^ 31 ≤ (s.ringCycle - c.due).toNat then s else
  let still := !(f.hops + 1 = c.hops) || (if c.target < 512 then cs.getD c.target .unwritten != .unwritten else unitWritten f)
  if ¬ still then s.endContain r 1 c
  else if c.step < 3 then
    let s := s.setPort r { s.port r with contain := some { c with step := c.step + 1, due := s.ringCycle + 2 } }
    match c.upstream with
    | some u => s.firstOrder r 2 u
    | none => s.setPort r { s.port r with cut := true }
  else (s.endContain r 2 c).stopRing r 9

/-- Begin the containment of the node of order `i` (R265). -/
def contain (s : State) (r : Nat) (order : List Nat) (f : RingFrame) (cs : List WinClass) (i : Nat) : State :=
  let up := ((List.range i).reverse.find? fun j => j ≠ 0 && nodeInserted f cs (order.getD j 0)).map fun j => nodeTarget (order.getD j 0)
  let c : Containment := ⟨i, nodeTarget (order.getD i 0), up, f.hops, 1, s.ringCycle + 2⟩
  (s.setPort r { s.port r with contain := some c }).firstOrder r 1 c.target

/-- A ring cycle whose frame shows no damage, or is lost: no candidate of it stands for the two cycles that follow (R264). -/
def noSuspect (s : State) (r : Nat) : State :=
  let p := s.port r
  s.setPort r { p with single := (none :: p.single).take 2, unclear := 0 }

/-- Attribute the damage of a returned frame (R264). One node at a time is contained. -/
def attributeDamage (s : State) (r : Nat) (f : RingFrame) (cs : List WinClass) : State :=
  let p := s.port r
  let order := s.rotated r
  let count := fun c => (cs.filter (· = c)).length
  let first := (List.range cs.length).find? fun i => (cs.getD i .ok).damaged
  let damage := cs.any (·.damaged) || f.firstslip != 0xFFFF
  if ¬ damage then s.noSuspect r else
  let s := (s.raiseRec 0x0501 (Page.RNG r) (w32 r) [w32 (count .cmdbad), w32 (count .echo), w32 (count .sealfail),
    w32 (first.getD 0xFFFF)]).raiseEvt (Page.RNG r) Evt.RNG_DAMAGE
  match candidates order f cs with
  | [i] =>
    let s := s.setPort r { s.port r with single := (some i :: p.single).take 2, unclear := 0 }
    let s := s.showSuspect r 0 i (nodeTarget (order.getD i 0))
    if p.single.contains (some i) ∧ p.contain.isNone then s.contain r order f cs i else s
  | _ =>
    let s := s.setPort r { s.port r with single := (none :: p.single).take 2, unclear := p.unclear + 1 }
    if p.unclear + 1 < 8 then s
    else
      let s := (s.showSuspect r 3 0 0).setPort r { s.port r with unclear := 0 }
      s.stopRing r 2

end State

end Sys2Proof.Machine
end

