-- ==== Sys2Proof/Machine/TimeOps.lean ====
section
/-! DEFINITION. Station time and the timekeeper (R402 to R406), and the wake sources (R408). -/

namespace Sys2Proof.Machine

namespace State

/-- Replace the clock. -/
def setClock (s : State) (c : Clock) : State := { s with clock := c }

/-- Station time is SET from now on, from a source as `TIME_STAT.SRC` codes it. -/
def markSet (s : State) (src : Nat) : State :=
  let was := s.flag Fld.TIME_STAT_SET
  let s := (s.setFld Fld.TIME_STAT_SRC src).setFld Fld.TIME_STAT_SET 1
  if was then s else s.raiseEvt Page.TIME Evt.TIME_SET

/-- Nothing is left to slew. -/
def endSlew (s : State) : State :=
  ((s.setReg Reg.TIME_SLEW 0).setFld Fld.TIME_STAT_SLEWING 0).setClock { s.clock with slewPpm := 0 }

/-- Slew `d` ns out at a rate (R405, R406). -/
def slewBy (s : State) (d : Int) (ppm : Nat) : State :=
  if d = 0 then s.endSlew else
  ((s.setReg Reg.TIME_SLEW (BitVec.ofInt 32 d)).setFld Fld.TIME_STAT_SLEWING 1).setClock { s.clock with slewPpm := ppm }

/-- Step station time to `t` (R405): `src` is 1 for TIMESET and 2 for PPS. -/
def stepTime (s : State) (t src : Nat) : State :=
  let old := s.now
  let s := { s.endSlew with now := t }
  (s.raiseRec 0x0806 Page.TIME (w32 src) [w32 old, w32 (old / 2 ^ 32), w32 t, w32 (t / 2 ^ 32)]).raiseEvt Page.TIME Evt.TIME_STEP

/-- A TIMESET value is applied (R405). -/
def applyTime (s : State) (t : Nat) : State :=
  let d : Int := (t : Int) - s.now
  let s := if s.flag Fld.TIME_STAT_SET ∧ d.natAbs ≤ 500000000 then s.slewBy d 1000 else s.stepTime t 1
  s.markSet 1

/-- Vital cycles run, so that a TIMESET waits for the next boundary (R405). -/
def orderTime (s : State) (t : Nat) : State :=
  if s.cyc.running then s.setClock { s.clock with timeset := some t } else s.applyTime t

/-- The TIMESET that waits is applied at the boundary (R405). -/
def boundaryTime (s : State) : State := match s.clock.timeset with
  | some t => (s.setClock { s.clock with timeset := none }).applyTime t
  | none => s

/-- Station time adopted from TSEND (R404). -/
def adoptTime (s : State) (t : Nat) : State := ({ s with now := t }).markSet 2

/-- Station time taken from a SYNC frame (R403). -/
def syncTime (s : State) (t : Nat) : State := ({ s.endSlew with now := t }).markSet 3

/-- The offset of station time from the nearest whole second, ns (R406). -/
def ppsError (now : Nat) : Int :=
  let r := now % 1000000000
  if 500000000 ≤ r then (r : Int) - 1000000000 else r

/-- An accepted PPS edge (R406). -/
def ppsEdge (s : State) : State :=
  let e := ppsError s.now
  let s := (s.setFld Fld.TIME_STAT_PPS_OK 1).setFld Fld.TIME_PPS_ERR (BitVec.ofInt 24 (Int.tdiv e 100)).toNat
  let big := 1000000 < e.natAbs
  let bad := if big then s.clock.ppsBad + 1 else 0
  let s := s.setClock { s.clock with lastPps := some s.ticks, ppsBad := bad }
  if ¬ big then s.slewBy (-e) 100
  else if 4 ≤ bad then (s.setClock { s.clock with ppsBad := 0 }).stepTime ((s.now : Int) - e).toNat 2
  else s

/-- Save station time as the time floor while it is SET (R403). -/
def saveFloor (s : State) : State :=
  if s.flag Fld.TIME_STAT_SET then { s with nv := { s.nv with timeFloor := s.now } } else s

/-- The timekeeper takes over station time and its SET flag (R402). -/
def alignTimekeeper (s : State) : State :=
  if s.flag Fld.TIME_STAT_SET then
    { s with nv := { s.nv with tkValid := true, tkSet := true } }.setFld Fld.TIME_STAT_TK_VALID 1
  else s

/-! ### Wake sources (R408) -/

/-- Wake source `src` (bit 0 PIN, 1 OHP, 2 ALARM) fires, for an OHP wake with its session. An enabled source is recorded in
`PWR_WAKESRC`, counts for a sleep request (R407), and is taken up by the state that waits for it. -/
def fireWake (s : State) (src session : Nat) : State :=
  let st := s.opState
  if ¬ s.flag ⟨Reg.PWR_WAKEEN, src, src⟩ ∨ ¬ (st = 4 ∨ st = 5 ∨ st = 6 ∨ st = 9 ∨ st = 10) then s else
  let s := (s.setFld Fld.PWR_WAKESRC_VALID 1).setFld ⟨Reg.PWR_WAKESRC, src, src⟩ 1
  let s := if src = 1 then s.setFld Fld.PWR_WAKESRC_SESSION session else s
  let s := (s.raiseRec 0x0801 Page.PWR (w32 st) [w32 st]).raiseEvt Page.PWR Evt.PWR_WAKE
  { s with boot := { s.boot with woke := s.boot.woke ||| 2 ^ src } }

end State

/-- TIMEKEEPER_ALIGN (R402): every second, while station time is SET. -/
def execTimekeeperAlign (s : State) : Host.Outcome State Fault Refusal := .next (if s.opState = 0 then s else s.alignTimekeeper)

/-- TIME_FLOOR_SAVE (R403): every 60 s. -/
def execTimeFloorSave (s : State) : Host.Outcome State Fault Refusal := .next (if s.opState = 0 then s else s.saveFloor)

/-- TIMEKEEPER_SUPPLY_BREAK (R402, R392): neither feed is present and the backup store has run out. -/
def execTimekeeperSupplyBreak (s : State) : Host.Outcome State Fault Refusal :=
  if s.pins.feedA = 0 ∨ s.pins.feedB = 0 ∨ s.opState ≠ 0 then .next s else
  .next { s with nv := { s.nv with tkValid := false, tkSet := false,
                                   sealed := s.nv.sealed.map fun x => { x with broken := true } } }

/-- PPS_EDGE (R406): an edge on PPS±. The first edge after PPS has been enabled or lost begins the count. -/
def execPpsEdge (s : State) : Host.Outcome State Fault Refusal :=
  if ¬ s.flag Fld.TIME_CTRL_PPS_EN ∨ s.opState = 0 ∨ (s.isTwin ∧ ¬ s.isActive) then .next s else
  match s.clock.lastPps with
  | none => .next s.ppsEdge
  | some t =>
    let d := (s.ticks - t) * 40
    if 999000000 ≤ d ∧ d ≤ 1001000000 then .next s.ppsEdge
    else .next (s.addSat Fld.TIME_PPS_IGNORED 1)

/-- PPS_TIMEOUT (R406): no accepted edge for 3 s. -/
def execPpsTimeout (s : State) : Host.Outcome State Fault Refusal :=
  let recent : Bool := match s.clock.lastPps with
    | some t => decide (s.ticks < t + 75000000)
    | none => false
  if ¬ s.flag Fld.TIME_STAT_PPS_OK ∨ recent then .next s else
  .next (((s.setFld Fld.TIME_STAT_PPS_OK 0).setClock { s.clock with lastPps := none, ppsBad := 0 }).raiseEvt Page.TIME Evt.TIME_PPS_LOST)

end Sys2Proof.Machine
end

