-- ==== Sys2Proof/Machine/Reset.lean ====
section
/-! DEFINITION. Reset, OFF, PARKED and orderly shut-down (R387, R389, R401, R407), bank modes, and the wipe of the secure bank
(R410, R412). -/

namespace Sys2Proof.Machine

/-- Of the byte memory, module MRAM keeps its contents over OFF and PARKED (R401). -/
def keepMram (m : Store Byte) : Store Byte := m.filter fun e => decide (0x60000000 ≤ e.1 ∧ e.1 < 0x68000000)

/-- A pea over OFF and PARKED: program MRAM keeps its contents (R401). -/
def keepPea (x : Pea) : Pea := { Pea.reset with mram := x.mram, upsets := x.upsets.filter fun u => u.mem = .mram }

namespace State

/-- Reset (R389): station time is saved (R403), the module passes through OFF, every register page is re-initialised (R16), and what is
non-volatile stays.  The cause is what the next start shows.  Live inputs keep what they show. -/
def reboot (s : State) (cause : Nat) : State :=
  let r := State.reset
  let t : State := { r with
    nv := s.saveFloor.nv, now := s.now, ticks := s.ticks, pins := s.pins, lor := s.lor, out := s.out, pending := s.pending,
    mem := keepMram s.mem, evr := { s.evr with q49loss := none }, boot := { r.boot with cause := cause }
    pod := { r.pod with a := keepPea s.pod.a, b := keepPea s.pod.b, c := keepPea s.pod.c } }
  let t := s.nv.factory.foldl (fun t x => t.setReg x.1 x.2) t
  let t := t.setReg Reg.SYS_SERIAL s.nv.serial
  let t := t.setFld Fld.FIO_STAT_VF_OK (s.fld Fld.FIO_STAT_VF_OK)
  let t := t.setFld Fld.EVR_STAT_CLEARING (b2n s.evr.clearing.isSome)
  if cause = 4 then t.setReg Reg.PWR_WAKESRC (s.reg Reg.PWR_WAKESRC) else t

/-- OFF without a reset to follow at once: staging is lost, and after SHUTDOWN the module stays there (R389). -/
def goOff (s : State) (stay : Bool) : State :=
  let t := s.reboot 1
  { t with evr := { t.evr with staging := [] }, boot := { t.boot with stay := stay } }

/-! ### Bank modes (R401) -/

/-- A bank that keeps its contents in RET (R399). -/
def hasRet (b : Nat) : Bool := (3 ≤ b && b ≤ 10) || b = 12 || b = 13

/-- Put a bank into a power mode: 0 ON, 1 RET, 2 OFF. -/
def setBank (s : State) (b m : Nat) : State :=
  if s.fld (Fld.MEM_BANKb_MODE b) = m then s
  else (s.setFld (Fld.MEM_BANKb_MODE b) m).raiseEvt Page.MEM Evt.MEM_MODECHG

/-- Every bank gets the mode that `f` gives it. -/
def setBanks (s : State) (f : Nat → Nat) : State := (List.range 16).foldl (fun s b => s.setBank b (f b)) s

/-! ### Energy (R205, R216, R437) -/

/-- Pump, VRD and group switch carry no energy, and the heartbeats have stopped. -/
def cutEnergy (s : State) : State :=
  let s := ((s.setFld Fld.OUT_STAT_PUMP 0).setFld Fld.OUT_STAT_VRD 0).setFld Fld.OUT_STAT_GROUP 0
  let s := ((s.setFld Fld.OUT_STAT_MODE 0).setReg Reg.OUT_CMD 0).setFld Fld.VOTE_STAT_HB 0
  { s with pod := { s.pod with hbStopped := true } }

/-! ### Orderly shut-down (R389, R407) -/

/-- The bank that a slice tests, if it is a memory slice (R394, R397). -/
def sliceBank (n : Nat) : Option Nat :=
  if 6 ≤ n ∧ n ≤ 8 then some (n - 6)
  else if 9 ≤ n ∧ n ≤ 14 then some (3 + (n - 9) / 2)
  else if 15 ≤ n ∧ n ≤ 17 then some (n - 9)
  else if 20 ≤ n ∧ n ≤ 23 then some (9 + (n - 20) / 2)
  else if n = 29 then some 11
  else if n = 30 then some 12
  else if n = 31 then some 15
  else if n = 33 then some 13
  else if n = 34 then some 14
  else none

/-- The banks while slice `n` runs: those not under test are in RET where they have it (R401). -/
def sliceBanks (s : State) (n : Nat) : State :=
  s.setBanks fun b => if sliceBank n = some b ∨ ¬ hasRet b then 0 else 1

/-- A self-test begins at slice 1 with the peas in TEST (R47): `mode` is 1 at START and 2 at shut-down. -/
def startBist (s : State) (mode : Nat) : State :=
  let s := s.peasTo 6
  let s := ((s.setFld Fld.BIST_STAT_MODE mode).setFld Fld.BIST_STAT_SLICE 1).setReg Reg.BIST_PASS 0
  ({ s with boot := { s.boot with bistAt := s.ticks, bad := false, badPeas := [] } } : State).sliceBanks 1

/-- SHUTDOWN_BIST is entered for an operation of `PWR_SLEEP.OP` (R407): the time floor is saved (R403), the kernel stops, no output
carries energy, and the ports stop their rings or leave them. -/
def enterShutdown (s : State) (op : Nat) : State :=
  let s := ((s.toState 10).saveFloor).stopKernel.cutEnergy
  let s := [0, 1, 2, 3].foldl (fun (s : State) r =>
    if s.masters r then s.stopRing r 0 else s.setPort r { s.port r with relayGoal := some false }) s
  ({ s with boot := { s.boot with parkFor := op, woke := 0, sleep := none } } : State).startBist 2

/-- PARKED (R387, R401, R408): the core rail is off and every bank with it; registers keep what the wake sources and the host port
need. Staged records have been written. -/
def park (s : State) : State :=
  let s := ((writeStaged_ 2049 s).toState 9).peasTo 0
  let s := s.setBanks fun _ => 2
  let s := [0, 1, 2, 3].foldl (fun (s : State) r => s.setFld (Fld.RNG_x_STAT_INSERTED r) 0) s
  { s with pod := { s.pod with a := keepPea s.pod.a, b := keepPea s.pod.b, c := keepPea s.pod.c }, mem := keepMram s.mem, queues := [],
           windows := [], ive := .reset }

/-- A wake source fires: it is recorded (R408), and ends PARKED (R389). -/
def wakeUp (s : State) (src session : Nat) : State :=
  let parked := s.opState = 9
  let s := s.fireWake src session
  if parked ∧ s.boot.woke ≠ 0 then s.reboot 4 else s

/-! ### The secure bank (R410, R412) -/

/-- The secure bank is wiped. -/
def wipe (s : State) : State :=
  ({ s with nv := { s.nv with keys := [], fwKey := none, pgKey := none } } : State).setFld Fld.SEC_STAT_WIPED 1

/-- The record of a tamper, by the cause of the latch (R412). -/
def tamperRecord (s : State) : State := match s.nv.tamper with
  | some (c, _) =>
    let s := s.raiseRec 0x0803 Page.SEC (w32 c) [1]
    { s with nv := { s.nv with tamperDue := false } }
  | none => s

end State

end Sys2Proof.Machine
end

