-- ==== Sys2Proof/Machine/Start.lean ====
section
/-! DEFINITION. Start (R389 to R393): the ROM's table, the steps of START, the seal, the load of the program image, and the blocks. -/

namespace Sys2Proof.Machine

/-- The compatibility level of this module, `SYS_VER.COMPAT` (R7). -/
def ownCompat : Nat := 1

namespace State

/-! ### The ROM start (R390) -/

/-- A stored firmware image passes what R416 still asks of it at START: its mark, level, security version and key. -/
def firmwareOk (s : State) (k : Nat) : Bool :=
  let x := s.slot k
  x.valid && x.compat ≤ ownCompat && s.nv.svnFw ≤ x.svn && (match s.nv.fwKey with
    | some y => y.gen = x.keyGen
    | none => false)

/-- The program of a stored image that passes R416 at START, and the rest of the checks of R451. -/
def programOf (s : State) (k : Nat) : Option Program :=
  let x := s.slot k
  let key : Bool := match s.nv.pgKey with
    | some y => y.gen = x.keyGen
    | none => false
  match x.content with
  | some pr => if x.valid && x.compat ≤ ownCompat && s.nv.svnPg ≤ x.svn && key && x.sound then some pr else none
  | none => none

/-- The rows of R390 that lead to SPROUT: the code of the first that matches, 0 for none. -/
def romSprout (s : State) (svcBreak : Bool) : Nat :=
  if s.nv.lifecycle = 3 then 5
  else if s.lor.levelA ∧ s.lor.levelB ∧ svcBreak then 1
  else if s.nv.fwKey.isNone then 4
  else if ¬ s.firmwareOk 0 ∧ ¬ s.firmwareOk 1 then 2
  else 0

/-- The row of R390 for a slot on trial that has failed its third start (R419): the other slot becomes active. -/
def romRevert (s : State) (k : Nat) : State :=
  let s := s.setSlot k { s.slot k with valid := false, active := false, trial := false, strikes := 0 }
  let o := otherSlot k
  let s := s.setSlot o { s.slot o with active := true }
  let s : State := { s with nv := { s.nv with actEnd := none } }
  let s := (s.raiseRec 0x0804 Page.UPD (w32 k) [7, (s.slot k).build]).raiseEvt Page.SYS Evt.SYS_REVERT
  { s with boot := { s.boot with cause := 7 } }

/-- Station time from the timekeeper, with the SET flag that it holds (R402, R403). -/
def readTimekeeper (s : State) : State :=
  let s := s.setFld Fld.TIME_STAT_TK_VALID (b2n s.nv.tkValid)
  if s.nv.tkValid then s.setFld Fld.TIME_STAT_SET (b2n s.nv.tkSet)
  else { s.setFld Fld.TIME_STAT_SET 0 with now := (Config.unsetTime s.nv.starts).toNat }

/-- The first state after OFF, with its POWER_STATE record; a tamper of the time before is recorded now (R412). -/
def bootTo (s : State) (st cause sprout : Nat) : State :=
  let s : State := { s with boot := { s.boot with off := false, step := if st = 2 then 1 else 0, released := s.ticks } }
  let s := ((s.setFld Fld.SYS_STAT_STATE st).setFld Fld.SYS_START_CAUSE cause).setFld Fld.SYS_START_SPROUT sprout
  let s := (s.raiseRec 0x0801 Page.SYS (w32 st) [0]).raiseEvt Page.SYS Evt.SYS_STATE
  if s.nv.tamperDue then s.tamperRecord else s

/-- A cause that arose in the tick in which SAFE was left takes effect now (R222). -/
def resumeCause (s : State) : State := match s.boot.again with
  | some (c, d, l) => ({ s with boot := { s.boot with again := none } } : State).enterSafe c d l
  | none => s

/-- START begins: `OUT_SAFECNT` is reloaded (R218), and an exit from SAFE is recorded (R220). -/
def beginStart (s : State) : State :=
  let cause := match s.nv.leave with
    | some (_, nrst) => if nrst then 2 else 3
    | none => s.boot.cause
  let s := s.bootTo 2 cause 0
  let s := (s.setFld Fld.OUT_SAFECNT_WIN (Nat.min s.safeWindow.length 3)).setFld Fld.OUT_SAFECNT_TOTAL s.nv.safeTotal
  let s := if cause = 4 then s.raiseEvt Page.SYS Evt.SYS_WAKE else s
  match s.nv.leave with
  | none => s
  | some (row, _) =>
    let s := (s.raiseRec 0x0303 Page.OUT (w32 row) [s.reg Reg.OUT_SAFECNT]).raiseEvt Page.OUT Evt.OUT_LEAVE
    ({ s with nv := { s.nv with leave := none } } : State).resumeCause

/-- The ROM start (R390). -/
def romStart (s : State) (svcBreak : Bool) : State :=
  let s := s.readTimekeeper
  let sp := s.romSprout svcBreak
  if sp ≠ 0 then s.bootTo 1 s.boot.cause sp else
  match s.trialSlot with
  | none => s.beginStart
  | some k =>
    if 3 ≤ (s.slot k).strikes then
      let s := s.romRevert k
      let sp := s.romSprout svcBreak
      if sp ≠ 0 then s.bootTo 1 s.boot.cause sp else s.beginStart
    else (s.setSlot k { s.slot k with strikes := (s.slot k).strikes + 1 }).beginStart

/-- SPROUT is entered from START (R389, R420). -/
def enterSprout (s : State) (code : Nat) : State := (s.toState 1).setFld Fld.SYS_START_SPROUT code

/-- Step 4 begins: the image port writes program MRAM, and the peas are in LOADING (R47). -/
def beginLoad (s : State) : State := ({ s with boot := { s.boot with step := 4 } } : State).peasTo 1

/-! ### Steps 1 to 3 (R391, R392, R410, R413) -/

/-- Step 1: straps (R9), calibration (R413), the repair record (R395). -/
def stepOne (s : State) (f : StartFinding) : State :=
  let s := s.setFld Fld.SYS_STAT_STRAPS s.pins.straps
  let s := (s.setFld Fld.TWIN_STAT_TWIN (b2n (bitsOf 1 1 s.pins.straps = 0))).setFld Fld.TWIN_STAT_LETTER (s.pins.straps % 2)
  let s := s.setFld Fld.RSCH_NUNIT_NUNIT (if s.isTwin then 2 else 1)
  let user := fun (i : Nat) => if f.calBad then (0 : Word) else Store.get (fun _ => 0) s.nv.userCal i
  let s := (List.range 8).foldl (fun (s : State) i =>
    (s.setReg (Reg.CAL_USERi i) (user i)).setFld (Fld.CAL_EFFi_VALUE i) (s.fld (Fld.CAL_FACTi_VALUE i) + (user i).toNat)) s
  let s := if f.calBad then ((s.setFld Fld.CAL_STAT_USERBAD 1).recordUnlisted Page.CAL 6 0 []).raiseEvt Page.CAL Evt.CAL_USERBAD
    else s.setFld Fld.CAL_STAT_USER (b2n (!s.nv.userCal.isEmpty))
  let s := if f.repairBad then
      ({ s with nv := { s.nv with repairs := [] }, boot := { s.boot with full := true } } : State).recordUnlisted Page.BIST 4 0 []
    else s
  { s with boot := { s.boot with step := 2 } }

/-- A life-cycle change that waits for this START (R410): it wipes the secure bank and is recorded. -/
def applyLifecycle (s : State) : State := match s.nv.lcNext with
  | none => s
  | some (lc, hash) =>
    let old := s.nv.lifecycle
    let s : State := { s with nv := { s.nv with lifecycle := lc, lcNext := none,
                                                ownerHash := if lc = 1 then some hash else s.nv.ownerHash } }
    (s.wipe.raiseRec 0x0802 Page.SEC (w32 lc) [w32 old]).raiseEvt Page.SEC Evt.SEC_LIFECYCLE

/-- Step 2: life-cycle, tamper latch and image keys. -/
def stepTwo (s : State) : State :=
  let s := s.applyLifecycle
  let s := match s.nv.tamper with
    | some (c, t) => ((s.setReg Reg.SEC_TAMPER (w32 (2 ^ 31 + c))).setReg Reg.SEC_TAMPTLO (w32 t)).setReg Reg.SEC_TAMPTHI (w32 (t / 2 ^ 32))
    | none => s
  if s.nv.fwKey.isNone ∨ s.nv.pgKey.isNone then s.enterSprout 4
  else { s with boot := { s.boot with step := 3 } }

/-- The CRC of the repair record (R392, R395). -/
def repairsCrc (s : State) : Word := crc32c (wordsBytes s.nv.repairs)

/-- The outcome of the seal (R392) as `SYS_START.SEAL` codes it; `bad` is a seal whose CRC fails. -/
def sealOutcome (s : State) (bad : Bool) : Nat := match s.nv.sealed with
  | none => 0
  | some x =>
    if bad ∨ x.serial ≠ s.nv.serial then 4
    else if x.broken ∨ ¬ s.nv.tkValid ∨ x.time + 259200 * 1000000000 ≤ s.now then 2
    else if x.tampered then 3
    else if x.repairs ≠ s.repairsCrc ∨ s.boot.full ∨ x.used then 4
    else 1

/-- Step 3: a valid seal is used by this start, else the full self-test runs in BIST. -/
def stepThree (s : State) (f : StartFinding) : State :=
  let c := s.sealOutcome f.sealBad
  let s := s.setFld Fld.SYS_START_SEAL c
  if c = 1 then
    let s : State := { s with nv := { s.nv with sealed := s.nv.sealed.map fun x => { x with used := true } } }
    s.beginLoad.raiseEvt Page.SYS Evt.SYS_SEALUSED
  else (s.toState 3).startBist 1

/-! ### Step 4: the program image (R391, R10, R224, R309) -/

/-- Show why a program image was refused at START or at staging (R135, R178). -/
def noteRefusal (s : State) (pr : Program) (sound : Bool) (code detail : Nat) : State :=
  let s := s.refuseProgram code detail pr.imgId
  if code = 6 ∧ sound ∧ pr.famlvl = 9 then
    match iveLoadError pr pr.ive with
    | some (c, d) => (s.setReg Reg.IVE_LOADERR (w32 (2 ^ 31 + c * 2 ^ 24 + d % 2 ^ 20))).raiseEvt Page.IVE Evt.IVE_LOADERR
    | none => s
  else s

/-- The image port loads pea `p`: program MRAM, the initial values of the declared words, and the digests (R92, R135). -/
def loadPea (s : State) (pr : Program) (p : PeaId) : State :=
  let x := pr.code.foldl (fun x (w : Nat × Word) => peaPut p x .mram w.1 w.2) (s.pea p)
  let x := pr.initial.foldl (fun x (w : Nat × Word) => peaPut p x .sram w.1 w.2) x
  (s.setPea p (recomputeDigests pr p x)).setPeaState p 2

/-- A pea enters service. The cycle before its first release counts no scrub slice (R49). -/
def enterService (s : State) (p : PeaId) : State :=
  let s := s.setPea p { s.pea p with scrubDone := true }
  ((s.setFld (Fld.PEA_x_STAT_IN_SERVICE (peaNum p)) 1).setReg (Reg.PEA_x_FAULT (peaNum p)) 0).showPod

/-- Ticks between two rotation tests: INTERVAL ÷ 3 hours (R99). -/
def rotInterval (s : State) : Nat := s.fld Fld.POD_ROTCTRL_INTERVAL * 1200 * 25000000

/-- R10: the segment code of the image differs from the straps. -/
def segmentMismatch (s : State) : Bool := match s.prog with
  | some pr => pr.seg != s.fld Fld.SYS_STAT_STRAPS / 4
  | none => false

/-- R32: at START every controller of the window table is LOST, with age 7, CNT 0 and the restrictive default. -/
def lostEntries (s : State) : List CtrlEntry :=
  (List.range (s.fld Fld.RSCH_NWIN_BR0) ++ (List.range (s.fld Fld.RSCH_NWIN_BR1)).map (512 + ·)).map fun a =>
    ⟨a, restrictive, 0, 7, true, false, 0, none, none⟩

/-- Load a program that has passed every check. The first rotation test falls due INTERVAL ÷ 3 hours from now, with pea a first: R99
gives the order and the spacing, not the start of the schedule (DESIGN CHOICE, log entry 68). -/
def loadProgram (s : State) (pr : Program) (slot : Nat) : State :=
  let s : State := { s with prog := some pr }
  let s := ((s.loadImg pr).setFld Fld.PROG_STAT_LOADED 1).setFld Fld.PROG_STAT_SLOT (slot % 2)
  let s : State := { s with cyc := { s.cyc with entries := s.lostEntries, image := { noImage with entries := s.lostEntries } } }
  let s := [PeaId.a, .b, .c].foldl (fun (s : State) p =>
    if s.boot.badPeas.contains p then s.setPeaState p 5 else (s.loadPea pr p).enterService p) s
  let s := s.setIve { s.ive with tables := pr.ive }
  let s := (s.setReg Reg.IVE_TBLID (pr.ive.getD 2 0)).setReg Reg.IVE_TBLCHK (pr.ive.getD (pr.ive.length - 1) 0)
  let s := (s.setFld Fld.IVE_STAT_H1_OK 1).setFld Fld.IVE_STAT_H2_OK 1
  let s := (s.setFld Fld.VOTE_STAT_V1_OK 1).setFld Fld.VOTE_STAT_V2_OK 1
  let s : State := { s with pod := { s.pod with half := 0, rotNext := s.ticks + s.rotInterval, rotPea := .a } }
  let s := s.raiseEvt Page.PROG Evt.PROG_LOADED
  let s := s.noteClasses
  let s := if s.segmentMismatch then
      (s.raiseRec 0x0406 Page.SYS (w32 (s.fld Fld.SYS_STAT_STRAPS / 4)) [w32 pr.seg]).raiseEvt Page.SYS Evt.SYS_SEGMENT
    else s
  (sfbErrors pr).foldl (fun (s : State) f =>
    ((s.setFld Fld.SFB_STAT_CFGERR 1).raiseRec 0x0306 Page.SFB (w32 f) [s.reg (Reg.SFB_CFGf f)]).raiseEvt Page.SFB Evt.SFB_CFGERR) s

/-- Step 4. -/
def stepFour (s : State) : State :=
  match s.activeSlot 2 with
  | none => s.enterSprout 3
  | some k =>
    match s.programOf k with
    | none => s.enterSprout 3
    | some pr =>
      match stagingError pr (s.slot k).sound s.isTwin with
      | some (c, d) => (s.noteRefusal pr (s.slot k).sound c d).enterSprout 3
      | none =>
        let s := s.loadProgram pr k
        { s with boot := { s.boot with step := 5 } }

/-! ### Steps 5 to 8 (R102, R391, R393, R434) -/

/-- The voters whose injection test gave an unexpected outcome, as `VOTE_KFAULT.VOTER` codes them. -/
def injectionBad (v1 v2 : BitVec 7) : Nat := b2n (v1 ≠ 0x7F) + 2 * b2n (v2 ≠ 0x7F)

/-- Step 5: the energy stage test with the channel record's echo, and the injection test. -/
def stepFive (s : State) (f : StartFinding) : State :=
  let bad := injectionBad f.v1 f.v2
  let s := s.setReg Reg.VOTE_INJ (w32 (2 ^ 31 + b2n (bad = 0) * 2 ^ 30 + f.v2.toNat * 2 ^ 8 + f.v1.toNat))
  let s := s.setFld Fld.VOTE_STAT_INJ_OK (b2n (bad = 0))
  let s := if f.energyOk then (s.setFld Fld.FIO_STAT_CFGOK 1).setFld Fld.FIO_STAT_FPWR 1 else s.enterSafe 8 0 false
  let s := if bad = 0 then s else (s.raiseEvt Page.VOTE Evt.VOTE_INJFAIL).kernelFault 9 bad
  { s with boot := { s.boot with step := 6 } }

/-- The condition of R393 that holds at step 7, those of the first role aside; 0 for none. -/
def blockCode (s : State) : Nat :=
  if s.segmentMismatch then 1
  else if s.flag Fld.SFB_STAT_CFGERR then 2
  else if s.nv.lifecycle ≠ 2 then 4
  else if s.serving.length < 2 then 6
  else 0

/-- The ports of the rings that the image uses take their first role (R253). -/
def firstPorts (s : State) : State := [0, 1, 2, 3].foldl (fun (s : State) r =>
  if s.ringUsed r ∧ (s.ringRole r = 8 ∨ s.ringRole r = 0) then s.enterListen r else s) s

/-- The module enters SAFE_LOCKOUT from the record of an earlier entry (R219). -/
def resumeLockout (s : State) (l : LockRecord) : State :=
  let s := (s.setReg Reg.OUT_SAFE (w32 (2 ^ 31 + 2 ^ 30 + l.cause * 2 ^ 24 + l.detail % 65536))).setReg Reg.OUT_SAFECYC l.cycle
  ((s.stopKernel.setFld Fld.OUT_STAT_MODE 3).toState 8).raiseEvt Page.OUT Evt.OUT_LOCKOUT

/-- Step 7: the ports take their roles, and START ends, waits for the first role, or is blocked. -/
def stepSeven (s : State) : State :=
  let s := s.firstPorts
  let c := s.blockCode
  if c ≠ 0 then s.startBlock c else
  match s.nv.lockout with
  | some l => s.resumeLockout l
  | none =>
    let s := s.twinSend (.readyStart s.letter (b2n s.isTwin) ownCompat)
    let s := s.setTwin { s.twin with readyAt := some s.now }
    { s with boot := { s.boot with step := 8 } }

/-- Every ring that the unit is to master is in RUN (R391): no used port is on its way to mastership. -/
def ringsRunning (s : State) : Bool := [0, 1, 2, 3].all fun r =>
  !s.ringUsed r || !([2, 4].contains (s.ringRole r) || s.prefers r && [1, 3, 7].contains (s.ringRole r))

/-- Step 8: the duration of the start. -/
def stepEight (s : State) : State :=
  let s := s.setFld Fld.SYS_START_DUR_MS (Nat.min ((s.ticks - s.boot.released) * 40 / 1000000) 65535)
  { s with boot := { s.boot with step := 0 } }

end State

/-- RESET_RELEASE (R390): supply is present and both resets are released; `svcBreak` says whether SVC received a break within 2 s.  A
module in OFF after SHUTDOWN stays there. -/
def execResetRelease (svcBreak : Bool) (s : State) : Host.Outcome State Fault Refusal :=
  if ¬ s.boot.off ∨ s.boot.stay ∨ ¬ (s.pins.feedA = 0 ∨ s.pins.feedB = 0) then .next s else
  let s : State := { s with nv := { s.nv with starts := Nat.min (s.nv.starts + 1) 0xFFFFFFFF } }
  .next (s.romStart svcBreak)

/-- START_STEP_COMPLETE (R391): the step under way completes.  Step 6 completes once two checker windows have passed (R67), step 8 once the
first vital cycle has been released and the rings run. -/
def execStartStepComplete (f : StartFinding) (s : State) : Host.Outcome State Fault Refusal :=
  if s.opState = 0 then .next s
  else if s.boot.step = 8 ∧ s.boot.running ∧ s.ringsRunning then .next s.stepEight
  else if s.opState ≠ 2 then .next s else
  match s.boot.step with
  | 1 => .next (s.stepOne f)
  | 2 => .next s.stepTwo
  | 3 => .next (s.stepThree f)
  | 4 => .next s.stepFour
  | 5 => .next (s.stepFive f)
  | 6 => .next (if 2 ≤ s.boot.windows then { s with boot := { s.boot with step := 7 } } else s)
  | 7 => .next s.stepSeven
  | _ => .next s

end Sys2Proof.Machine
end

