-- ==== Sys2Proof/Machine/Bist.lean ====
section
/-! DEFINITION. The full self-test at START and at shut-down, slice by slice (R394 to R397), and what follows its end (R389, R392). -/

namespace Sys2Proof.Machine

/-- The pea that a slice tests (R394). -/
def slicePea (n : Nat) : Option PeaId :=
  let of := fun (k : Nat) => if k = 0 then PeaId.a else if k = 1 then PeaId.b else PeaId.c
  if 3 ≤ n ∧ n ≤ 8 then some (of (n % 3))
  else if 9 ≤ n ∧ n ≤ 14 then some (of ((n - 9) / 2))
  else if 15 ≤ n ∧ n ≤ 17 then some (of (n - 15))
  else none

namespace State

/-- Milliseconds since the self-test began. -/
def bistMs (s : State) : Nat := Nat.min ((s.ticks - s.boot.bistAt) * 40 / 1000000) 65535

/-- Soft repairs of a slice (R395): the repair record takes the entries, up to 1,024. -/
def addRepairs (s : State) (repairs : List Word) : State :=
  if repairs.isEmpty then s else
  let all := (s.nv.repairs ++ repairs).take 1024
  let n := all.length - s.nv.repairs.length
  let s : State := { s with nv := { s.nv with repairs := all } }
  (s.addSat Fld.BIST_REPAIRS_NEW n).raiseEvt Page.BIST Evt.BIST_REPAIR

/-- The outcome of slice `n` in the registers. -/
def sliceResult (s : State) (n : Nat) (pass : Bool) (detail : Nat) : State :=
  let s := match sliceBank n with
    | some b => s.setFld (Fld.MEM_BANKb_FAILED b) (b2n (!pass))
    | none => s
  if pass then (if n ≤ 32 then s.setReg Reg.BIST_PASS (s.reg Reg.BIST_PASS ||| w32 (2 ^ (n - 1))) else s)
  else (s.setReg Reg.BIST_FAIL (w32 (2 ^ 31 + n * 2 ^ 16 + detail))).raiseEvt Page.BIST Evt.BIST_FAIL

/-- The self-test ends. -/
def endBist (s : State) : State :=
  ((s.setFld Fld.BIST_STAT_MODE 0).setFld Fld.BIST_STAT_SLICE 0).setBanks fun _ => 0

/-- BIST at START has run every slice: START goes on at step 4 (R389). -/
def bistPassed (s : State) : State :=
  let s := s.setFld Fld.BIST_DUR_START_MS s.bistMs
  let s := if s.boot.badPeas.isEmpty then s.raiseEvt Page.BIST Evt.BIST_PASS else s
  ((s.endBist).toState 2).beginLoad

/-- The seal (R392). -/
def writeSeal (s : State) : State :=
  let x : SealRec := ⟨s.nv.serial, s.now, s.reg Reg.BIST_PASS, s.repairsCrc, false, false, false⟩
  ({ s with nv := { s.nv with sealed := some x } } : State).raiseEvt Page.BIST Evt.BIST_SEALED

/-- The shut-down test has run every slice (R389): the seal is written if each has passed, and the request takes its course. -/
def shutdownDone (s : State) : State :=
  let s := s.setFld Fld.BIST_DUR_SHUT_MS s.bistMs
  let s := if s.boot.bad then s else (s.raiseEvt Page.BIST Evt.BIST_PASS).writeSeal
  let op := s.boot.parkFor
  let s := s.endBist
  if op = 1 then (writeStaged_ 2049 s).goOff true
  else if op = 2 then s.park
  else s.reboot 5

/-- A slice of the test at START ends (R396). -/
def startSlice (s : State) (n : Nat) (pass : Bool) : State :=
  let next := fun (s : State) => if n = 34 then s.bistPassed else (s.setFld Fld.BIST_STAT_SLICE (n + 1)).sliceBanks (n + 1)
  if pass then next s else
  match slicePea n with
  | some p => next { s with boot := { s.boot with badPeas := if s.boot.badPeas.contains p then s.boot.badPeas else p :: s.boot.badPeas } }
  | none => { s with boot := { s.boot with bad := true } }

/-- A slice of the shut-down test ends: a wake source that has fired since wins (R389). -/
def shutSlice (s : State) (n : Nat) (pass : Bool) : State :=
  let s := if pass then s
    else ({ s with boot := { s.boot with bad := true } } : State).recordUnlisted Page.BIST 5 (w32 n) [s.reg Reg.BIST_FAIL]
  if s.boot.woke ≠ 0 then s.reboot 4
  else if n = 32 then s.shutdownDone
  else (s.setFld Fld.BIST_STAT_SLICE (n + 1)).sliceBanks (n + 1)

end State

/-- BIST_SLICE_END (R394 to R396): the slice that runs ends, after its repeat if it had one, with the repairs it made. -/
def execBistSliceEnd (pass : Bool) (detail : BitVec 16) (noSpare : Bool) (repairs : List Word) (s : State) :
    Host.Outcome State Fault Refusal :=
  let n := s.fld Fld.BIST_STAT_SLICE
  let st := s.opState
  if n = 0 ∨ ¬ (st = 3 ∨ st = 10) ∨ (st = 3 ∧ s.boot.bad) then .next s else
  let s := s.addRepairs repairs
  let s := if noSpare then s.raiseEvt Page.MEM Evt.MEM_NOSPARE else s
  let s := s.sliceResult n pass detail.toNat
  .next (if st = 3 then s.startSlice n pass else s.shutSlice n pass)

end Sys2Proof.Machine
end

