-- ==== Sys2Proof/Machine/FieldIo.lean ====
section
/-! DEFINITION. The local field side (R423 to R435): refresh frames, input filters, test pulses, latches, group switch and the
supplies. -/

namespace Sys2Proof.Machine

namespace State

/-- Replace the field side. -/
def setFio (s : State) (x : Fio) : State := { s with fio := x }

/-- The channels bound as inputs to objects but not in an input mode (R424). -/
def badInputs (s : State) : Word := match s.prog with
  | none => 0
  | some pr => pr.bindings.foldl (fun w b =>
      let c := bitsOf 4 0 b.2.toNat
      if bitsOf 31 30 b.2.toNat = 2 ∧ ¬ s.isInput c then putBit w c true else w) 0

/-- The channels in a test fault (R427). -/
def faultyInputs (s : State) : Word :=
  (List.range 32).foldl (fun w c => putBit w c (Store.get (fun _ => 0) s.fio.tpFault c != 0)) 0

/-- `FIO_LOST` (R424, R427, R433): channels that read as LOST in the image. -/
def showLost (s : State) : State :=
  let inputs := (List.range 32).foldl (fun w c => putBit w c (s.isInput c)) 0
  s.setReg Reg.FIO_LOST ((if s.fio.upLost then inputs else s.faultyInputs) ||| s.badInputs)

/-- The status that a channel shows when nothing of it changes: LINK, test faults, latches, MODE, NOVF, or OK. -/
def restStatus (s : State) (c : Nat) : Nat :=
  let tp := Store.get (fun _ => 0) s.fio.tpFault c
  if s.fio.upLost then 7
  else if tp ≠ 0 then tp
  else if bit s.fio.latch c then (if s.fld (Fld.FIO_CHc_STATUS c) = 4 then 4 else 3)
  else if bit s.fio.modeBad c then 5
  else if bit s.commandedChannels c ∧ ¬ s.flag Fld.FIO_STAT_VF_OK then 6
  else 0

/-- Bring every channel's status up to date. -/
def showStatus (s : State) : State := (List.range 32).foldl (fun s c => s.chStatus c (s.restStatus c)) s

/-! ### Refresh frames (R432) -/

/-- A frame of the barrier: its bytes, then CRC-32C over the address word of its direction and them. -/
def sealed (addr : Word) (body : List Byte) : List Byte := body ++ wordBytes (crc32c (wordBytes addr ++ body))

/-- The downlink with its SEQ, CMD and DARK. -/
def downlinkFrame (seq : BitVec 16) (cmd dark : Word) : List Byte :=
  sealed 0x46490044 (leBytes 2 seq.toNat ++ wordBytes cmd ++ wordBytes dark ++ [0, 0])

/-- The uplink: SEQ of the last valid downlink, filtered inputs, readback, latches, test faults and flags. -/
def uplinkFrame (s : State) (act : Word) : List Byte :=
  let flags := (s.reg Reg.SFB_TPS).toNat % 16 + 16 * b2n (s.flag Fld.FIO_STAT_VF_OK) + 32 * b2n (s.flag Fld.OUT_STAT_GROUP) +
    64 * b2n (s.flag Fld.FIO_STAT_CFGOK)
  sealed 0x46490055 (leBytes 2 s.fio.downGot.toNat ++ wordBytes s.fio.state ++ wordBytes act ++ wordBytes s.fio.latch ++
    wordBytes s.faultyInputs ++ [BitVec.ofNat 8 flags, 0])

/-- A frame as it arrives: byte errors change it, from its first byte on. -/
def withErrors (frame err : List Byte) : List Byte :=
  (frame.zip (padBytes frame.length err)).map fun x => x.1 ^^^ x.2

/-- The little-endian field of `n` bytes at `i`. -/
def frameField (frame : List Byte) (i n : Nat) : Nat := leNat ((frame.drop i).take n)

/-- The CRC of a frame holds. -/
def crcHolds (addr : Word) (frame : List Byte) : Bool :=
  let n := frame.length - 4
  frame.drop n == wordBytes (crc32c (wordBytes addr ++ frame.take n))

/-- A frame is valid: its CRC holds, and its SEQ is one above that of the last frame of its direction whose CRC held, if there has been
one since START (R432; DEDUCED, log entry 82). -/
def refreshOk (addr : Word) (ref : Option (BitVec 16)) (frame : List Byte) : Bool :=
  crcHolds addr frame && (match ref with
    | none => true
    | some q => BitVec.ofNat 16 (frameField frame 0 2) = q + 1)

/-- The reference that a frame leaves for the next of its direction. -/
def nextRef (addr : Word) (ref : Option (BitVec 16)) (frame : List Byte) : Option (BitVec 16) :=
  if crcHolds addr frame then some (BitVec.ofNat 16 (frameField frame 0 2)) else ref

/-- The off-pulses that a downlink starts (R214): the 4,000th refresh, and every 4,000th after it, since the channel became energised. -/
def darkPulses (s : State) (cmd : Word) : Word := (List.range 32).foldl (fun w c =>
  let n := Store.get (fun _ => 0) s.fio.energised c
  putBit w c (bit (s.reg Reg.OUT_DARKEN) c && bit cmd c && n != 0 && n % 4000 == 0)) 0

/-- The refreshes since each channel became energised: the channels of `on` count one more, the others none. -/
def countOn (m : Store Nat) (on : Word) : Store Nat := (List.range 32).foldl (fun m c => Store.set (fun _ => 0) m c
  (if bit on c then Store.get (fun _ => 0) m c + 1 else 0)) m

/-- The channels that are energised behind the barrier. -/
def energisedMask (m : Store Nat) : Word := (List.range 32).foldl (fun w c => putBit w c (Store.get (fun _ => 0) m c != 0)) 0

/-- What the field side does with a downlink as it arrives (R214, R215, R428, R432). -/
def takeDownlink (s : State) (frame : List Byte) : State :=
  let f := { s.fio with downRef := nextRef 0x46490044 s.fio.downRef frame }
  if ¬ refreshOk 0x46490044 s.fio.downRef frame then
    (s.setFio { f with downGood := 0, dark := 0, energised := countOn f.energised (energisedMask f.energised) }).addSat Fld.FIO_LINKERR_DOWN 1
  else
    let cmd : Word := w32 (frameField frame 2 4)
    let good := Nat.min (f.downGood + 1) 8
    let lost := f.downLost && good < 8
    let s := s.setFio { f with downGood := good, downLost := lost, latch := f.latch &&& cmd,
                               downGot := BitVec.ofNat 16 (frameField frame 0 2),
                               dark := if lost then 0 else w32 (frameField frame 6 4),
                               energised := countOn f.energised (if lost then 0 else cmd) }
    if lost then s else s.setFld Fld.FIO_STAT_DNOK 1

/-- The energy stage's downlink (R213, R214, R432), as the field side receives it. -/
def downlink (s : State) (err : List Byte) : State :=
  let cmd := s.downlinkCmd
  let s := s.setReg Reg.OUT_CMD cmd
  let s := s.setFio { s.fio with downSeq := s.fio.downSeq + 1, modeBad := s.commandedChannels &&& ~~~s.outputMask }
  s.takeDownlink (withErrors (downlinkFrame s.fio.downSeq cmd (s.darkPulses cmd)) err)

/-- What the module does with an uplink as it arrives (R432, R433): a valid one brings the filtered inputs and the readback. -/
def takeUplink (s : State) (frame : List Byte) : State :=
  let f := { s.fio with upRef := nextRef 0x46490055 s.fio.upRef frame }
  if ¬ refreshOk 0x46490055 s.fio.upRef frame then (s.setFio { f with upGood := 0 }).addSat Fld.FIO_LINKERR_UP 1
  else
    let good := Nat.min (f.upGood + 1) 8
    let lost := f.upLost && good < 8
    let s := s.setFio { f with upGood := good, upLost := lost }
    let s := (s.setReg Reg.FIO_IN (w32 (frameField frame 2 4))).setReg Reg.OUT_ACT (w32 (frameField frame 6 4))
    let s := s.setFld Fld.FIO_REFSEQ_SEQ (frameField frame 0 2)
    if lost then s else s.setFld Fld.FIO_STAT_UPOK 1

end State

/-- FIELD_REFRESH (R213, R432): one downlink and one uplink with the errors that each suffers, what the channels read back, and the
measured currents and voltages. -/
def execFieldRefresh (downErr upErr : List Byte) (act : Word) (grp : Nat) (meas : List (Nat × Nat × Nat)) (s : State) :
    Host.Outcome State Fault Refusal :=
  if ¬ s.flag Fld.FIO_STAT_CFGOK then .next s else
  let s := s.downlink downErr
  let s := s.takeUplink (State.withErrors (s.uplinkFrame act) upErr)
  let s := (s.setFld Fld.FIO_GRPI_NOW grp).raiseMax Fld.FIO_GRPI_MAX (Nat.min grp 65535)
  let s := meas.foldl (fun s m =>
    (s.setFld (Fld.FIO_CHc_CURRENT (m.1 % 32)) m.2.1).setFld (Fld.FIO_CHc_VOLT (m.1 % 32)) m.2.2) s
  .next s.showStatus.showLost

/-- UPLINK_TIMEOUT (R433): no valid uplink for 1 ms: every local input is LOST. -/
def execUplinkTimeout (s : State) : Host.Outcome State Fault Refusal :=
  if s.fio.upLost then .next s else
  let s := (s.setFio { s.fio with upLost := true, upGood := 0 }).setFld Fld.FIO_STAT_UPOK 0
  .next ((s.showStatus.showLost).raiseEvt Page.FIO Evt.FIO_LINK)

/-- DOWNLINK_TIMEOUT (R215): no valid downlink for 1 ms: the field side de-energises every local output. -/
def execDownlinkTimeout (s : State) : Host.Outcome State Fault Refusal :=
  if s.fio.downLost then .next s else
  let s := (s.setFio { s.fio with downLost := true, downGood := 0, energised := [] }).setFld Fld.FIO_STAT_DNOK 0
  let s := (s.addSat Fld.OUT_BARCNT_COUNT 1).raiseEvt Page.OUT Evt.OUT_BARRIER
  .next (s.raiseEvt Page.FIO Evt.FIO_LINK)

/-- Set the overload latch of channel `c` (R428), shown as LIMIT or THERMAL. -/
def overload (s : State) (c st : Nat) : State :=
  if ¬ s.isOutput c ∨ bit s.fio.latch c then s else
  let s := s.setFio { s.fio with latch := putBit s.fio.latch c true }
  (s.chStatus c st).raiseEvt Page.FIO Evt.FIO_THERM

/-- OVERLOAD_LATCH (R428): 5 ms in current limit without a break. -/
def execOverloadLatch (c : Fin 32) (s : State) : Host.Outcome State Fault Refusal := .next (overload s c 3)

/-- THERMAL_TRIP (R428). -/
def execThermalTrip (c : Fin 32) (s : State) : Host.Outcome State Fault Refusal := .next (overload s c 4)

/-- GROUP_TRIP (R430): the group switch opens and is latched open. -/
def execGroupTrip (s : State) : Host.Outcome State Fault Refusal :=
  let s := (s.setFld Fld.FIO_STAT_GRPTRIP 1).setFld Fld.OUT_STAT_GROUP 0
  .next (s.raiseEvt Page.FIO Evt.FIO_GROUP)

/-- GRPRST (R430): service firmware clears the group latch; with VF_OK at 0 the write is refused with cause 5. -/
def execGrprst (s : State) : Host.Outcome State Fault Refusal :=
  if s.flag Fld.FIO_STAT_VF_OK then
    let s := s.setFld Fld.FIO_STAT_GRPTRIP 0
    .next (s.setFld Fld.OUT_STAT_GROUP (b2n (s.flag Fld.OUT_STAT_PUMP && !s.flag Fld.OUT_STAT_STUCK)))
  else .next (s.errAddr Page.FIO 5 0x20)

/-- VF_CHANGE (R431): VF crosses 16 V. -/
def execVfChange (ok : Bool) (s : State) : Host.Outcome State Fault Refusal :=
  if s.flag Fld.FIO_STAT_VF_OK = ok then .next s else
  let s := s.setFld Fld.FIO_STAT_VF_OK (b2n ok)
  let s := if ok then s.setFld Fld.OUT_STAT_GROUP
      (b2n (s.flag Fld.OUT_STAT_PUMP && !s.flag Fld.FIO_STAT_GRPTRIP && !s.flag Fld.OUT_STAT_STUCK))
    else s.setFld Fld.OUT_STAT_GROUP 0
  .next ((s.raiseEvt Page.FIO Evt.FIO_VF).showStatus)

/-- TPS_FOLDBACK (R435): a test-pulse supply folds back to 20 mA. -/
def execTpsFoldback (k : Fin 4) (s : State) : Host.Outcome State Fault Refusal :=
  .next (s.setReg Reg.SFB_TPS (putBit (s.reg Reg.SFB_TPS) k true))

/-- TPS_FOLDBACK_END (R435): its load has fallen. -/
def execTpsFoldbackEnd (k : Fin 4) (s : State) : Host.Outcome State Fault Refusal :=
  .next (s.setReg Reg.SFB_TPS (putBit (s.reg Reg.SFB_TPS) k false))

namespace State

/-- An input of supply `t` (1 to 4, 0 none) is dead: its supply is in fold-back or VF is absent (R435). -/
def tpsDead (s : State) (t : Nat) : Bool := t != 0 && (bit (s.reg Reg.SFB_TPS) (t - 1) || !s.flag Fld.FIO_STAT_VF_OK)

/-- Channel `c` is inside its masked window (R427): 500 µs from the start of the off-pulse of its supply. -/
def masked (s : State) (c : Nat) : Bool :=
  let t := s.fld (Fld.FIO_CFGc_TPS c)
  t != 0 && (match s.fio.tpsAt.find? (fun e => e.1 = t - 1) with
    | some e => (s.ticks - e.2) * 40 < 500000
    | none => false)

/-- One sample of channel `c` (R426). -/
def sampleChannel (s : State) (c : Nat) (raw : Bool) : State :=
  if s.masked c then s else
  let m := 4 * s.fld (Fld.FIO_CFGc_FILT c)
  let n := Store.get (fun _ => 0) s.fio.count c
  let n := if raw then Nat.min (n + 1) m else n - 1
  let st := if n = m then putBit s.fio.state c true else if n = 0 then putBit s.fio.state c false else s.fio.state
  s.setFio { s.fio with count := Store.set (fun _ => 0) s.fio.count c n, state := st }

/-- The outcome of a test pulse for channel `c` (R427): a failure is declared, a pass counts towards leaving the fault. -/
def tpChannel (s : State) (c k : Nat) (low : Bool) : State :=
  let t := s.fld (Fld.FIO_CFGc_TPS c)
  if ¬ s.isInput c ∨ t = 0 ∨ s.tpsDead t then s else
  let own := t = k + 1
  let fault := if own then (if low then 0 else 1) else if low ∧ bit s.fio.state c then 2 else 0
  let was := Store.get (fun _ => 0) s.fio.tpFault c
  if fault ≠ 0 then
    let s := s.setFio { s.fio with tpFault := Store.set (fun _ => 0) s.fio.tpFault c fault,
                                   tpPass := Store.set (fun _ => 0) s.fio.tpPass c 0 }
    if was = 0 then s.raiseEvt Page.FIO Evt.FIO_TPFAULT else s
  else if own ∧ was ≠ 0 then
    let n := Store.get (fun _ => 0) s.fio.tpPass c + 1
    if n < 100 then s.setFio { s.fio with tpPass := Store.set (fun _ => 0) s.fio.tpPass c n }
    else s.setFio { s.fio with tpPass := Store.set (fun _ => 0) s.fio.tpPass c 0,
                               tpFault := Store.set (fun _ => 0) s.fio.tpFault c 0 }
  else s

/-- The SFB's own check of an input of function `f` (R226, R227): 0 passed, else the cause of the fault. -/
def sfbCheck (s : State) (f k : Nat) (onB low : Bool) : Nat :=
  let t := if onB then s.fld (Fld.SFB_CFGf_TPSB f) else s.fld (Fld.SFB_CFGf_TPSA f)
  if t = 0 ∨ s.tpsDead t then 0
  else if t = k + 1 then (if low then 0 else if onB then 4 else 3)
  else if low ∧ ¬ s.shows f onB then 5
  else 0

/-- The SFB's check of function `f` at the off-pulse of TPSk. -/
def sfbTest (s : State) (f k : Nat) (low : Word) : State :=
  if ¬ s.flag (Fld.SFB_CFGf_EN f) then s else
  let ca := s.fld (Fld.SFB_CFGf_CHA f)
  let cb := s.fld (Fld.SFB_CFGf_CHB f)
  let a := s.sfbCheck f k false (bit low ca)
  let b := s.sfbCheck f k true (bit low cb)
  let note := fun (s : State) (c r : Nat) (mine : Bool) =>
    if r ≠ 0 then { s with sfb := { s.sfb with testBad := putBit s.sfb.testBad c true } }
    else if mine then { s with sfb := { s.sfb with testBad := putBit s.sfb.testBad c false } } else s
  let s := note s ca a (s.fld (Fld.SFB_CFGf_TPSA f) = k + 1)
  let s := note s cb b (s.fld (Fld.SFB_CFGf_TPSB f) = k + 1)
  if a ≠ 0 then s.sfbFault f a else if b ≠ 0 then s.sfbFault f b else s

end State

/-- FIELD_INPUT_SAMPLE (R426): one sample of every channel's comparator; inputs of a dead supply and an unpowered or unconfigured
field side read de-energised (R425, R434, R435). -/
def execFieldInputSample (raw : Word) (s : State) : Host.Outcome State Fault Refusal :=
  let eff := (List.range 32).foldl (fun w c =>
    putBit w c (bit raw c && s.isInput c && s.flag Fld.FIO_STAT_CFGOK && !s.tpsDead (s.fld (Fld.FIO_CFGc_TPS c)))) 0
  let s := s.setReg Reg.FIO_RAW eff
  .next ((List.range 32).foldl (fun s c => if s.isInput c then s.sampleChannel c (bit eff c) else s) s)

/-- TEST_PULSE (R227, R427): TPSk switches off; `low` are the inputs that the field side reads de-energised in the pulse, `sfbLow`
those that the SFB's comparators do. -/
def execTestPulse (k : Fin 4) (low sfbLow : Word) (s : State) : Host.Outcome State Fault Refusal :=
  let s := s.setFio { s.fio with tpsAt := (k.val, s.ticks) :: s.fio.tpsAt.filter (fun e => e.1 != k.val) }
  let s := (List.range 32).foldl (fun s c => s.tpChannel c k (bit low c)) s
  let s := (List.range 8).foldl (fun s f => s.sfbTest f k sfbLow) s
  .next s.showStatus.showLost

end Sys2Proof.Machine
end

