-- ==== Sys2Proof/Machine/Exchange.lean ====
section
/-! DEFINITION. The steps of a program exchange that no request or boundary takes: verification of the staged image (R142),
the end of a pea's migration (R150 to R154), and the limit of the partner's READY (R145). -/

namespace Sys2Proof.Machine

namespace State

/-- The halves of the IVE load the staged tables into their inactive bank and verify them by the table check (R198); `f1` and `f2` are the
bits of words that the bank of half 1 and of half 2 does not take as written. -/
def stageTables (s : State) (f1 f2 : List (Nat × Word)) : State := match s.xch.staged with
  | none => s
  | some new =>
    if s.flag Fld.IVE_STAT_STAGED ∨ ¬ (tablesSound (flipWords new.ive f1) && tablesSound (flipWords new.ive f2)) then s
    else (s.setIve { s.ive with staged := some new.ive }).setFld Fld.IVE_STAT_STAGED 1

end State

/-- STAGED_IMAGE_VERIFIED (R142, R143, R198): the image port has loaded the staged image into pea `p`, and the staged tables into the IVE,
and they are read back. -/
def execStagedImageVerified (p : PeaId) (x : ReadBack) (s : State) : Host.Outcome State Fault Refusal :=
  if s.xch.staged.isNone ∨ s.peaState p = 0 ∨ s.peaState p = 6 then .next s
  else .next ((s.stageTables x.ive1 x.ive2).stagePea p x.pea).showXstat

/-- MIGRATION_END (R150 to R154): pea `p` ends its walk of the new symbol table and emits one DIGEST token. -/
def execMigrationEnd (p : PeaId) (s : State) : Host.Outcome State Fault Refusal :=
  match s.xch.old, s.prog with
  | some old, some new =>
    if ¬ s.xch.migrating.contains p then .next s else
    let s : State := { s with xch := { s.xch with migrating := s.xch.migrating.filter (· != p) } }
    if ¬ s.inService p then .next s.showXstat else
    let s := s.migratePea p old new
    let s := s.raiseMax Fld.PROG_XTIME_MEAS (Nat.min (s.phase / 25) 65535)
    .next (if s.inService p then (s.emitDigest p).showXstat else s.showXstat)
  | _, _ => .next s

/-- XREADY_TIMEOUT (R145): no READY within 1 s. The arming is refused, or, with ALONE, goes on for this unit alone. -/
def execXreadyTimeout (s : State) : Host.Outcome State Fault Refusal :=
  match s.xch.armed with
  | some a =>
    if ¬ a.waiting ∨ a.byPartner ∨ s.ticks < a.since + 25000000 then .next s
    else if a.alone then .next (s.armNow { a with mirrored := false })
    else .next (((s.refuseExchange 0x27).setArmed none).respond a.session a.num 0x0F 0 0x27)
  | none => .next s

end Sys2Proof.Machine
end

