-- ==== Sys2Proof/Machine/Pod.lean ====
section
/-! DEFINITION. What the pod does with peas that are not in service, and with state that has come apart (R49, R51, R94 to R101): path
retest, self-test, re-join, re-seed, rotation tests and the scrub. -/

namespace Sys2Proof.Machine

/-- The pea after `p` in the order of the rotation tests (R99). -/
def nextPea : PeaId → PeaId
  | .a => .b
  | .b => .c
  | .c => .a

/-- The blocks that pass 1 of a re-join copies, in address order: data blocks with declared words outside the input image area, then
the scratch blocks (R100). -/
def passBlocks (pr : Program) : List Nat := (List.range 1024).filter (dataBlock pr) ++ (List.range 64).map (· + 1024)

namespace State

/-! ### The copy engine (R94) -/

/-- Ticks left until the next release. -/
def windowLeft (s : State) : Nat := s.tvMs * 25000 - s.phase

/-- The blocks that the copy engine can still copy after `used` ticks of the window: one takes 256 ticks, and none is started that
would not finish before the next release. -/
def copyRoom (s : State) (used : Nat) : Nat := (s.windowLeft - used) / 256

/-- Copy one block from pea `src` into pea `dst`: canonical values, through the target's store unit. -/
def copyBlock (s : State) (src dst : PeaId) (b : Nat) : State :=
  let m : MemKind := if b < 1024 then .sram else .scratch
  let base := b % 1024 * 1024
  (List.range 1024).foldl (fun (s : State) i =>
    if ¬ s.inService src then s else
    match s.readWord src m (base + i) with
    | (s, some v) => s.writeWord dst m (base + i) v
    | (s, none) => s.uncorrectable src m (base + i)) s

/-- Every pea in service is IDLE. -/
def allIdle (s : State) : Bool := s.serving.all fun p => s.peaState p = 2

/-- The re-seed counter of a pea. -/
def reseedField : PeaId → Field
  | .a => Fld.POD_RESEEDCNT_A
  | .b => Fld.POD_RESEEDCNT_B
  | .c => Fld.POD_RESEEDCNT_C

/-- R96, R97: the re-seed that waits is carried out and recorded. -/
def reseedCopy (s : State) : State :=
  match s.pod.reseed with
  | none => s
  | some r =>
    if ¬ s.allIdle ∨ s.copyRoom 0 < r.blocks.length ∨ ¬ s.inService r.minor ∨ ¬ s.inService r.major then s else
    let first := ((differingBlocks (s.pea r.minor) (s.pea r.major)).head?).getD 0
    let s := r.blocks.foldl (fun (s : State) b => s.copyBlock r.major r.minor b) s
    let win := ((s.pea r.minor).digests.filter fun t => s.now < t + hourNs).length
    let s : State := { s with pod := { s.pod with reseed := none } }
    let s := s.setReg Reg.POD_RESEED
      (w32 (2 ^ 31 + peaNum r.minor * 2 ^ 29 + win % 4 * 2 ^ 27 + first % 2048 * 2 ^ 16 + r.blocks.length % 16))
    let s := ((s.addSat (reseedField r.minor) 1).podCount 28 1).raiseEvt Page.POD Evt.POD_RESEED
    s.raiseRec 0x0105 Page.POD (w32 (peaNum r.minor)) [s.reg Reg.POD_RESEED]

/-! ### Rotation tests (R99) -/

/-- A rotation test has ended, with or without the pea's return to service. -/
def endRotation (s : State) (p : PeaId) (pass : Bool) : State :=
  match s.pod.rotTesting with
  | none => s
  | some (q, t) =>
    if p ≠ q then s else
    let s : State := { s with pod := { s.pod with rotTesting := none } }
    let s := s.setReg Reg.POD_ROTLAST
      (w32 (2 ^ 31 + b2n pass * 2 ^ 30 + peaNum p * 2 ^ 28 + Nat.min ((s.ticks - t) / 25000) 65535))
    let s := (s.setFld Fld.POD_STAT_ROT 0).raiseEvt Page.POD Evt.POD_ROT_DONE
    s.raiseRec 0x0107 Page.POD (w32 (peaNum p)) [s.reg Reg.POD_ROTLAST]

/-- The order moves on past the due pea, and the next test falls due INTERVAL ÷ 3 hours from now. -/
def advanceRotation (s : State) : State :=
  { s with pod := { s.pod with rotNext := s.ticks + s.rotInterval, rotPea := nextPea s.pod.rotPea, rotDeferred := false } }

/-- A rotation test is deferred: the second and third rows of R99's table. -/
def rotationBlocked (s : State) : Bool :=
  s.fld Fld.POD_STAT_MODE != 1 || s.pod.rejoin.isSome || s.xferring || s.xch.old.isSome ||
    (match s.xch.armed with
      | some a => !a.waiting && s.within10s s.vcyc a.x
      | none => false)

/-- The due pea's test is deferred. -/
def deferRotation (s : State) : State :=
  ({ s with pod := { s.pod with rotDeferred := true, rotPending := false } } : State).raiseEvt Page.POD Evt.POD_ROT_DEFER

/-- The pod has a schedule of rotation tests: a program is loaded. -/
def rotationRuns (s : State) : Bool := s.prog.isSome

/-- A rotation test falls due (R99). -/
def rotationDue (s : State) : State :=
  if ¬ s.flag Fld.POD_ROTCTRL_ROT_EN then s.advanceRotation
  else if s.rotationBlocked then s.deferRotation
  else { s with pod := { s.pod with rotPending := true, rotDeferred := false } }

/-- At a boundary, the pea whose test is pending enters TEST and is not released. -/
def startRotation (s : State) : State :=
  if ¬ s.pod.rotPending then s else
  if s.rotationBlocked then s.deferRotation else
  let p := s.pod.rotPea
  let s := s.advanceRotation
  let s : State := { s with pod := { s.pod with rotPending := false, rotTesting := some (p, s.ticks) } }
  let s := s.setPea p { s.pea p with phase := .test, testAt := s.ticks, dr := [], cur := none, queue := [], lagging := false, digestDue := false }
  let s := (s.setPeaState p 6).setFld (Fld.PEA_x_STAT_IN_SERVICE (peaNum p)) 0
  let s := ((s.setFld (Fld.PEA_x_DRFILL_NOW (peaNum p)) 0).setFld Fld.POD_STAT_ROT 1).raiseEvt Page.POD Evt.POD_ROT_START
  let s := s.podCount 31 1
  (s.showPod).afterEvict p

/-! ### Re-join (R100, R101) -/

/-- Show the re-join in `POD_REJOIN`. -/
def showRejoin (s : State) (left : Nat) : State :=
  match s.pod.rejoin with
  | none => (s.setReg Reg.POD_REJOIN 0).setFld Fld.POD_STAT_REJOIN 0
  | some r =>
    let donor := match s.serving with
      | p :: _ => peaNum p
      | [] => 0
    let s := (s.setFld Fld.POD_STAT_REJOIN 1).setFld Fld.POD_REJOIN_PHASE (if r.passEnded then 2 else 1)
    ((s.setFld Fld.POD_REJOIN_PEA (peaNum r.pea)).setFld Fld.POD_REJOIN_DONOR donor).setFld Fld.POD_REJOIN_BLKLEFT left

/-- A pea begins its re-join with pass 1. -/
def startRejoin (s : State) (p : PeaId) : State :=
  let blocks := match s.prog with
    | some pr => passBlocks pr
    | none => []
  let s : State := { s.setPeaState p 7 with pod := { (s.setPeaState p 7).pod with rejoin := some ⟨p, blocks, false, 0, false, false, false⟩ } }
  (s.setFld Fld.POD_REJOIN_CYCLES 0).showRejoin blocks.length

/-- The re-join ends, with its record: joined, or not. -/
def endRejoin (s : State) (p : PeaId) (joined : Bool) : State :=
  let s := s.raiseRec 0x0106 Page.POD (w32 (peaNum p)) [s.reg Reg.POD_REJOIN, w32 (b2n joined)]
  let s : State := { s with pod := { s.pod with rejoin := none } }
  (s.showRejoin 0).endRotation p joined

/-- One IDLE window of the donor: pass 1, or the comparison and the copies that follow it. -/
def rejoinWindow (s : State) : State :=
  match s.pod.rejoin, s.serving with
  | some r, donor :: _ =>
    if s.peaState donor ≠ 2 ∨ r.joined ∨ r.wait then s else
    if ¬ r.passEnded then
      let now := r.left.take (s.copyRoom 0)
      let rest := r.left.drop (s.copyRoom 0)
      let s := now.foldl (fun (s : State) b => s.copyBlock donor r.pea b) s
      let moved := fun (x : Rejoin) => { x with left := rest, passEnded := rest.isEmpty, passCyc := s.vcyc }
      let s : State := { s with pod := { s.pod with rejoin := s.pod.rejoin.map moved } }
      s.showRejoin rest.length
    else if ¬ r.mayCompare ∨ s.windowLeft < 825 then s else
    let image := fun b => match s.prog with
      | some pr => imageBlock pr b
      | none => false
    let bs := differingBlocks (s.pea donor) (s.pea r.pea)
    let copy := bs.filter fun b => !image b
    let room := s.copyRoom 825
    let s := (copy.take room).foldl (fun (s : State) b => s.copyBlock donor r.pea b) s
    let again := copy.length ≤ room && 825 + 256 * copy.length + (if bs.isEmpty then 0 else 825) ≤ s.windowLeft
    let ok := again && (differingBlocks (s.pea donor) (s.pea r.pea)).isEmpty
    let s : State := { s with pod := { s.pod with rejoin := s.pod.rejoin.map fun x => { x with joined := ok, mayCompare := false } } }
    s.showRejoin (copy.length - room)
  | _, _ => s

/-- What the pod does for a re-join at a boundary: the pea returns to service, or the cycles since pass 1 are counted. At tV(X) it waits,
and at the boundary after X it begins anew (R143). -/
def rejoinCycle (s : State) : State :=
  match s.pod.rejoin with
  | none => s
  | some r =>
    if s.exchangeDue s.vcyc then s
    else if r.wait then s.startRejoin r.pea
    else if r.joined then
      let k := match s.serving with
        | d :: _ => (s.pea d).arrived + (s.pea d).dr.length
        | [] => 0
      let x := s.pea r.pea
      let x : Pea := { x with arrived := k, dr := [], cur := none, queue := [], lagging := false, digestDue := false }
      let s := s.setPea r.pea { x with firstDigest := true, phase := .idle }
      let s := ((s.setPeaState r.pea 2).enterService r.pea).podCount 30 1
      (s.endRejoin r.pea true).raiseEvt Page.POD Evt.POD_REJOINED
    else if r.passEnded then
      let s : State := { s with pod := { s.pod with rejoin := some { r with mayCompare := true } } }
      s.addSat Fld.POD_REJOIN_CYCLES 1
    else s

/-! ### Path retest and self-test (R98, R398) -/

/-- A pea stays OUT until the next START. -/
def keepOut (s : State) (p : PeaId) : State :=
  ((s.setPea p { s.pea p with phase := .stayOut }).setPeaState p 5).endRotation p false

/-- What the self-test leaves of a pea: data SRAM, scratch and the context store are overwritten, program MRAM stands (R99). -/
def testedPea (s : State) (p : PeaId) : State :=
  let x := { s.pea p with sram := [], scratch := [], ctx := [], upsets := (s.pea p).upsets.filter fun u => u.mem = .mram,
                          dr := [], cur := none, queue := [], arrived := 0, scrubAt := [0, 0, 0, 0], dig := 0, blk := [], sblk := [] }
  s.setPea p (match s.prog with
    | some pr => recomputeDigests pr p x
    | none => x)

/-- R143: a pea that missed an exchange is given the image that it lacks. -/
def catchUpPea (s : State) (p : PeaId) : State := match s.prog with
  | some pr => if ¬ (s.pea p).behind then s else
    let s := s.writeHalf p pr s.pod.half []
    s.setPea p { s.pea p with behind := false }
  | none => s

/-! ### The scrub (R49, R51) -/

/-- CRC-32C over the program words of the active half (R51). -/
def programCheck (s : State) (p : PeaId) : Word := s.halfCheck p s.pod.half (s.fld Fld.PROG_CODESZ_WORDS)

/-- The program check sealed in the active image (R51, `PROG_CHECK`). -/
def imageCheck (s : State) : Word := s.reg Reg.PROG_CHECK

/-- R51: the program words of the active half are checked at the end of a pass and by the rotation test. -/
def checkProgram (s : State) (p : PeaId) : State :=
  let s := s.setReg (Reg.PEA_x_PROGCHK (peaNum p)) (s.programCheck p)
  if s.programCheck p = s.imageCheck then s else s.peaFault p 5 0 (s.runSlot p) 0

/-- Put a defect into a list by its place. -/
def insertHit (x : Nat × MemKind × Nat) : List (Nat × MemKind × Nat) → List (Nat × MemKind × Nat)
  | [] => [x]
  | y :: ys => if x.1 ≤ y.1 then x :: y :: ys else y :: insertHit x ys

/-- The defects that a slice of `n` words meets, each with its place in the slice: the four memories are read in parallel by rising
address; two words of one moment come in the memories' order (DESIGN CHOICE, log entry 68). -/
def sliceHits (s : State) (p : PeaId) (at_ : List Nat) (n : Nat) : List (Nat × MemKind × Nat) :=
  let place := fun (u : Upset) => (u.addr + 2 ^ memBits u.mem - at_.getD (memNum u.mem) 0) % 2 ^ memBits u.mem
  let hits := (s.pea p).upsets.filter fun u => decide (place u < n)
  (hits.map fun u => (4 * place u + memNum u.mem, u.mem, u.addr)).foldr insertHit []

/-- The scrub engine reads the words of a slice: what it meets is corrected or reported. -/
def scrubWords (s : State) (p : PeaId) (at_ : List Nat) (n : Nat) : State :=
  (s.sliceHits p at_ n).foldl (fun (s : State) h =>
    if ¬ s.inService p then s else
    match s.readWord p h.2.1 h.2.2 with
    | (s, some _) => s
    | (s, none) => s.uncorrectable p h.2.1 h.2.2) s

/-- One slice, of which `n` words of each memory are read before the release: 1,024 finish it. -/
def scrubSlice (s : State) (p : PeaId) (n : Nat) : State :=
  let ms := [(MemKind.mram, 0), (.sram, 1), (.scratch, 2), (.ctx, 3)]
  let at_ := (s.pea p).scrubAt
  let s := (s.peaCount (peaNum p) 0x14 1).peaTicks (peaNum p) 0x14 (Config.scrubTicks (peaNum p) s.ticks)
  let s := s.scrubWords p at_ n
  if ¬ s.inService p then s else
  let next := ms.map fun m => (at_.getD m.2 0 + n) % 2 ^ memBits m.1
  let s := s.setPea p { s.pea p with scrubAt := next, scrubDone := n = 1024 }
  if at_.getD 0 0 + n < 2 ^ 21 then s else
  (s.addSat (Fld.PEA_x_SCRUB_PASSES (peaNum p)) 1).checkProgram p

/-- At a boundary, a cycle whose slice was not finished counts as skipped. With SCRUB_EN 0 no slice is due: the cycle is not counted
and SCRUBSKIP reads 0, where R49 says nothing of a disabled engine (DESIGN CHOICE, log entry 68). -/
def scrubCycle (s : State) : State :=
  s.serving.foldl (fun (s : State) p =>
    let n := peaNum p
    if (s.pea p).scrubDone ∨ ¬ s.flag (Fld.PEA_x_CTRL_SCRUB_EN n) then s.setFld (Fld.PEA_x_STAT_SCRUBSKIP n) 0
    else ((s.setFld (Fld.PEA_x_STAT_SCRUBSKIP n) 1).addSat (Fld.PEA_x_SCRUB_SKIPPED n) 1).raiseEvt (Page.PEA n) Evt.PEA_SCRUB_SKIP) s

end State

/-- PATH_RETEST_END (R98): the test tokens have passed an evicted pea's delay register, or not. -/
def execPathRetestEnd (p : PeaId) (pass : Bool) (s : State) : Host.Outcome State Fault Refusal :=
  if (s.pea p).phase ≠ .path then .next s
  else if pass then .next ((s.setPea p { s.pea p with phase := .test, testAt := s.ticks }).setPeaState p 6)
  else .next ((s.keepOut p).raiseEvt Page.POD Evt.POD_DRFAULT)

/-- PEA_SELF_TEST_END (R98, R398): the self-test of a pea in TEST ends with the soft repairs it made and with the check of program MRAM
(R99, R51), whose mismatch fails it. A pea that missed an exchange is first given the active image (R143). A pea that passes is given the
staged half and enters REJOIN. -/
def execPeaSelfTestEnd (p : PeaId) (pass : Bool) (repairs : List Word) (s : State) : Host.Outcome State Fault Refusal :=
  if (s.pea p).phase ≠ .test ∨ s.peaState p ≠ 6 then .next s else
  let s := (((s.addRepairs repairs).testedPea p).catchUpPea p).checkProgram p
  if ¬ pass ∨ s.programCheck p ≠ s.imageCheck then .next (s.keepOut p) else
  let s := s.stagePea p []
  .next ((s.setPea p { s.pea p with phase := .idle }).startRejoin p)

/-- PEA_SELF_TEST_TIMEOUT (R98): the self-test of a pea in TEST has overrun 1,500 ms. -/
def execPeaSelfTestTimeout (p : PeaId) (s : State) : Host.Outcome State Fault Refusal :=
  if (s.pea p).phase ≠ .test ∨ s.peaState p ≠ 6 ∨ s.ticks < (s.pea p).testAt + 37500000 then .next s
  else .next ((s.testedPea p).keepOut p)

/-- REJOIN_WINDOW (R100): an IDLE window of the donor. -/
def execRejoinWindow (s : State) : Host.Outcome State Fault Refusal := .next s.rejoinWindow

/-- REJOIN_TIMEOUT (R101): 100 cycles after the end of pass 1 the pea has not joined. -/
def execRejoinTimeout (s : State) : Host.Outcome State Fault Refusal :=
  match s.pod.rejoin with
  | none => .next s
  | some r =>
    if ¬ r.passEnded ∨ r.joined ∨ later (r.passCyc + 100) s.vcyc then .next s else
    let s := s.setReg Reg.POD_EVICT (w32 (2 ^ 31 + 7 * 2 ^ 24 + peaNum r.pea * 2 ^ 16))
    let s := (s.setReg Reg.POD_EVICTCYC s.vcyc).raiseEvt Page.POD Evt.POD_REJOIN_FAIL
    .next ((s.endRejoin r.pea false).keepOut r.pea)

/-- RESEED_COPY (R96). -/
def execReseedCopy (s : State) : Host.Outcome State Fault Refusal := .next s.reseedCopy

/-- ROTATION_TEST_DUE (R99): the schedule comes to the due pea. -/
def execRotationTestDue (s : State) : Host.Outcome State Fault Refusal :=
  .next (if ¬ s.rotationRuns ∨ s.pod.rotDeferred ∨ s.pod.rotPending then s else s.rotationDue)

/-- ROTATION_TEST_RETRY (R99): 60 s after a deferral. -/
def execRotationTestRetry (s : State) : Host.Outcome State Fault Refusal :=
  .next (if ¬ s.rotationRuns ∨ ¬ s.pod.rotDeferred then s else s.rotationDue)

/-- ROT_REQ (R99): `POD_CTRL.ROT_REQ` makes the next test due now. -/
def execRotReq (s : State) : Host.Outcome State Fault Refusal :=
  .next (if ¬ s.rotationRuns ∨ s.pod.rotPending then s else s.rotationDue)

/-- PEA_SCRUB_SLICE (R49): the slice of pea `p` in this cycle reads `words` words of each memory, 1,024 at most; `strikes` are the
defects that its memories have taken. -/
def execPeaScrubSlice (p : PeaId) (words : Nat) (strikes : List (MemKind × Nat × Option Nat)) (s : State) :
    Host.Outcome State Fault Refusal :=
  let hits := strikes.map fun x => (⟨x.1, x.2.1 % 2 ^ memBits x.1, x.2.2⟩ : Upset)
  let s := s.setPea p { s.pea p with upsets := (s.pea p).upsets ++ hits }
  if ¬ s.inService p ∨ s.peaState p ≠ 2 ∨ (s.pea p).scrubDone ∨ ¬ s.flag (Fld.PEA_x_CTRL_SCRUB_EN (peaNum p)) then .next s
  else .next (s.scrubSlice p (Nat.min words 1024))

end Sys2Proof.Machine
end

