-- ==== Sys2Proof/Machine/RegView.lean ====
section
/-! DEFINITION. What a read returns (R14, R331, R347): the registers that show live state, the pea windows, and the memories of the
service domain. -/

namespace Sys2Proof.Machine

/-- The 128 bytes of a journal entry (R324). -/
def journalBytes (e : JEntry) : List Byte :=
  let b8 := fun (n : Nat) => [(BitVec.ofNat 8 n : Byte)]
  let b := wordBytes e.jix ++ wordBytes e.reqnum ++ leBytes 8 e.arrival ++ b8 (e.session % 16) ++ [e.kind] ++
    b8 (b2n e.fwd + 2 * b2n e.order + 4 * b2n e.gap + 8 * b2n e.complete) ++ [e.status] ++ wordBytes e.sseq ++ wordBytes e.sepoch ++
    wordBytes e.imgRc ++ leBytes 2 (e.result % 65536) ++ [e.ive] ++ b8 0 ++ wordBytes e.rcyc ++ leBytes 8 e.done ++
    wordBytes e.orderer ++ wordBytes e.claim ++ padBytes 32 e.digest ++ padBytes 28 (wordsBytes e.params) ++ leBytes 8 e.mac.toNat
  b ++ wordBytes (crc32c b)

/-- The owner of a bank as `MEM_BANKb.OWNER` codes it (R399). -/
def bankOwner (b : Nat) : Nat :=
  if b < 9 then b % 3 else if b < 11 then b - 6 else if b = 11 then 5 else if b < 14 then 6 else b - 7

/-- A word of a list of bytes, least significant byte first. -/
def byteWord (bs : List Byte) (j : Nat) : Word := w32 (leNat ((bs.drop (4 * j)).take 4))

namespace State

/-- Bits of two numbers joined: `v` at `lo` of `base`. -/
def withBits (base : Word) (hi lo v : Nat) : Word := w32 (putBits hi lo base.toNat v)

/-- `UPD_SLOTk` (R422). -/
def slotWord (s : State) (k : Nat) : Word :=
  let x := s.slot k
  w32 (b2n x.valid * 2 ^ 31 + b2n x.active * 2 ^ 30 + b2n x.trial * 2 ^ 29 + x.compat % 256 * 2 ^ 16 + Nat.min x.svn 65535)

/-- The soft repairs of bank `b` (R395). -/
def bankRepairs (s : State) (b : Nat) : Nat := (s.nv.repairs.filter fun w => bitsOf 31 27 w.toNat = b).length

/-- Page SEC (R409 to R412). -/
def viewSec (s : State) (off : Nat) (w : Word) : Word :=
  if off = 0x10 then
    withBits (withBits (withBits (withBits (withBits w 9 8 s.nv.lifecycle) 4 4 (b2n s.nv.ownerHash.isSome)) 3 3 (b2n s.nv.fwKey.isSome))
      2 2 (b2n s.nv.pgKey.isSome)) 1 1 (b2n s.nv.tamper.isSome)
  else if off = 0x40 then w32 ((s.nv.keys.map fun (e : Nat × List Byte) => 2 ^ e.1).sum)
  else if off = 0x44 then
    w32 ((s.nv.pgKey.map ImageKey.gen).getD 0 % 256 * 256 + (s.nv.fwKey.map ImageKey.gen).getD 0 % 256)
  else if 0x140 ≤ off ∧ off < 0x160 then byteWord (s.nv.ownerHash.getD []) ((off - 0x140) / 4)
  else w

/-- Page IVT: the word that `IVT_CTRL` and `IVT_ADDR` select, canonical and as stored (R166). -/
def viewIvt (s : State) (off : Nat) (w : Word) : Word :=
  let t := if s.flag Fld.IVT_CTRL_BANK then s.ive.staged.getD [] else s.ive.tables
  let d := t.getD (s.fld Fld.IVT_ADDR_ADDR) 0
  if off = Reg.IVT_DATA % 0x1000 then d
  else if off = Reg.IVT_RAW % 0x1000 then (if s.flag Fld.IVT_CTRL_HALF then ~~~d else d)
  else w

/-- Page SFB: the inputs as the comparators read them, and the key. -/
def viewSfb (s : State) (off : Nat) (w : Word) : Word :=
  let raw := s.reg Reg.FIO_RAW
  if off = Reg.SFB_LOR % 0x1000 then withBits (withBits w 30 30 (b2n s.lor.levelA)) 29 29 (b2n s.lor.levelB)
  else match (List.range 8).find? fun f => off = Reg.SFB_STATf f % 0x1000 with
    | some f => withBits (withBits w 25 25 (b2n (raw.getLsbD (s.fld (Fld.SFB_CFGf_CHA f)))))
        24 24 (b2n (raw.getLsbD (s.fld (Fld.SFB_CFGf_CHB f))))
    | none => w

/-- `RSCH_ORDDATA`: the entry of the order table that `RSCH_ORDSEL` selects. -/
def orderWord (s : State) : Word := match s.prog with
  | none => 0
  | some pr =>
    match (pr.orders.getD (s.fld Fld.RSCH_ORDSEL_RING) [])[s.fld Fld.RSCH_ORDSEL_IDX]? with
    | some x => w32 (2 ^ 31 + (if 0x400 ≤ x then b2n (x = 0x401) * 2 ^ 30 else x % 1024))
    | none => 0

/-- `QUE_HEADq` and `QUE_FILLq`; an empty queue shows the number that its next entry takes. -/
def viewQue (s : State) (off : Nat) (w : Word) : Word :=
  if off < 0x100 ∨ 0x500 ≤ off then w else
  let x := s.queue ((off - 0x100) / 16)
  if off % 16 = 4 then (x.entries.head?.map QEntry.seq).getD x.next
  else if off % 16 = 8 then w32 ((x.entries.filter QEntry.ready).length * 2 ^ 16 + x.entries.length)
  else w

/-- The records written in the last second that has ended (`EVR_RATE.LAST`). -/
def rateLast (s : State) : Nat :=
  let sec := s.now / 1000000000
  if sec = s.evr.rateSecond then s.fld Fld.EVR_RATE_LAST
  else if sec = s.evr.rateSecond + 1 then Nat.min s.evr.rateCount 65535 else 0

/-- Page EVR (R385). -/
def viewEvr (s : State) (off : Nat) (w : Word) : Word :=
  let r := s.nv.recorder
  if off = 0x10 then withBits (withBits w 1 1 (b2n (rootSlots ≤ r.root.length))) 0 0 (b2n (s.flag Fld.EVR_MODE_OX7))
  else if off = 0x44 then r.nextSeq
  else if off = 0x48 then w32 r.wslot
  else if off = 0x4C then r.oldest
  else if off = 0x50 then w32 r.root.length
  else if off = 0x54 then withBits w 15 0 s.evr.staging.length
  else if off = 0x58 then w32 (Nat.max (s.fld Fld.EVR_RATE_MAX) s.rateLast * 2 ^ 16 + s.rateLast)
  else w

/-- Page UPD. -/
def viewUpd (s : State) (off : Nat) (w : Word) : Word :=
  if off = 0x10 then withBits (withBits w 1 1 (b2n s.trialSlot.isSome)) 0 0 (b2n s.upd.sched.isSome)
  else if off = 0x54 then w32 (s.nv.svnPg % 256 * 256 + s.nv.svnFw % 256)
  else if 0x100 ≤ off ∧ off < 0x140 then
    let k := (off - 0x100) / 16
    let x := s.slot k
    if off % 16 = 0 then s.slotWord k else if off % 16 = 4 then x.build else if off % 16 = 8 then x.base else w32 x.length
  else w

/-- Page PWR, TIME, IVE and the pages with a single live register. -/
def viewMisc (s : State) (a : Nat) (w : Word) : Word :=
  if a = Reg.SYS_STAT then withBits w 13 12 s.nv.lifecycle
  else if a = Reg.OUT_SAFECNT then withBits w 23 16 (Nat.min s.safeWindow.length 3)
  else if a = Reg.SYS_STARTCNT then w32 s.nv.starts
  else if a = Reg.PWR_VIN then Config.liveWord a s.ticks
  else if a = Reg.PWR_VF then Config.liveWord a s.ticks &&& 0xFFFF
  else if a = Reg.PWR_VCORE then (Config.liveWord a s.ticks &&& 0xFFFF0000) ||| w
  else if a = Reg.TIME_NOWLO then w32 s.now
  else if a = Reg.TIME_NOWHI then w32 (s.now / 2 ^ 32)
  else if a = Reg.TIME_TBPHASE then w32 s.phase
  else if a = Reg.POD_ROTNEXT then w32 ((s.pod.rotNext - s.ticks) / 25000000)
  else if a = Reg.IVE_BUSY then w32 (Nat.min s.ive.busyMax 65535 * 2 ^ 16 + Nat.min s.ive.busyLast 65535)
  else if a = Reg.IVE_CHKMAX then w32 (s.ive.checkKind % 8 * 2 ^ 16 + Nat.min s.ive.checkMax 65535)
  else if a = Reg.IVE_SDIGLO then s.ive.digest.extractLsb' 0 32
  else if a = Reg.IVE_SDIGHI then s.ive.digest.extractLsb' 32 32
  else if a = Reg.RSCH_ORDDATA then s.orderWord
  else if a = Reg.TWIN_EPOCH then w32 s.nv.epoch
  else if a = Reg.JRN_STAT then withBits w 0 0 (b2n s.nv.wrapped)
  else if a = Reg.JRN_NEWEST then (s.nv.journal.getLast?.map JEntry.jix).getD 0
  else if a = Reg.JRN_OLDEST then (s.nv.journal.head?.map JEntry.jix).getD 0
  else if a = Reg.BIST_SEAL then (match s.nv.sealed with
    | some x => w32 (b2n (!x.used) * 2 ^ 31 + Nat.min ((s.now - x.time) / (3600 * 1000000000)) 65535)
    | none => 0)
  else if a = Reg.BRG_STAT then
    let st := s.opState
    w32 (putBits Fld.BRG_STAT_VITAL_UP.hi Fld.BRG_STAT_VITAL_UP.lo w.toNat (b2n (st = 2 || (4 ≤ st && st ≤ 8))))
  else if a = Reg.BIST_REPAIRS then withBits w 31 16 s.nv.repairs.length
  else w

/-- What a read of the register at `a` returns. Write-only fields and `xxx_EVTSET` are not stored and read 0 (R14). -/
def view (s : State) (a : Nat) : Word :=
  if a < 0x40000000 ∨ 0x40060000 ≤ a then 0 else
  let page := (a - 0x40000000) / 0x1000
  let off := (a - 0x40000000) % 0x1000
  let w := s.reg a
  match page with
  | 0x04 => s.viewSec off w
  | 0x08 => if a = Reg.PEA_x_FAULT 0 then s.faultWord .a else w
  | 0x09 => if a = Reg.PEA_x_FAULT 1 then s.faultWord .b else w
  | 0x0A => if a = Reg.PEA_x_FAULT 2 then s.faultWord .c else w
  | 0x19 => s.viewIvt off w
  | 0x21 => s.viewSfb off w
  | 0x3B => s.viewQue off w
  | 0x48 => s.viewEvr off w
  | 0x51 => if 0x100 ≤ off ∧ off < 0x140 then
      let b := (off - 0x100) / 4
      let spare := if b ≤ 12 ∨ b = 15 then (Config.bankSpares b).toNat - s.bankRepairs b else 0
      withBits (withBits w 27 24 (bankOwner b)) 15 0 spare
    else w
  | 0x58 => s.viewUpd off w
  | _ => s.viewMisc a w

/-! ### Memories -/

/-- A byte of module MRAM: the recorder (R365) and the journal (R324) in their areas, the records of R414 whose layout is not given,
and the image slots. -/
def mramByte (s : State) (a : Nat) : Byte :=
  let r := s.nv.recorder
  if 0x64000000 ≤ a ∧ a < 0x64100000 then
    match r.root[(a - 0x64000000) / 64]? with
    | some x => byteAt (recBytes x) (a % 64)
    | none => 0
  else if 0x64100000 ≤ a then
    match r.circ.find? fun e => e.1 = (a - 0x64100000) / 64 with
    | some e => byteAt (recBytes e.2) (a % 64)
    | none => 0
  else if 0x60100000 ≤ a ∧ a < 0x60900000 then
    match s.nv.journal.find? fun e => (Config.journalPlace e.jix).toNat = (a - 0x60100000) / 128 with
    | some e => byteAt (journalBytes e) (a % 128)
    | none => 0
  else if a < 0x60100000 then (Config.liveWord (a - a % 4) s.ticks).extractLsb' (8 * (a % 4)) 8
  else Store.get (fun _ => 0) s.mem a

/-- A byte of service SRAM, module MRAM or DRAM. -/
def memByte (s : State) (a : Nat) : Byte :=
  if 0x60000000 ≤ a ∧ a < 0x68000000 then s.mramByte a else Store.get (fun _ => 0) s.mem a

/-- The bank of a service-domain address, none outside the memories of R331. -/
def memBank (a : Nat) : Option Nat :=
  if a < 0x100000 then some 12
  else if 0x60000000 ≤ a ∧ a < 0x68000000 then some 14
  else if 0x80000000 ≤ a ∧ a < 0xC0000000 then some 13
  else none

/-- The pea, memory and logical word of an address in a pea window (R331). -/
def peaWindow (a : Nat) : Option (PeaId × MemKind × Nat) :=
  if a < 0x50000000 ∨ 0x53000000 ≤ a then none else
  let p := if a < 0x51000000 then PeaId.a else if a < 0x52000000 then .b else .c
  let o := a % 0x1000000
  if o < 0x800000 then some (p, .mram, o / 4)
  else if o < 0xC00000 then some (p, .sram, (o - 0x800000) / 4)
  else if o < 0xC40000 then some (p, .scratch, (o - 0xC00000) / 4)
  else none

/-- The bank of a pea's memory (R399). -/
def peaBank (p : PeaId) : MemKind → Nat
  | .mram => peaNum p
  | .sram => 3 + peaNum p
  | _ => 6 + peaNum p

/-- A read of one word: the state after it, the word, and whether it met an uncorrectable word (R331). Reads of a bank in RET or OFF
return 0 (R400). -/
def readAddr (s : State) (a : Nat) : State × Word × Bool :=
  let asleep := fun (b : Nat) => s.fld (Fld.MEM_BANKb_MODE b) != 0
  match peaWindow a with
  | some (p, m, w) =>
    if asleep (peaBank p m) then (s.raiseEvt Page.MEM Evt.MEM_OFFACC, 0, false) else
    match s.readWord p m w with
    | (s, some v) => (s, v, false)
    | (s, none) => (s.uncorrectable p m w, 0, true)
  | none =>
    match memBank a with
    | some b =>
      if asleep b then (s.raiseEvt Page.MEM Evt.MEM_OFFACC, 0, false)
      else (s, w32 (leNat ((List.range 4).map fun i => s.memByte (a + i))), false)
    | none => (s, s.view a, false)

end State

end Sys2Proof.Machine
end

