-- ==== Sys2Proof/Machine/TwinLink.lean ====
section
/-! DEFINITION. The frames of the twin link that align, compare and transfer state, the link's timers and the first role
(R278 to R293), and the transmitter (R282). -/

namespace Sys2Proof.Machine

namespace State

/-! ### Alignment (R285) -/

/-- Take a SYNC: numbers, phase and station time of the active unit. A unit on entry to JOINING, or one whose cycles do not run yet, takes
the phase directly. Elsewhere the error is that of the own boundary of the same number; a number that differs by more than the two
boundaries' distance from each other explains is adopted (R30). -/
def takeSync (s : State) (n offset : Word) (time : Nat) : State :=
  let d := s.fld Fld.TWIN_LINKDLY_DELAY
  let ago := offset.toNat + d / 40
  let s := s.syncTime (time + offset.toNat * 40 + d)
  if (s.role = 1 ∧ s.fld Fld.TWIN_XFER_PHASE ≤ 1) ∨ ¬ s.cyc.running then s.joinCycles n ago
  else
    let sent : Int := (s.ticks : Int) - (ago : Int)
    let dn := (n - s.vcyc).toInt
    let e := (s.cyc.tick0 : Int) + dn * (s.cycleTicks : Int) - sent
    if dn.natAbs ≤ 1 ∧ 2 * e.natAbs ≤ s.cycleTicks then s.noteAlign e 0
    else
      let s : State := { s with cyc := { s.cyc with n := n } }
      s.noteAlign ((s.cyc.tick0 : Int) - sent) 0

end State

/-- SYNC_FRAME (R285): a unit that is not ACTIVE and takes part aligns itself and adopts numbers and time. The ring cycle number is
n × k (R30), so its last field adds nothing. -/
def execSyncFrame (h : TwinHdr) (n offset : Word) (time : Nat) (rc : Word) (s : State) : Host.Outcome State Fault Refusal :=
  .next <| s.twinRx h (.sync n offset time rc) 0 fun s =>
    if s.isActive then s
    else if s.role = 0 then (if s.linkUp then s.syncTime (time + offset.toNat * 40 + s.fld Fld.TWIN_LINKDLY_DELAY) else s)
    else s.takeSync n offset time

/-- PROBE_FRAME (R285): the active unit answers with an ECHO. -/
def execProbeFrame (h : TwinHdr) (n : Word) (s : State) : Host.Outcome State Fault Refusal :=
  .next <| s.twinRx h (.probe n) 0 fun s => if s.isActive then s.twinSend (.echo n (w32 s.ticks)) else s

/-- ECHO_FRAME (R285): half of the time since the PROBE less half the turnaround is the link delay. -/
def execEchoFrame (h : TwinHdr) (n turnaround : Word) (s : State) : Host.Outcome State Fault Refusal :=
  .next <| s.twinRx h (.echo n turnaround) 0 fun s => match s.twin.probe with
    | some (m, t) =>
      if m ≠ n ∨ s.isActive then s else
      let d := (s.ticks - t - turnaround.toNat) * 40 / 2
      (s.setFld Fld.TWIN_LINKDLY_DELAY (Nat.min d 65535)).setTwin { s.twin with probe := none }
    | none => s

/-- PROBE_INTERVAL (R285): every 100 vital cycles a unit that is not ACTIVE sends a PROBE. -/
def execProbeInterval (s : State) : Host.Outcome State Fault Refusal :=
  .next (if s.isTwin ∧ ¬ s.isActive then s.sendProbe else s)

/-! ### First roles (R277, R278) -/

/-- READY_START (R277, R278): the partner could enter a RUN state. Units that read the same letter, or that disagree about the
installation, clash. -/
def execReadyStart (h : TwinHdr) (letter id1 compat : Nat) (s : State) : Host.Outcome State Fault Refusal :=
  .next <| s.twinRx h (.readyStart letter id1 compat) 0 fun s =>
    let s := s.setTwin { s.twin with partnerReady := true }
    if letter = s.letter ∨ (id1 = 1) ≠ (s.isTwin = true) then s.noteClash h.serial else s

/-- FIRST_ROLE_EVALUATION (R278): the first matching row, for a unit that has completed START and waits. -/
def execFirstRoleEvaluation (s : State) : Host.Outcome State Fault Refusal :=
  match s.twin.readyAt with
  | none => .next s
  | some t0 =>
    let done := fun (s : State) => s.setTwin { s.twin with readyAt := none }
    let start := fun (s : State) => if s.isActive then done (s.startCycles 0 0) else done s
    let partner := s.partnerActive 8
    let silent : Bool := match s.twin.rank2At with
      | some t => Nat.max t t0 + 2000000000 ≤ s.now
      | none => t0 + 2000000000 ≤ s.now
    if ¬ s.isTwin then .next (start (s.becomeActive 1))
    else if s.flag Fld.TWIN_STAT_ROLECLASH ∧ s.nv.serial.toNat < (s.reg Reg.TWIN_PSERIAL).toNat then .next (s.startBlock 3)
    else if partner ∧ s.linkUp then .next (done (s.startJoin 1))
    else if partner then
      let n := match s.twin.window with
        | some (v, _) => v.n + 1
        | none => 0
      .next (done ((((s.toState 6).setRole 2 (s.claim % 2 ^ 24) 1).startCycles n 0)))
    else if s.linkUp ∧ s.twin.partnerReady then .next (if s.letter = 0 then start (s.becomeActive 1) else s.startBlock 5)
    else if s.linkUp ∧ t0 + 30000000000 ≤ s.now then .next (start (s.becomeActive 1))
    else if ¬ s.linkUp ∧ silent then .next (start (s.becomeActive 1))
    else .next (s.startBlock 5)

/-! ### State transfer (R290 to R293) -/

/-- XFER_REQ (R291): the active unit accepts, or refuses with a cause of `TWIN_XFERLAST`. -/
def execXferReq (h : TwinHdr) (imgId tblId : Word) (s : State) : Host.Outcome State Fault Refusal :=
  .next <| s.twinRx h (.xferReq imgId tblId) 0 fun s =>
    let near := match s.xch.armed with
      | some a => s.within10s a.x s.vcyc
      | none => false
    let cause :=
      if ¬ s.isActive then 4
      else if imgId ≠ s.reg Reg.PROG_IMGID ∨ tblId ≠ s.reg Reg.IVE_TBLID then 2
      else if near then 5
      else 0
    if cause ≠ 0 then (s.twinSend (.xferRefuse cause)).raiseEvt Page.TWIN Evt.TWIN_REFUSED
    else match s.prog with
      | none => s.twinSend (.xferRefuse 2)
      | some pr =>
        let bs := transferBlocks pr s.ive.tables
        let s := ((s.setReg Reg.TWIN_XFER 0).setFld Fld.TWIN_XFER_DONOR 1).xferPhase 2
        let s := s.setTwin { s.twin with xferBlocks := bs, xferStart := s.now }
        (s.showBlocks bs.length).twinSend (.xferAccept (s.vcyc + 1))

/-- XFER_ACCEPT (R291): the joiner enters BULK; its peas are not released. -/
def execXferAccept (h : TwinHdr) (cycle : Word) (s : State) : Host.Outcome State Fault Refusal :=
  .next <| s.twinRx h (.xferAccept cycle) 0 fun s =>
    if s.role ≠ 1 ∨ s.fld Fld.TWIN_XFER_PHASE ≠ 1 then s else
    let s := if s.twin.xferStaged then s.adoptStaged else s
    match s.prog with
    | none => s
    | some pr =>
      let bs := transferBlocks pr s.ive.tables
      let v := { s.ive with routes := [], sections := [], points := [], signals := [] }
      let s := ((s.setIve v).showHold).setTwin { s.twin with xferNeed := bs }
      let s := if later cycle s.vcyc then s else s.haltTasks
      (s.xferPhase 2).showBlocks bs.length

/-- XFER_REFUSE (R291): a joiner with another verified image staged asks once more with it; else the transfer ends. -/
def execXferRefuse (h : TwinHdr) (cause : Nat) (s : State) : Host.Outcome State Fault Refusal :=
  .next <| s.twinRx h (.xferRefuse cause) 0 fun s =>
    if s.role ≠ 1 ∨ s.fld Fld.TWIN_XFER_PHASE ≠ 1 then s else
    match cause, s.twin.xferStaged, s.flag Fld.PROG_STAT_STAGED, s.xch.staged with
    | 2, false, true, some new => (s.setTwin { s.twin with xferStaged := true }).twinSend (.xferReq new.imgId (new.ive.getD 2 0))
    | _, _, _, _ => (s.failXfer cause).raiseEvt Page.TWIN Evt.TWIN_REFUSED

/-- XFER_NEED (R291): the donor is asked for up to 12 blocks again; none at all means that the joiner verifies. -/
def execXferNeed (h : TwinHdr) (cycle : Word) (blocks : List Nat) (s : State) : Host.Outcome State Fault Refusal :=
  .next <| s.twinRx h (.xferNeed cycle blocks) 0 fun s =>
    if ¬ (s.isActive ∧ s.flag Fld.TWIN_XFER_DONOR) ∨ later cycle s.vcyc then s else
    let bs := blocks.take 12
    let s := (s.setTwin { s.twin with xferBlocks := bs }).showBlocks bs.length
    s.xferPhase (if bs.isEmpty then 4 else 3)

/-- STATE_FRAME (R290, R292): the joiner writes a block, or discards one that is late. -/
def execStateFrame (h : TwinHdr) (number : Nat) (cycle : Word) (words : List Word) (s : State) :
    Host.Outcome State Fault Refusal :=
  .next <| s.twinRx h (.block number cycle words) 0 fun s =>
    let ph := s.fld Fld.TWIN_XFER_PHASE
    let idle := s.serving.all fun p => s.peaState p = 2
    let early := s.phase + 1250 ≤ s.cycleTicks
    if s.role ≠ 1 ∨ ¬ (ph = 2 ∨ ph = 3) ∨ ¬ s.twin.xferNeed.contains number then s
    else if ph = 3 ∧ ¬ (cycle = s.vcyc ∧ idle ∧ early) then s
    else
      let left := s.twin.xferNeed.filter (· != number)
      let s := ((s.writeBlock number words).setTwin { s.twin with xferNeed := left }).showBlocks left.length
      if ph = 2 ∧ left.isEmpty then s.xferPhase 3 else s

/-- Part `k` of a BDIG comes; the flag says that the last of them has come, all in order (R282). -/
def State.takeDigestPart (s : State) (n : Word) (digests : List (BitVec 64)) (k : Nat) : Bool × State :=
  let before : Bool := match s.twin.rxDig with
    | some (m, ds, i) => m = n && ds = digests && i = k
    | none => false
  if k ≠ 0 ∧ ¬ before then (false, s.setTwin { s.twin with rxDig := none })
  else if k + 1 = (TwinBody.bdig n digests).parts then (true, s.setTwin { s.twin with rxDig := none })
  else (false, s.setTwin { s.twin with rxDig := some (n, digests, k + 1) })

/-- BDIG_FRAME (R292): the donor's block digests of cycle `n`, compared with those the joiner latches at the boundary. -/
def execBdigFrame (h : TwinHdr) (n : Word) (x : DigestPart) (s : State) : Host.Outcome State Fault Refusal :=
  .next <| s.twinRx h (.bdig n x.digests) x.part fun s =>
    let (whole, s) := s.takeDigestPart n x.digests x.part
    if ¬ whole ∨ s.role ≠ 1 ∨ s.fld Fld.TWIN_XFER_PHASE ≠ 3 then s
    else if n + 1 = s.vcyc ∧ ¬ s.twin.xferLatch.isEmpty then s.catchup n x.digests
    else s.setTwin { s.twin with xferBdig := some (n, x.digests) }

/-- XFER_RETRY (R293): 10 s after a transfer ended without success, it may be tried again. -/
def execXferRetry (s : State) : Host.Outcome State Fault Refusal :=
  if s.now < s.twin.xferRetry.getD 0 + 10000000000 then .next s else .next (s.setTwin { s.twin with xferRetry := none })

/-- XFER_CONVERGENCE_TIMEOUT (R293): CATCHUP has not converged after 500 cycles. -/
def execXferConvergenceTimeout (s : State) : Host.Outcome State Fault Refusal :=
  .next (if s.fld Fld.TWIN_XFER_PHASE = 3 ∧ 500 ≤ s.twin.xferRun then s.failXfer 3 else s)

/-! ### STATUS, images, padding and the link -/

namespace State

/-- A former active unit that sees its partner's STATUS of the swap cycle with the new claim becomes STANDBY at the next boundary
(R299 step 4); one that sees that the partner did not take ACTIVE goes on as before, and orders what it holds at its next commit point. -/
def swapDone (s : State) (n : Word) (claim : Nat) : State :=
  if ¬ (s.isActive ∧ s.twin.swapped) ∨ later (s.reg Reg.TWIN_SWAPCYC) n then s
  else if claim = 2 * 2 ^ 24 + s.fld Fld.TWIN_SWAP_NEWEPOCH then
    ((s.setFld Fld.TWIN_SWAP_ARMED 0).setTwin { s.twin with swapped := false, held := [] }).planRole 3 6 0
  else if claim / 2 ^ 24 < 2 then
    let s := (s.setFld Fld.TWIN_SWAP_ARMED 0).setTwin { s.twin with swapped := false, swapGo := false, swapLost := true }
    if s.twin.swapAct then s.endActivation 6 else s
  else s

/-- Whether a STATUS of the cycle decides a takeover (R295): the partner is not RUN_ACTIVE or has a rank below 2. -/
def statusTakeover (s : State) (n : Word) (claim st : Nat) : State :=
  if (s.role = 2 ∨ s.role = 3) ∧ s.linkUp ∧ n = s.vcyc ∧ ¬ (st = 5 ∧ claim / 2 ^ 24 = 2) ∧ ¬ s.twin.swapGo then
    s.planTakeover 2
  else s

end State

/-- STATUS_FRAME (R289, R293, R295, R299). -/
def execStatusFrame (h : TwinHdr) (n claim : Word) (st tflags : Nat) (dig sdig : BitVec 64) (s : State) :
    Host.Outcome State Fault Refusal :=
  .next <| s.twinRx h (.status n claim st tflags dig sdig) 0 fun s =>
    let c := claim.toNat
    let s := (s.setReg Reg.TWIN_PCLAIM claim).setTwin { s.twin with status := some ⟨n, claim, st, tflags, dig, sdig⟩ }
    let s := s.swapDone n c
    let s := if s.twin.roleNext = some (3, 6) then s.noteClaim c else s.seeClaim c
    let s := if s.role = 1 ∧ s.xferring ∧ c / 2 ^ 24 ≠ 2 then s.failXfer 4 else s
    let s := if s.isActive ∧ s.flag Fld.TWIN_XFER_DONOR ∧ s.xferring ∧ c / 2 ^ 24 = 1 then s.endXfer 0 else s
    (s.takeComparison).statusTakeover n c st

/-- Part `k` of an image comes; the image is complete with the last of them, all in order (R287). -/
def State.takeImagePart (s : State) (img : Image) (k : Nat) : State :=
  let before : Bool := match s.twin.rxParts with
    | some (i, j) => i = img && j = k
    | none => false
  if k ≠ 0 ∧ ¬ before then s.setTwin { s.twin with rxParts := none }
  else if k + 1 = (TwinBody.image img).parts then s.setTwin { s.twin with rxImage := some (Img.received img), rxParts := none }
  else s.setTwin { s.twin with rxParts := some (img, k + 1) }

/-- IMAGE_FRAME (R287, R299): a unit that is not ACTIVE, or that hands over in a swap, keeps the active unit's image for the next cycle
while the link is up. -/
def execImageFrame (h : TwinHdr) (x : ImagePart) (s : State) : Host.Outcome State Fault Refusal :=
  .next <| s.twinRx h (.image x.image) x.part fun s =>
    if (s.isActive ∧ ¬ s.twin.swapped) ∨ ¬ s.linkUp then s else s.takeImagePart x.image x.part

/-- PAD_FRAME (R282): a valid frame keeps the link alive. -/
def execPadFrame (h : TwinHdr) (s : State) : Host.Outcome State Fault Refusal := .next (s.twinRx h .pad 0 id)

/-- LINK_DOWN_TIMEOUT (R283): a frame, SYNC, STATUS or image is missing. -/
def execLinkDownTimeout (s : State) : Host.Outcome State Fault Refusal := .next (if s.isTwin then s.linkDown else s)

/-! ### The transmitter (R282) -/

/-- The best priority among the frames that wait. -/
def bestPriority (q : List (TwinBody × Nat)) : Nat := q.foldl (fun a b => Nat.min a (framePriority b.1)) 8

/-- Take the first frame of priority `k` out of a queue. -/
def takeFrame (k : Nat) : List (TwinBody × Nat) → Option (TwinBody × Nat) × List (TwinBody × Nat)
  | [] => (none, [])
  | b :: rest => if framePriority b.1 = k then (some b, rest) else
    let (x, rest) := takeFrame k rest
    (x, b :: rest)

namespace State

/-- The tick, from tV(n), of the next image close point (R25). -/
def nextClose (s : State) : Nat :=
  let k := s.ringsPerCycle
  let tr := s.tvMs * 25000 / k
  let at_ := fun i => i * tr + s.fld Fld.PROG_LC_LC * 25
  ((List.range (k + 1)).map at_ |>.find? (fun t => s.phase < t)).getD (at_ k)

/-- The STATE frame of a transfer's next block, if the transmitter may start it now: the donor's pea is IDLE, and the frame ends
before the next close point. -/
def nextBlock (s : State) : Option (TwinBody × State) :=
  match s.twin.xferBlocks with
  | [] => none
  | b :: rest =>
    if ¬ (s.isActive ∧ s.flag Fld.TWIN_XFER_DONOR ∧ s.canSnapshot) ∨ s.nextClose < s.phase + frameTicks 4104 then none else
    let s' := (s.setTwin { s.twin with xferBlocks := rest }).showBlocks rest.length
    let s' := if rest.isEmpty ∧ s'.fld Fld.TWIN_XFER_PHASE = 2 then s'.xferPhase 3 else s'
    some (.block b s.vcyc ((List.range 1024).map (s.blockWord b)), s')

/-- The fields of a frame that are fixed at its start: OFFSET of a SYNC, the turnaround of an ECHO, the time of a PROBE. -/
def stampFrame (s : State) (b : TwinBody) : TwinBody × State :=
  match b with
  | .sync n _ t rc => (.sync n (w32 s.phase) t rc, s)
  | .echo n t => (.echo n (w32 s.ticks - t), s)
  | .probe n => (b, s.setTwin { s.twin with probe := some (n, s.ticks) })
  | _ => (b, s)

/-- Start frame `k` of a body: it is stamped, formed with its seal, and sent. -/
def startFrame (s : State) (b : TwinBody) (k : Nat) : State :=
  let (b, s) := s.stampFrame b
  let s := (s.setTwin { s.twin with txSeq := s.twin.txSeq + 1 }).podCount 48 1
  { s with out := .twin (TwinHdr.form s.letter s.twin.txSeq s.vcyc s.nv.serial b k) (b.part k) :: s.out }

end State

/-- TWIN_FRAME_SENT (R282): the transmitter is free and starts the pending frame of highest priority, else a PAD. -/
def execTwinFrameSent (s : State) : Host.Outcome State Fault Refusal :=
  if ¬ s.isTwin then .next s else
  let k := bestPriority s.twin.txq
  let (b, rest) := takeFrame k s.twin.txq
  let late := k = 6 ∧ s.nextClose < s.phase + frameTicks ((b.map fun x => (x.1.part x.2).length).getD 0)
  if k < 7 ∧ ¬ late then
    .next ((s.setTwin { s.twin with txq := rest }).startFrame ((b.map Prod.fst).getD .pad) ((b.map Prod.snd).getD 0))
  else match s.nextBlock with
    | some (b, s') => .next (s'.startFrame b 0)
    | none => .next (s.startFrame .pad 0)

end Sys2Proof.Machine
end

