-- ==== Sys2Proof/Machine/RegOps.lean ====
section
/-! DEFINITION. Writes to the register pages (R14 to R19, R331 to R339), what they set going, interrupt claims and completions (R340 to
R346), the consumption of queues (R320, R329), and the check-value engines (R355, R356). -/

namespace Sys2Proof.Machine

/-- Whether a page is listed in R332. -/
def pageListed (page : Nat) : Bool := (pageInfo page).isSome

/-- The offsets of the header registers (R333). -/
def headerOffsets : List Nat := [0x00, 0x04, 0x08, 0x0C, 0x10, 0x14, 0x18, 0x1C, 0x20, 0x24, 0x28, 0x2C]

/-- The page and the offset of an address in the register pages. -/
def pageOf (a : Nat) : Nat := (a - 0x40000000) / 0x1000
def offOf (a : Nat) : Nat := (a - 0x40000000) % 0x1000

/-- An address in the register pages. -/
def inPages (a : Nat) : Bool := decide (0x40000000 ≤ a ∧ a < 0x40060000)

/-- The address of a register of a listed page. -/
def isReg (a : Nat) : Bool :=
  inPages a && pageListed (pageOf a) && a % 4 = 0 &&
    (headerOffsets.contains (offOf a) || (findReg (offOf a) (pageRegs (pageOf a))).isSome)

/-- The fields of a register beyond those that every page's header gives. -/
def fieldsOf (a : Nat) : List FieldDef := match findReg (offOf a) (pageRegs (pageOf a)) with
  | some r => r.fields
  | none => []

/-- The register holds an RV field (R19). -/
def hasRv (a : Nat) : Bool := (fieldsOf a).any fun f => f.access = .rv

/-- Event bits of a page. -/
def eventBits (page : Nat) : Nat := match pageInfo page with
  | some (_, _, _, n) => n
  | none => 0

/-- The bound of each user calibration item (R413). -/
def calBound (i : Nat) : Nat := [500, 500, 20000, 20000, 500, 50, 50, 10].getD i 0

/-- A signed 16-bit value lies within ± `b`. -/
def within16 (v b : Nat) : Bool := decide (v % 65536 ≤ b ∨ 65536 - b ≤ v % 65536)

/-- The event codes of R380: occurrences 0x01 to 0x0B, conditions 0x10 to 0x14. -/
def eventCode (e : Nat) : Bool := decide ((1 ≤ e ∧ e ≤ 0x0B) ∨ (0x10 ≤ e ∧ e ≤ 0x14))

/-- Reserved encodings that lie in more than one field's own range (R18): the DVS parameters, the selection of a performance counter,
the sampling seed, and the bounds of the user calibration. -/
def crossBad (a v : Nat) : Bool :=
  if a = Reg.PWR_DVSPARAM then
    decide (bitsOf 6 0 v ≤ bitsOf 20 16 v ∨ 95 < bitsOf 6 0 v + bitsOf 13 8 v)
  else if pageOf a = Page.PMON ∧ 0x110 ≤ offOf a ∧ offOf a < 0x280 ∧ 0x10 ≤ offOf a % 0x80 ∧ offOf a % 0x80 < 0x30 then
    !eventCode (bitsOf 7 0 v) || (bitsOf 30 30 v = 1 && decide (bitsOf 7 0 v ≤ 0x0B)) || (bitsOf 29 29 v = 1 && offOf a % 0x80 = 0x10)
  else if a = Reg.PMON_SEED then v = 0
  else if pageOf a = Page.CAL ∧ 0x140 ≤ offOf a ∧ offOf a < 0x160 then !within16 v (calBound ((offOf a - 0x140) / 4))
  else false

/-- The value puts a reserved encoding into one of the register's fields that an access of these kinds writes (R18). -/
def badEncoding (a v : Nat) (writes : Access → Bool) : Bool :=
  crossBad a v || (fieldsOf a).any fun f => writes f.access && (match f.legal with
    | some (lo, hi) => decide (bitsOf f.hi f.lo v < lo ∨ hi < bitsOf f.hi f.lo v)
    | none => false)

/-- Interrupt sources that no page and no software has (R340). -/
def reservedSource (n : Nat) : Bool :=
  0xFF < n || [0x03E, 0x03F, 0x05B, 0x05C, 0x05D, 0x05E, 0x05F, 0x06C, 0x06D, 0x06E, 0x06F, 0x073, 0x07C, 0x07D, 0x07E, 0x07F, 0x085,
    0x08E, 0x08F, 0x096, 0x097, 0x09C, 0x09D, 0x09E, 0x09F, 0x0AD, 0x0AE, 0x0AF, 0x0C7].contains n

/-- The state that an operation answers, or the one before it. -/
def stateOf (o : Host.Outcome State Fault Refusal) (s : State) : State := match o with
  | .next t => t
  | _ => s

namespace State

/-- Service firmware runs: neither OFF nor PARKED. -/
def firmwareRuns (s : State) : Bool := s.opState != 0 && s.opState != 9

/-- The lock of a page is open (R337). -/
def lockOpen (s : State) (page : Nat) : Bool := s.flag ⟨regAddr page 0x24, 31, 31⟩

/-- A clear that hardware overtook (R335). -/
def again (s : State) (page : Nat) : State := s.setFlag ⟨regAddr page 0x10, 31, 31⟩ true

/-! ### Events (R335, R336) -/

/-- A W1C write to `xxx_EVT`; hardware sets the bits of `hw` in the same update, and those sets win. -/
def evtClear (s : State) (page mask hw : Nat) : State :=
  (List.range (eventBits page)).foldl (fun (s : State) b =>
    let f : Field := ⟨regAddr page 0x14, b, b⟩
    let asked : Bool := mask.testBit b
    if hw.testBit b then
      let s := s.raiseEvt page b
      if asked then s.again page else s
    else if asked ∧ s.flag f then (s.setFld f 0).withdrawSource (irqBase page + b)
    else s) s

/-- A write to `xxx_EVTSET`. -/
def evtSet (s : State) (page mask : Nat) : State :=
  (List.range (eventBits page)).foldl (fun (s : State) b => if mask.testBit b then s.raiseEvt page b else s) s

/-- A write to `xxx_EVTEN`. -/
def evtEnable (s : State) (page mask : Nat) : State :=
  (List.range (eventBits page)).foldl (fun (s : State) b =>
    let f : Field := ⟨regAddr page 0x18, b, b⟩
    let new : Bool := mask.testBit b
    if new = s.flag f then s
    else
      let s := s.setFlag f new
      if ¬ new then s.withdrawSource (irqBase page + b)
      else if s.flag ⟨regAddr page 0x14, b, b⟩ then s.ringSource (irqBase page + b) else s) s

/-- A write to `xxx_LOCK` (R337). -/
def writeLock (s : State) (page v : Nat) : State :=
  let s := s.setFlag ⟨regAddr page 0x24, 31, 31⟩ (bitsOf 23 16 v = 0xA5 && bitsOf 7 0 v = page)
  { s with clock := { s.clock with lockAt := Store.set (fun _ => 0) s.clock.lockAt page s.now } }

/-! ### STATCLR -/

/-- The fields that STATCLR of a page returns to their reset values. -/
def clearList (page : Nat) : List Field :=
  let whole := fun (a : Nat) => (⟨a, 31, 0⟩ : Field)
  if 0x08 ≤ page ∧ page ≤ 0x0A then
    let n := page - 0x08
    [whole (Reg.PEA_x_MARGINMIN n), Fld.PEA_x_DRFILL_MAX n, whole (Reg.PEA_x_ECCCNT n), whole (Reg.PEA_x_FAULTCNT n)]
  else if 0x28 ≤ page ∧ page ≤ 0x2B then [whole (Reg.RNG_x_ERR (page - 0x28)), Fld.RNG_x_ROT_MAX (page - 0x28)]
  else match page with
  | 0x02 => [Fld.TIME_PPS_IGNORED]
  | 0x0B => [whole Reg.POD_EVICTCNT, whole Reg.POD_RESEEDCNT]
  | 0x0C => [whole Reg.VOTE_FLAGCNT, whole Reg.VOTE_SKEWMAX, Fld.VOTE_CBUF_MAX]
  | 0x11 => (List.range 32).map Fld.TASK_STATs_OVRCNT
  | 0x12 => [whole Reg.FORCE_REFCNT]
  | 0x18 => [Fld.IVE_BUSY_MAX, whole Reg.IVE_CHKMAX, whole Reg.IVE_REFTOT, whole Reg.IVE_WDRTOT]
  | 0x20 => [whole Reg.OUT_BARCNT]
  | 0x21 => (List.range 8).map Fld.SFB_STATf_DEMCNT
  | 0x22 => [whole Reg.FIO_LINKERR, Fld.FIO_GRPI_MAX]
  | 0x30 => [whole Reg.TWIN_LINKERR, Fld.TWIN_ALIGN_MAX]
  | 0x38 => [whole (Reg.HSTx_RXCNT 0), whole (Reg.HSTx_DROP 0)]
  | 0x39 => [whole (Reg.HSTx_RXCNT 1), whole (Reg.HSTx_DROP 1)]
  | 0x3A => (List.range 16).map fun i => whole (Reg.SESS_ERRs i)
  | 0x40 => [whole Reg.IRQ_RINGCNT, whole Reg.IRQ_SPURCNT]
  | 0x41 => [whole Reg.BRG_BACKOFF, whole Reg.BRG_VTSDROP, Fld.BRG_VTS_MAX]
  | 0x48 => [Fld.EVR_STAGE_MAX, Fld.EVR_RATE_MAX]
  | 0x49 => [whole Reg.JRN_SEALCNT]
  | 0x4A => [Reg.PMON_SAMPLOST, (ovfField 0 0).addr, (ovfField 1 0).addr, (ovfField 2 0).addr].map whole
  | _ => []

/-- The bits [hi:lo] of a word, set. -/
def bitMask (hi lo : Nat) : Word := w32 (2 ^ (hi + 1) - 2 ^ lo)

/-- The bits of the register at `addr` that hardware updates in the same update as a STATCLR write. -/
def raceMask (race : List Field) (addr : Nat) : Word :=
  race.foldl (fun m f => if f.addr = addr then m ||| bitMask f.hi f.lo else m) 0

/-- Writing 1 to STATCLR: fields that hardware updates in the same update (`race`) keep the hardware's value, and AGAIN records it
(R335). -/
def statClear (s : State) (page : Nat) (race : List Field) : State :=
  let fs := clearList page
  let s := fs.foldl (fun (s : State) f =>
    let m := bitMask f.hi f.lo &&& ~~~ raceMask race f.addr
    s.setReg f.addr ((s.reg f.addr &&& ~~~ m) ||| (resetOf f.addr &&& m))) s
  let hit := fun (f : Field) => raceMask race f.addr &&& bitMask f.hi f.lo != 0
  let s := if page = Page.IVE then
      s.setIve { s.ive with busyMax := if hit Fld.IVE_BUSY_MAX then s.ive.busyMax else 0,
                            checkMax := if hit Fld.IVE_CHKMAX_NS then s.ive.checkMax else 0,
                            checkKind := if hit Fld.IVE_CHKMAX_KIND then s.ive.checkKind else 0 }
    else s
  if fs.any hit then s.again page else s

/-- The bit of `xxx_CTRL` that is STATCLR. -/
def statclrBit (page : Nat) : Nat :=
  if [0x12, 0x20, 0x21, 0x38, 0x39, 0x3A, 0x40, 0x48, 0x49, 0x4A].contains page then 0 else 1

/-! ### Interrupt claims and completions (R341 to R346) -/

/-- Source `n` is deliverable to core `c` (R342). -/
def deliverable (s : State) (c n : Nat) : Bool :=
  s.fld (Fld.IRQ_SRCn_STATE n) = 1 && (s.irqRoute n).1 = c && s.fld (Fld.IRQ_SRCn_MASK n) = 0 &&
    decide ((s.irqRoute n).2 < s.fld (Fld.IRQ_THRc_THRESH c))

/-- The source that a claim by core `c` gives: lowest priority number, then lowest source number. -/
def bestSource (s : State) (c : Nat) : Option Nat :=
  (List.range 256).foldl (fun (best : Option Nat) n =>
    if ¬ s.deliverable c n then best else
    match best with
    | none => some n
    | some m => if (s.irqRoute n).2 < (s.irqRoute m).2 then some n else some m) none

/-- Core `c` claims (R342). -/
def irqClaim (s : State) (c : Nat) : State :=
  match s.bestSource c with
  | some n => (s.irqState n 2).setReg (Reg.IRQ_CLAIMEDc c) (w32 (2 ^ 31 + n))
  | none => (((s.podCount 63 1).setReg (Reg.IRQ_CLAIMEDc c) (w32 (2 ^ 31 + 0x3FF))).addSat Fld.IRQ_SPURCNT_SPUR 1).raiseEvt Page.IRQ Evt.IRQ_SPURIOUS

/-- Core `c` completes a source (R343); the number is the cause of a refusal (R349), 0 for none. -/
def irqDone (s : State) (c n : Nat) : State × Nat :=
  let st := s.fld (Fld.IRQ_SRCn_STATE n)
  if n ≤ 0xFF ∧ 2 ≤ st ∧ (s.irqRoute n).1 = c then
    (s.irqState n (st - 2), 0)
  else ((s.errAddr Page.IRQ 5 (0x88 + 16 * c)).raiseEvt Page.IRQ Evt.IRQ_BADDONE, 6)

/-- A doorbell write (R341, R346). -/
def doorbell (s : State) (withdraw : Bool) (n : Nat) : State × Nat :=
  if reservedSource n then (s.errAddr Page.IRQ 1 0x40, 4)
  else (if withdraw then s.withdrawSource n else s.ringSource n, 0)

/-! ### Queues (R320, R329) -/

/-- Consume the head of queue `q` if it is READY and has the number given; the answer is a status code of R307. -/
def consume (s : State) (q : Nat) (seq : Word) : State × Nat :=
  let x := s.queue q
  let refuse := fun (c : Nat) => (s.raiseEvt Page.QUE Evt.QUE_STALE, c)
  match x.entries with
  | [] => refuse (if seq = x.next then 0x01 else 0x0D)
  | e :: rest =>
    if e.seq ≠ seq then refuse 0x0D
    else if ¬ e.ready then refuse 0x01
    else
      let s := s.setQueue q { x with entries := rest, lost := 0, lostFirst := none }
      let gap : Bool := match e.body with
        | .record r => q = 49 && r.code = 0x0902 && r.source = 1
        | _ => false
      (if gap then { s with evr := { s.evr with q49loss := none } } else s, 0)

/-! ### Check-value engines (R355, R356) -/

/-- A write of 1 to `CRC_GOe` with the configuration of the moment. -/
def crcGo (s : State) (e : Nat) : State × Nat :=
  if s.flag (Fld.CRC_RESSTe_BUSY e) then (s.errAddr Page.CRC 5 (0x124 + 64 * e), 6) else
  let two := fun (lo hi : Nat) => (s.reg lo).toNat + (s.reg hi).toNat * 2 ^ 32
  let run : CrcRun :=
    ⟨e, s.fld (Fld.CRC_CFGe_WIDTH e), s.fld (Fld.CRC_CFGe_FOLDLEN e), s.flag (Fld.CRC_CFGe_INV e), s.flag (Fld.CRC_CFGe_REFOUT e),
     s.flag (Fld.CRC_CFGe_REFIN e), two (Reg.CRC_POLYLOe e) (Reg.CRC_POLYHIe e), two (Reg.CRC_INITLOe e) (Reg.CRC_INITHIe e),
     two (Reg.CRC_FOLDLOe e) (Reg.CRC_FOLDHIe e), (s.reg (Reg.CRC_SRCe e)).toNat, s.fld (Fld.CRC_LENe_LEN e)⟩
  let s := s.setReg (Reg.CRC_RESSTe e) (w32 (2 ^ 29))
  let s := s.setFlag ⟨Reg.CRC_STAT, e, e⟩ true
  ({ s with crcRuns := s.crcRuns.filter (fun r => r.engine != e) ++ [run] }, 0)

/-- The data of a run lie within one of the regions of R331. -/
def crcRange (src len : Nat) : Bool :=
  match memBank src with
  | none => false
  | some _ => len = 0 || memBank (src + len - 1) = memBank src

/-- The data of a run lie in a bank in RET or OFF, where a read gives 0 (R400). -/
def crcOff (s : State) (r : CrcRun) : Bool := match memBank r.src with
  | some b => decide (b < 16) && r.len != 0 && s.fld (Fld.MEM_BANKb_MODE b) != 0
  | none => false

/-- The check value of a run over the memory as it stands (R355). -/
def crcValue (s : State) (r : CrcRun) : Nat :=
  let fold := leBytes (4 * r.foldLen) (r.fold % 2 ^ (32 * r.foldLen))
  let off := s.crcOff r
  crcGeneric r.width r.poly r.init r.refin r.refout r.inv
    (fold ++ (List.range r.len).map fun i => if off then 0 else s.memByte (r.src + i))

/-- The run of engine `e` ends (R355, R356). -/
def crcEnd (s : State) (e : Nat) : State :=
  match s.crcRuns.find? (fun r => r.engine = e) with
  | none => s
  | some r =>
    let s : State := { s with crcRuns := s.crcRuns.filter fun r => r.engine != e }
    let s := s.setFlag ⟨Reg.CRC_STAT, e, e⟩ false
    let s := if ¬ crcRange r.src r.len then s.setReg (Reg.CRC_RESSTe e) (w32 (2 ^ 30))
      else
        let v := s.crcValue r
        let s := if s.crcOff r then s.raiseEvt Page.MEM Evt.MEM_OFFACC else s
        ((s.setReg (Reg.CRC_RESLOe e) (w32 v)).setReg (Reg.CRC_RESHIe e) (w32 (v / 2 ^ 32))).setReg (Reg.CRC_RESSTe e) (w32 (2 ^ 31))
    s.raiseEvt Page.CRC e

/-! ### Bank modes, calibration, snapshots (R382, R401, R413) -/

/-- The pea whose banks 3 to 8 hold bank `b`. -/
def bankPea (b : Nat) : PeaId := if b % 3 = 0 then .a else if b % 3 = 1 then .b else .c

/-- Contents of bank `b` of a pea are lost: data SRAM in banks 3 to 5, scratch and the context store in banks 6 to 8. -/
def dropBank (s : State) (b : Nat) : State :=
  let p := bankPea b
  let x := s.pea p
  s.setPea p (if b ≤ 5 then { x with sram := [], upsets := x.upsets.filter fun u => u.mem != .sram }
    else { x with scratch := [], ctx := [], upsets := x.upsets.filter fun u => u.mem != .scratch && u.mem != .ctx })

/-- A mode write to bank `b` (R401): honoured only for RET or OFF of a pea that stays OUT. -/
def bankWrite (s : State) (b m : Nat) : State × Nat :=
  if 2 < m then (s.errAddr Page.MEM 1 (0x100 + 4 * b), 4)
  else if 3 ≤ b ∧ b ≤ 8 ∧ m ≠ 0 ∧ (s.pea (bankPea b)).phase = .stayOut ∧ s.peaState (bankPea b) = 5 then
    let s := s.setBank b m
    (if m = 2 then s.dropBank b else s, 0)
  else (s.errAddr Page.MEM 5 (0x100 + 4 * b), 6)

/-- A write to the user calibration record (R413). -/
def calWrite (s : State) (i : Nat) (v : Word) : State :=
  let s : State := { s with nv := { s.nv with userCal := Store.set (fun _ => 0) s.nv.userCal i (w32 (v.toNat % 65536)) } }
  (s.setFld Fld.CAL_STAT_PENDING 1).raiseEvt Page.CAL Evt.CAL_WRITTEN

/-- `CAL_CTRL.CLEAR`: the user calibration record is emptied (R413). -/
def calClear (s : State) : State :=
  let s : State := { s with nv := { s.nv with userCal := [] } }
  let s := (List.range 8).foldl (fun (s : State) i => s.setReg (Reg.CAL_USERi i) 0) s
  (s.setFld Fld.CAL_STAT_PENDING 1).raiseEvt Page.CAL Evt.CAL_WRITTEN

/-- A snapshot of the pod counters (R382). -/
def snapshot (s : State) : State :=
  let s := (List.range 64).foldl (fun (s : State) i => s.setReg (Reg.PMON_PODSNAPi i) (s.reg (Reg.PMON_PODi i))) s
  (s.setReg Reg.PMON_SNAPCYC s.vcyc).raiseEvt Page.PMON Evt.PMON_SNAPDONE

/-! ### Register writes -/

/-- What a write to `xxx_CTRL` sets going beside the fields it stores. -/
def ctrlWrite (s : State) (page v : Nat) : State :=
  let s := if v.testBit (statclrBit page) then s.statClear page [] else s
  if page = Page.POD ∧ v.testBit 0 then stateOf (execRotReq s) s
  else if page = Page.FIO ∧ v.testBit 0 then stateOf (execGrprst s) s
  else if page = Page.CAL ∧ v.testBit 0 then s.calClear
  else if page = Page.PMON ∧ v.testBit 1 then s.snapshot
  else s

/-- What follows the stores of a write to a register with RW or RWL fields. -/
def afterWrite (s : State) (a v : Nat) : State :=
  if a = Reg.PMON_SNAPPER then { s with pmon := { s.pmon with snapAt := s.vcyc } }
  else if a = Reg.PMON_GATE then s.setFld Fld.PMON_STAT_GATED (s.fld Fld.PMON_GATE_GATE)
  else if a = Reg.PMON_SAMPCFG then
    if v.testBit 31 then { s with pmon := { s.pmon with lfsr := s.reg Reg.PMON_SEED } } else s
  else if pageOf a = Page.IRQ ∧ 0x100 ≤ offOf a then s.irqToRing ((offOf a - 0x100) / 4)
  else if a = Reg.BRG_CTRL then s.setFld Fld.BRG_STAT_PF_ON (s.fld Fld.BRG_CTRL_PF_EN)
  else if pageOf a = Page.CAL ∧ 0x140 ≤ offOf a ∧ offOf a < 0x160 ∧ s.lockOpen Page.CAL then
    s.calWrite ((offOf a - 0x140) / 4) (w32 v)
  else s

/-- The word that a write leaves in a register: RW fields, RWL fields with the lock open, and W1C fields. -/
def mergedWord (old v : Nat) (lock : Bool) (fs : List FieldDef) : Word :=
  w32 (fs.foldl (fun w f =>
    match f.access with
    | .rw => putBits f.hi f.lo w (bitsOf f.hi f.lo v)
    | .rwl => if lock then putBits f.hi f.lo w (bitsOf f.hi f.lo v) else w
    | .w1c => putBits f.hi f.lo w (bitsOf f.hi f.lo w - (bitsOf f.hi f.lo w &&& bitsOf f.hi f.lo v))
    | _ => w) old)

/-- A write to a register by its fields (R14, R18, R337, R339), with the cause of a failure (R349), 0 for none. -/
def storeFields (s : State) (a v : Nat) : State × Nat :=
  let page := pageOf a
  let off := offOf a
  let fs := fieldsOf a
  let old := (s.reg a).toNat
  if badEncoding a v (fun x => x = .rw || x = .rwl || x = .wo) then (s.errAddr page 1 off, 4) else
  let lock := s.lockOpen page
  let shut := !lock && fs.any fun f => f.access = .rwl
  let rv := fs.any fun f => f.access = .rv && bitsOf f.hi f.lo v != bitsOf f.hi f.lo old
  let s := s.setReg a (mergedWord old v lock fs)
  let s := if shut then s.errAddr page 3 off else s
  let s := if rv then s.errAddr page 6 off else s
  let s := if off = 0x20 then s.ctrlWrite page v else s
  (s.afterWrite a v, if rv ∧ vitalPage page then 2 else if shut then 3 else 0)

/-- A write to an address of the register pages as service firmware makes it (R17, R18, R331), with the cause of a failure. -/
def regWrite (s : State) (a v : Nat) : State × Nat :=
  let page := pageOf a
  let off := offOf a
  if ¬ inPages a ∨ ¬ pageListed page then (s, 5)
  else if ¬ isReg a then (s.errAddr page 2 off, 5)
  else if off = 0x10 then
    (if v.testBit 31 then s.setFld ⟨a, 31, 31⟩ 0 else s, 0)
  else if off = 0x14 then (s.evtClear page v 0, 0)
  else if off = 0x18 then (s.evtEnable page v, 0)
  else if off = 0x1C then (s.evtSet page v, 0)
  else if off = 0x24 then (s.writeLock page v, 0)
  else if off = 0x2C then (if v.testBit 31 then s.setReg a 0 else s, 0)
  else if a = Reg.IRQ_DOORBELL then s.doorbell (v.testBit 31) (bitsOf 9 0 v)
  else if page = Page.IRQ ∧ 0x80 ≤ off ∧ off < 0xC0 ∧ off % 16 = 0 then
    (if v.testBit 0 then s.irqClaim ((off - 0x80) / 16) else s, 0)
  else if page = Page.IRQ ∧ 0x80 ≤ off ∧ off < 0xC0 ∧ off % 16 = 8 then s.irqDone ((off - 0x80) / 16) (bitsOf 9 0 v)
  else if page = Page.QUE ∧ 0x100 ≤ off ∧ off % 16 = 12 then
    let (s, st) := s.consume ((off - 0x100) / 16) (w32 v)
    if st = 0 then (s, 0) else (s.errAddr page 5 off, 6)
  else if page = Page.CRC ∧ 0x100 ≤ off ∧ off % 64 = 0x24 then
    if v.testBit 0 then s.crcGo ((off - 0x100) / 64) else (s, 0)
  else if page = Page.MEM ∧ 0x100 ≤ off ∧ off < 0x140 then s.bankWrite ((off - 0x100) / 4) (bitsOf 17 16 v)
  else if a = Reg.OUT_CHFAULT then (stateOf (execChfaultClear (w32 v) s) s, 0)
  else s.storeFields a v

/-! ### Failed writes (R350) -/

/-- R350: a posted write has failed: the log entry, the report to its writer, and the count. -/
def postFail (s : State) (w : Writer) (tag : Word) (a cause : Nat) : State :=
  let k := s.fld Fld.BRG_LOGHEAD_NEXT
  let core := match w with
    | .core c => 2 ^ 27 + c % 4 * 2 ^ 16
    | .host i => i % 16 * 2 ^ 16
  let w1 := w32 (cause % 16 * 2 ^ 28 + core)
  let s := ((s.setReg (Reg.BRG_ERRLOG0i k) (w32 a)).setReg (Reg.BRG_ERRLOG1i k) w1).setReg (Reg.BRG_ERRLOG2i k) tag
  let s := (s.setReg (Reg.BRG_ERRLOG3i k) s.vcyc).setFld Fld.BRG_LOGHEAD_NEXT ((k + 1) % 16)
  let s := s.addSat Fld.BRG_LOGHEAD_TOTAL 1
  let s := if cause = 7 then s.raiseEvt Page.BRG Evt.BRG_RETRY else s
  let body := [w32 a, w1, tag, s.vcyc]
  match w with
  | .host i =>
    let s := s.addSat (Fld.BRG_PERRs_COUNT i) 1
    let t := s.raiseRecTo 0x0703 Page.BRG (w32 i) body (some i)
    t.offer i 0x0703 Page.BRG (w32 i) ⟨1, 2, 0, 0, 1, w32 (0x0703 + Page.BRG * 0x10000), s.vcyc, s.now, body⟩ (s.seqOf t)
  | .core c =>
    let s := (s.addSat (Fld.BRG_PERRCc_COUNT c) 1).raiseEvt Page.BRG Evt.BRG_POSTERR
    s.raiseRec 0x0703 Page.BRG (w32 (16 + c % 4)) body

/-- A word that service firmware stores in service SRAM, module MRAM or DRAM (R331); an access to a bank that is not ON has no effect. -/
def coreStore (s : State) (b a v : Nat) : State :=
  if s.fld (Fld.MEM_BANKb_MODE b) ≠ 0 then s.raiseEvt Page.MEM Evt.MEM_OFFACC else
  { s with mem := (List.range 4).foldl (fun m i => Store.set (fun _ => 0) m (a + i) (BitVec.ofNat 8 (v / 2 ^ (8 * i)))) s.mem }

/-- R18: a core's write that places a reserved encoding in a field of a service-domain page is recorded; it crosses no bridge, so the
record's body is made as a log entry would be (DEDUCED, log entry 47). -/
def rejectedWrite (s : State) (c a : Nat) : State :=
  s.raiseRec 0x0703 (pageOf a) (w32 (16 + c % 4)) [w32 a, w32 (4 * 2 ^ 28 + 2 ^ 27 + c % 4 * 2 ^ 16), 0, s.vcyc]

/-- A write by service core `c`.  One to a vital-domain page or a pea window passes the bridge, which reports its failure (R350). -/
def coreWrite (s : State) (c a v : Nat) : State :=
  match memBank a with
  | some b => s.coreStore b (a - a % 4) v
  | none =>
    let (s, cause) := s.regWrite a v
    if cause ≠ 0 ∧ ((inPages a ∧ vitalPage (pageOf a)) ∨ (peaWindow a).isSome) then s.postFail (.core c) 0 a cause
    else if cause = 4 then s.rejectedWrite c a else s

/-- R338: a plain host write from session `i`, with the cause of its failure (R349). -/
def hostWrite (s : State) (i a v : Nat) : State × Nat :=
  let page := pageOf a
  let off := offOf a
  let listed : Bool := match page with
    | 0x19 => off = 0x20 || off = 0x40
    | 0x2C => a = Reg.RSCH_ORDSEL
    | 0x38 | 0x39 => off = 0x14 || off = 0x18 || off = 0x20 || off = 0x24
    | 0x3B => off = 0x10C + 16 * (2 * i + 1) || off = 0x10C + 16 * (32 + i)
    | 0x40 => a = Reg.IRQ_DOORBELL
    | 0x42 => decide (0x1C0 ≤ off)
    | 0x49 => off = 0x20
    | 0x4A => off = 0x18 || (fieldsOf a).any fun f => f.access = .rw || f.access = .rwl
    | _ => false
  if ¬ s.isOpen i ∨ s.classOf i = 0 then (s, 1)
  else if ¬ isReg a then
    (if inPages a ∧ pageListed page then s.errAddr page 2 off else s, 5)
  else if hasRv a ∨ ¬ listed then (s.errAddr page 4 off, 2)
  else if a = Reg.IRQ_DOORBELL ∧ (v.testBit 31 ∨ bitsOf 9 0 v < 0xF0 ∨ 0xFE < bitsOf 9 0 v) then
    ((s.errAddr page 4 off).raiseEvt Page.IRQ Evt.IRQ_HOSTREJ, 2)
  else s.regWrite a v

end State

end Sys2Proof.Machine
end

