-- ==== Sys2Proof/Machine/Registers.lean ====
section
/-! DEFINITION. The commands of service firmware on the register pages, the commands of the interrupt controller, the check-value engines
and the performance monitor, and the faults that a stage reports (R14 to R18, R43, R335 to R346, R349, R354 to R356, R382 to R384, R401,
R413). -/

namespace Sys2Proof.Machine

namespace State

/-- What a service core does: nothing while service firmware does not run. -/
def byCore (s : State) (f : State → State) : Host.Outcome State Fault Refusal := .next (if s.firmwareRuns then f s else s)

/-- An address of page `page`. -/
def atPage (page off : Nat) : Nat := 0x40000000 + page % 256 * 0x1000 + off

/-! ### Posted writes (R349, R350, R354) -/

/-- Count the outcome of one posted write of session `i`: in the FENCE that waits for it, or in the aggregate of the next (R350). -/
def countOutcome (s : State) (i : Nat) (tag : Word) (a cause : Nat) : State :=
  let add := fun (g : FenceAgg) =>
    let g := { g with posted := g.posted + 1 }
    if cause = 0 then g
    else if g.failed = 0 then { g with failed := 1, firstAddr := w32 a, firstCause := BitVec.ofNat 8 cause, firstTag := tag }
    else { g with failed := g.failed + 1 }
  let x := s.session i
  if x.fences.any fun f => f.left != 0 then
    let done := x.fences.takeWhile fun f => f.left = 0
    let rest := match x.fences.dropWhile fun f => f.left = 0 with
      | f :: fs => { f with left := f.left - 1, agg := add f.agg } :: fs
      | [] => []
    s.setSession i { x with fences := done ++ rest }
  else s.setSession i { x with agg := add x.agg }

/-- The outcome of a posted write of session `i`, reported and counted. -/
def finishPosted (s : State) (i : Nat) (w : PostedWrite) (a cause : Nat) : State :=
  let s := if cause = 0 then s else s.postFail (.host i) w.tag a cause
  s.countOutcome i w.tag a cause

/-- Write the words of a posted write in ascending address: each register is decided on its own, and the first failure stands for
the write. -/
def postWords (s : State) (i a : Nat) : List Word → State × Nat × Nat
  | [] => (s, a, 0)
  | v :: vs =>
    let (s, cause) := s.hostWrite i a v.toNat
    let (s, a', c') := postWords s i (a + 4) vs
    if cause ≠ 0 then (s, a, cause) else (s, a', c')

/-- The outcome of the oldest posted write that waits: with a bank conflict not resolved by retries, or as R338 decides it. -/
def decidePosted (s : State) (conflict : Bool) : State :=
  match s.posted with
  | [] => s
  | w :: rest =>
    let s : State := { s with posted := rest }
    match w.writer with
    | .core c => if conflict then s.postFail (.core c) w.tag w.addr 7 else s
    | .host i =>
      if w.data.isEmpty then s.finishPosted i w w.addr 9
      else if conflict then s.finishPosted i w w.addr 7
      else
        let (s, a, cause) := s.postWords i w.addr w.data
        s.finishPosted i w (if cause = 0 then w.addr else a) cause

/-- A write that crosses to the vital half of the bridge. -/
def crosses (w : PostedWrite) : Bool := (inPages w.addr && vitalPage (pageOf w.addr)) || (peaWindow w.addr).isSome

/-- R354: the vital half of the bridge is reset. -/
def pathReset (s : State) : State :=
  let lost := s.posted.filter crosses
  let s : State := { s with posted := s.posted.filter fun w => !crosses w }
  let s := lost.foldl (fun (s : State) w => match w.writer with
    | .host i => s.finishPosted i w w.addr 8
    | .core c => s.postFail (.core c) w.tag w.addr 8) s
  let s : State := match s.cyc.waiting with
    | some _ => { s with cyc := { s.cyc with imgCause := 4 } }
    | none => s
  s.raiseEvt Page.BRG Evt.BRG_PATHRESET

/-! ### Faults of a stage (R43, R54, R88, R167, R354) -/

/-- A code violation (`stall` false) or a stall is reported where it is seen. -/
def stageFault (s : State) (site : FaultSite) (stall : Bool) : State :=
  match site with
  | .pea p g => if s.peaState p = 0 then s else s.peaFault p (if stall then 2 else 1) g (s.runSlot p) 0
  | .voter v =>
    let s := if v = 1 ∨ v = 3 then s.setFld Fld.VOTE_STAT_V1_OK 0 else s
    let s := if v = 2 ∨ v = 3 then s.setFld Fld.VOTE_STAT_V2_OK 0 else s
    (s.raiseEvt Page.VOTE (if stall then Evt.VOTE_VSTALL else Evt.VOTE_VCODEVIO)).kernelFault (if stall then 6 else 5) v
  | .ive h => s.iveFault (if stall then 5 else 4) h
  | .bridge => s.pathReset

/-! ### Performance monitor (R382 to R384) -/

/-- The six entries of a periodic snapshot in Q59 (R382). -/
def snapshotEntries (s : State) : List (List Byte) :=
  (List.range 6).map fun p =>
    let n := if p = 5 then 4 else 12
    let cs := (List.range n).flatMap fun k => wordBytes (s.reg (Reg.PMON_PODSNAPi (12 * p + k)))
    let b := wordBytes (s.reg Reg.PMON_SNAPCYC) ++ [BitVec.ofNat 8 p, BitVec.ofNat 8 (12 * p), BitVec.ofNat 8 n, 0] ++ padBytes 52 cs
    b ++ wordBytes (crc32c b)

/-- The 64 bytes of a closed sample (R384). -/
def sampleBytes (z : Sample) (num : Word) (pea lost : Nat) : List Byte :=
  let flags := b2n z.emitted + 2 * b2n z.trapped + 4 * b2n z.iveDone + 8 * b2n z.flagged
  let b := wordBytes num ++ [BitVec.ofNat 8 pea, BitVec.ofNat 8 z.task, z.opcode, BitVec.ofNat 8 flags] ++
    wordsBytes [z.vcyc, z.addr, z.decode, z.execEnd, z.inDr, z.atVoter, z.voted, z.iveEnd, z.tag] ++ [z.iveOut, z.refusal, z.fill, 0] ++
    wordBytes (w32 lost) ++ List.replicate 8 0
  b ++ wordBytes (crc32c b)

/-- The last stage of a sample has been reached (R383). -/
def sampleDone (z : Sample) : Bool :=
  z.trapped || (z.execEnd != 0xFFFFFFFF &&
    (!z.emitted || (z.voted != 0xFFFFFFFF && (z.iveDone || !(decide (1 ≤ tagKind z.tag ∧ tagKind z.tag ≤ 4))))))

/-- A closed sample of pea `n` goes to its queue, or is dropped and counted. -/
def closeSample (s : State) (n : Nat) : State :=
  match s.pmon.samples.getD n none with
  | none => s
  | some z =>
    let s : State := { s with pmon := { s.pmon with samples := s.pmon.samples.set n none } }
    let s := s.setFld ⟨Reg.PMON_STAT, 4 + n, 4 + n⟩ 0
    if 1024 ≤ s.used (56 + n) then
      let s : State := { s with pmon := { s.pmon with lost := s.pmon.lost.modify n (· + 1) } }
      (s.addSat Fld.PMON_SAMPLOST_LOST 1).raiseEvt Page.PMON Evt.PMON_SAMPLOST
    else
      let num := s.pmon.numbers.getD n 0 + 1
      let e := sampleBytes z num n (s.pmon.lost.getD n 0)
      let s : State := { s with pmon := { s.pmon with numbers := s.pmon.numbers.set n num, lost := s.pmon.lost.set n 0 } }
      (s.push (56 + n) true (.raw e)).setReg Reg.PMON_SAMPCNT (s.reg Reg.PMON_SAMPCNT + 1)

end State

/-- REGISTER_WRITE (R14): service core `c` writes a word to an address. -/
def execRegisterWrite (c : Fin 4) (addr value : Word) (s : State) : Host.Outcome State Fault Refusal :=
  s.byCore fun s => s.coreWrite c addr.toNat value.toNat

/-- EVT_CLEAR (R335, R336): a W1C write to the `xxx_EVT` of a page; hardware sets the bits of `hw` in the same update. -/
def execEvtClear (_c : Fin 4) (page : Byte) (mask hw : Word) (s : State) : Host.Outcome State Fault Refusal :=
  .next (s.evtClear page.toNat (if s.firmwareRuns then mask.toNat else 0) hw.toNat)

/-- EVTEN_WRITE (R336). -/
def execEvtenWrite (c : Fin 4) (page : Byte) (value : Word) (s : State) : Host.Outcome State Fault Refusal :=
  s.byCore fun s => s.coreWrite c (State.atPage page.toNat 0x18) value.toNat

/-- EVTSET_WRITE (R336). -/
def execEvtsetWrite (c : Fin 4) (page : Byte) (value : Word) (s : State) : Host.Outcome State Fault Refusal :=
  s.byCore fun s => s.coreWrite c (State.atPage page.toNat 0x1C) value.toNat

/-- STATCLR (R335): a write of 1 to the STATCLR of a page; hardware updates the fields (address, high bit, low bit)
of `race` in the same update. -/
def execStatclr (_c : Fin 4) (page : Byte) (race : List (Nat × Nat × Nat)) (s : State) : Host.Outcome State Fault Refusal :=
  s.byCore fun s => s.statClear page.toNat (race.map fun f => ⟨f.1, f.2.1, f.2.2⟩)

/-- PAGE_LOCK (R337): a write to the `xxx_LOCK` of a page. -/
def execPageLock (c : Fin 4) (page : Byte) (value : Word) (s : State) : Host.Outcome State Fault Refusal :=
  s.byCore fun s => s.coreWrite c (State.atPage page.toNat 0x24) value.toNat

/-- PAGE_LOCK_TIMEOUT (R337): 100 ms after it was opened, a page's lock closes. -/
def execPageLockTimeout (page : Byte) (s : State) : Host.Outcome State Fault Refusal :=
  if s.now < Store.get (fun _ => 0) s.clock.lockAt page.toNat + 100000000 then .next s else
  .next (if pageListed page.toNat then s.setFlag ⟨regAddr page.toNat 0x24, 31, 31⟩ false else s)

/-- DOORBELL_RING (R341). -/
def execDoorbellRing (_c : Fin 4) (source : BitVec 10) (s : State) : Host.Outcome State Fault Refusal :=
  s.byCore fun s => (s.doorbell false source.toNat).1

/-- DOORBELL_WITHDRAW (R346). -/
def execDoorbellWithdraw (_c : Fin 4) (source : BitVec 10) (s : State) : Host.Outcome State Fault Refusal :=
  s.byCore fun s => (s.doorbell true source.toNat).1

/-- IRQ_CLAIM (R342): a write of 1 to `IRQ_CLAIMc`. -/
def execIrqClaim (c : Fin 4) (s : State) : Host.Outcome State Fault Refusal := s.byCore fun s => s.irqClaim c

/-- IRQ_DONE (R343): a write of a source number to `IRQ_DONEc`. -/
def execIrqDone (c : Fin 4) (source : BitVec 10) (s : State) : Host.Outcome State Fault Refusal :=
  s.byCore fun s => (s.irqDone c source.toNat).1

/-- CRC_GO (R356): a write of 1 to `CRC_GOe`. -/
def execCrcGo (_c e : Fin 4) (s : State) : Host.Outcome State Fault Refusal := s.byCore fun s => (s.crcGo e).1

/-- CRC_RUN_END (R355, R356): the run of an engine ends. -/
def execCrcRunEnd (e : Fin 4) (s : State) : Host.Outcome State Fault Refusal := .next (s.crcEnd e)

/-- BANK_MODE_WRITE (R401): a write to `MEM_BANKb.MODE`. -/
def execBankModeWrite (_c : Fin 4) (b : Fin 16) (mode : BitVec 2) (s : State) : Host.Outcome State Fault Refusal :=
  s.byCore fun s => (s.bankWrite b mode.toNat).1

/-- CAL_USER_WRITE (R413): a write to `CAL_USERi`. -/
def execCalUserWrite (c : Fin 4) (i : Fin 8) (value : Word) (s : State) : Host.Outcome State Fault Refusal :=
  s.byCore fun s => s.coreWrite c (Reg.CAL_USERi i) value.toNat

/-- CAL_CLEAR (R413): a write of 1 to `CAL_CTRL.CLEAR`. -/
def execCalClear (_c : Fin 4) (s : State) : Host.Outcome State Fault Refusal := s.byCore State.calClear

/-- QUE_CONSUME_WRITE (R329): a write to `QUE_CONSUMEq`. -/
def execQueConsumeWrite (c : Fin 4) (q : Fin 64) (seq : Word) (s : State) : Host.Outcome State Fault Refusal :=
  s.byCore fun s => s.coreWrite c (Reg.QUE_CONSUMEq q) seq.toNat

/-- SNAP (R382): a write of 1 to `PMON_CTRL.SNAP`. -/
def execSnap (_c : Fin 4) (s : State) : Host.Outcome State Fault Refusal := s.byCore State.snapshot

/-- PERIODIC_SNAPSHOT (R382): the period of `PMON_SNAPPER` has expired. -/
def execPeriodicSnapshot (s : State) : Host.Outcome State Fault Refusal :=
  if s.fld Fld.PMON_SNAPPER_PERIOD = 0 ∨ (s.vcyc - s.pmon.snapAt).toNat < s.fld Fld.PMON_SNAPPER_PERIOD then .next s else
  let s := { s.snapshot with pmon := { s.pmon with snapAt := s.vcyc } }
  if 1024 < s.used 59 + 6 then .next (s.raiseEvt Page.PMON Evt.PMON_SAMPLOST)
  else .next (s.snapshotEntries.foldl (fun (s : State) e => s.push 59 true (.raw e)) s)

/-- SAMPLE_CLOSE (R383, R384): the open sample of a pea has reached its last stage, or its cycle has ended. -/
def execSampleClose (p : PeaId) (s : State) : Host.Outcome State Fault Refusal :=
  match s.pmon.samples.getD (peaNum p) none with
  | none => .next s
  | some z => .next (if State.sampleDone z ∨ z.vcyc ≠ s.vcyc then s.closeSample (peaNum p) else s)

/-- POSTED_WRITE_OUTCOME (R349): the oldest posted write has its outcome; `conflict` says that retries did not resolve a bank
conflict (R353). -/
def execPostedWriteOutcome (conflict : Bool) (s : State) : Host.Outcome State Fault Refusal := .next (s.decidePosted conflict)

/-- BRIDGE_PATH_RESET (R354). -/
def execBridgePathReset (s : State) : Host.Outcome State Fault Refusal := .next s.pathReset

/-- CODE_VIOLATION (R43): a stage has seen 11 on a rail pair. -/
def execCodeViolation (site : FaultSite) (s : State) : Host.Outcome State Fault Refusal := .next (s.stageFault site false)

/-- STALL_TIMEOUT (R43): a handshake has been stuck for 50 µs. -/
def execStallTimeout (site : FaultSite) (s : State) : Host.Outcome State Fault Refusal := .next (s.stageFault site true)

end Sys2Proof.Machine
end

