-- ==== Sys2Proof/Machine/TwinSwap.lean ====
section
/-! DEFINITION. The control frames of program exchange (R145, R146) and of planned swaps (R298, R299) on the twin link. -/

namespace Sys2Proof.Machine

namespace State

/-- The unit has the staged image verified in every pea in service (R142). -/
def stagedBuild (s : State) : Option Word := match s.xch.staged with
  | some p => if s.flag Fld.PROG_STAT_STAGED ∧ s.flag Fld.IVE_STAT_STAGED then some p.imgId else none
  | none => none

end State

/-! ### Exchange -/

/-- XARM (R145, R146): the partner notes cycle X, and arms and replies READY if it has verified the same image and holds SYNCED. -/
def execXarm (h : TwinHdr) (x build : Word) (s : State) : Host.Outcome State Fault Refusal :=
  .next <| s.twinRx h (.xarm x build) 0 fun s =>
    if s.isActive then s else
    let ready : Bool := s.stagedBuild = some build && s.flag Fld.TWIN_STAT_SYNCED
    let s := s.setArmed (some ⟨x, build, false, false, 0, 0, !ready, true, false, true, s.ticks⟩)
    if ready then (s.setReg Reg.PROG_XCYCLE x).twinSend (.xready build) else s

/-- XREADY (R145): the arming that waited for the partner stands, and GO will go to it. -/
def execXready (h : TwinHdr) (build : Word) (s : State) : Host.Outcome State Fault Refusal :=
  .next <| s.twinRx h (.xready build) 0 fun s => match s.xch.armed with
    | some a => if a.waiting ∧ ¬ a.byPartner ∧ a.build = build then s.armNow a else s
    | none => s

/-- XGO (R146): the partner exchanges at tV(X) if GO comes by tV(X) − 100 µs and it has the image verified. -/
def execXgo (h : TwinHdr) (x : Word) (s : State) : Host.Outcome State Fault Refusal :=
  .next <| s.twinRx h (.xgo x) 0 fun s => match s.xch.armed with
    | some a =>
      if a.byPartner ∧ a.x = x ∧ x = s.vcyc + 1 ∧ s.phase + 2500 ≤ s.cycleTicks ∧ s.stagedBuild = some a.build then
        s.setArmed (some { a with go := true, waiting := false })
      else s
    | none => s

/-- XABORT (R146): the partner disarms. -/
def execXabort (h : TwinHdr) (x : Word) (code : Nat) (s : State) : Host.Outcome State Fault Refusal :=
  .next <| s.twinRx h (.xabort x code) 0 fun s => match s.xch.armed with
    | some a => if a.byPartner ∧ a.x = x then (s.refuseExchange code).setArmed none else s
    | none => s

/-! ### Planned swap -/

namespace State

/-- Refuse or abort a swap with a code of R298. -/
def swapRefuse (s : State) (code : Nat) : State :=
  ((s.setFld Fld.TWIN_SWAP_ARMED 0).setFld Fld.TWIN_SWAP_REF code).raiseEvt Page.TWIN Evt.TWIN_REFUSED

/-- The partner is STANDBY, by its last STATUS. -/
def partnerStandby (s : State) : Bool := match s.partnerStatus with
  | some v => v.claim.toNat / 2 ^ 24 = 1
  | none => false

/-- The rows of R298 that hold whenever they are tested: LINK, NOT_SYNCED (also where no epoch is left for the
partner, R276) and CLASH; 0 for none. -/
def swapCode (s : State) (swap : Word) (activation : Bool) : Nat :=
  let near : Bool := match s.xch.armed with
    | some a => s.within10s a.x swap
    | none => false
  if ¬ s.linkUp then 1
  else if ¬ s.partnerStandby ∨ s.fld Fld.TWIN_DIGCMP_RUN < 3 ∨ nextEpoch s.knownEpoch (1 - s.letter) = none then 2
  else if near ∨ (s.activationNear swap ∧ ¬ activation) ∨ s.xferring then 4
  else 0

/-- Arm a swap for cycle `swap` (R298): SWAP_ARM goes to the partner with its new epoch. -/
def swapArmAt (s : State) (session : Nat) (num swap : Word) (activation : Bool) : State :=
  let e := (nextEpoch s.knownEpoch (1 - s.letter)).getD 0
  let s := (s.setFld Fld.TWIN_SWAP_ARMED 1).setFld Fld.TWIN_SWAP_NEWEPOCH e
  let s := (s.setReg Reg.TWIN_SWAPCYC swap).setTwin { s.twin with
    swapInit := true, swapAcked := false, swapGo := false, swapped := false, swapSession := session, swapNum := num,
    swapAct := activation, swapAt := s.ticks, swapDown := false, swapCancel := false, swapLost := false }
  s.twinSend (.swapArm swap e)

/-- A SWAP request with op ARM is decided on ordering; one that is armed is answered when the partner's SWAP_ACK comes. -/
def swapRequest (s : State) (session : Nat) (num : Word) (time : Nat) : State :=
  let x := s.cycleAt time
  let c := s.swapCode x false
  let code := if c = 1 ∨ c = 2 then c else if time < s.now + 2000000000 then 3 else if s.flag Fld.TWIN_SWAP_ARMED then 4 else c
  if code ≠ 0 then (if s.flag Fld.TWIN_SWAP_ARMED then (s.setFld Fld.TWIN_SWAP_REF code).raiseEvt Page.TWIN Evt.TWIN_REFUSED
    else s.swapRefuse code).respond session num 0x0F 0 code
  else s.swapArmAt session num x false

/-- Answer the request that armed the swap, if it waits still. -/
def swapAnswer (s : State) (code : Nat) : State :=
  if s.twin.swapNum = 0 then s else
  let s' := s.respond s.twin.swapSession s.twin.swapNum (if code = 0 then 0 else 0x0F) 0 code
  s'.setTwin { s'.twin with swapNum := 0 }

/-- A SWAP request with op CANCEL (R298): code 6 CANCELLED up to C(S−1); one that was held then has had its effect. -/
def swapCancel (s : State) (session : Nat) (num : Word) : State :=
  if s.flag Fld.TWIN_SWAP_ARMED ∧ s.twin.swapInit ∧ ¬ s.twin.swapGo then
    let s := ((s.swapRefuse 6).swapAnswer 6).twinSend (.swapAbort (s.reg Reg.TWIN_SWAPCYC) 6)
    s.respond session num 0 0 0
  else if s.twin.swapCancel then (s.setTwin { s.twin with swapCancel := false }).respond session num 0 0 0
  else s.respond session num 0x0F 0 6

end State

/-- SWAP_ARM (R298): the partner notes the swap cycle and its new epoch, and acknowledges. -/
def execSwapArm (h : TwinHdr) (cycle : Word) (epoch : Nat) (s : State) : Host.Outcome State Fault Refusal :=
  .next <| s.twinRx h (.swapArm cycle epoch) 0 fun s =>
    if s.role ≠ 3 then s else
    let s := ((s.setFld Fld.TWIN_SWAP_ARMED 1).setFld Fld.TWIN_SWAP_NEWEPOCH epoch).setReg Reg.TWIN_SWAPCYC cycle
    (s.setTwin { s.twin with swapInit := false, swapGo := false, held := [] }).twinSend (.swapAck cycle)

/-- SWAP_ACK (R298): the request that armed the swap is answered OK. -/
def execSwapAck (h : TwinHdr) (cycle : Word) (s : State) : Host.Outcome State Fault Refusal :=
  .next <| s.twinRx h (.swapAck cycle) 0 fun s =>
    if s.flag Fld.TWIN_SWAP_ARMED ∧ s.twin.swapInit ∧ cycle = s.reg Reg.TWIN_SWAPCYC then
      (s.setTwin { s.twin with swapAcked := true }).swapAnswer 0
    else s

/-- SWAP_GO (R299): received by tV(S) − 100 µs, it lets the partner take ACTIVE at tV(S). -/
def execSwapGo (h : TwinHdr) (cycle : Word) (s : State) : Host.Outcome State Fault Refusal :=
  .next <| s.twinRx h (.swapGo cycle) 0 fun s =>
    if s.flag Fld.TWIN_SWAP_ARMED ∧ ¬ s.twin.swapInit ∧ s.role = 3 ∧ cycle = s.reg Reg.TWIN_SWAPCYC ∧ cycle = s.vcyc + 1 ∧
        s.phase + 2500 ≤ s.cycleTicks then
      let s := s.storeEpoch (s.fld Fld.TWIN_SWAP_NEWEPOCH)
      s.setTwin { s.twin with swapGo := true }
    else s

/-- SWAP_ABORT (R299): the partner disarms, and keeps no held request. -/
def execSwapAbort (h : TwinHdr) (cycle : Word) (code : Nat) (s : State) : Host.Outcome State Fault Refusal :=
  .next <| s.twinRx h (.swapAbort cycle code) 0 fun s =>
    if s.flag Fld.TWIN_SWAP_ARMED ∧ ¬ s.twin.swapInit ∧ cycle = s.reg Reg.TWIN_SWAPCYC then
      (s.swapRefuse code).setTwin { s.twin with swapGo := false, held := [] }
    else s

/-- SWAP_ACK_TIMEOUT (R298): no SWAP_ACK within 1 s. -/
def execSwapAckTimeout (s : State) : Host.Outcome State Fault Refusal :=
  if s.flag Fld.TWIN_SWAP_ARMED ∧ s.twin.swapInit ∧ ¬ s.twin.swapAcked ∧ s.twin.swapAt + 25000000 ≤ s.ticks then
    let s := if s.twin.swapAct then s.endActivation 6 else s
    .next (((s.swapRefuse 5).swapAnswer 5).twinSend (.swapAbort (s.reg Reg.TWIN_SWAPCYC) 5))
  else .next s

end Sys2Proof.Machine
end

