-- ==== Sys2Proof/Machine/Update.lean ====
section
/-! DEFINITION. Update transfers, the checks of an image, key packages and SPROUT (R410, R411, R414 to R417, R420), and the activation of a
slot (R418, R419). -/

namespace Sys2Proof.Machine

/-- The address of slot `k` in module MRAM (R414), and its size. -/
def slotBase (k : Nat) : Nat := [0x63000000, 0x63800000, 0x61000000, 0x62000000].getD k 0
def slotSize (k : Nat) : Nat := if k < 2 then 0x800000 else 0x1000000

namespace State

/-! ### Datagrams (R417) -/

/-- Answer an update datagram. -/
def updReply (s : State) (u : UpdMsg) (type : Byte) (payload : List Byte) : State :=
  { s with out := .update ⟨u.port, type, u.session, u.xid, payload⟩ :: s.out }

/-- ACK with a status, the step of a rejection and the next offset expected. -/
def updAck (s : State) (u : UpdMsg) (status step : Nat) : State :=
  s.updReply u 0x81 ([BitVec.ofNat 8 status, BitVec.ofNat 8 step, 0, 0] ++ wordBytes (s.reg Reg.UPD_XOFF))

/-- A datagram is discarded and counted. -/
def updDrop (s : State) (u : UpdMsg) : State := match u.port with
  | none => s
  | some x => ((s.addSat (Fld.HSTx_DROP_DROP x) 1).raiseEvt (Page.HST x) Evt.HST_DROP).podCount 53 1

/-- The source address is one of session `i`'s peers (R304, R308). -/
def peerOf (s : State) (i : Nat) (src : IpAddr) : Bool := match s.prog with
  | none => false
  | some pr => match pr.sessions.find? (fun d => d.session = i) with
    | none => false
    | some d => match src with
      | .v4 a => d.peers4.contains a && a != 0
      | .v6 a => d.peers6.contains a && a != 0

/-- The permission bit `b` of session `i` (R308). -/
def permits (s : State) (i b : Nat) : Bool := (s.fld (Fld.SESS_CFGs_PERMS i)).testBit b

/-- Take an update datagram (R417, R420, R421): in SPROUT without a session check, on SVC and H0; elsewhere from a configured source of a
session that holds UPDATE; none where service firmware does not run. `reboot` marks REBOOT, for SPROUT only, and `info` INFO, which alone is
answered in DECOMMISSIONED. -/
def updTake (s : State) (u : UpdMsg) (len : Nat) (reboot info : Bool) (body : State → State) : Host.Outcome State Fault Refusal :=
  if s.opState = 0 ∨ s.opState = 9 then .next s else
  let sprout := s.opState = 1
  let ok := u.ver = 1 && u.flags = 0 && u.len.toNat = len && u.crcOk
  let x := s.queue 55
  let t := s.setQueue 55 { x with next := x.next + 1 }
  if sprout then
    if u.port = some 1 ∨ ¬ u.crcOk then .next s
    else if ¬ ok then .next (s.updDrop u)
    else if s.nv.lifecycle = 3 ∧ ¬ info then .next t
    else .next (body t)
  else if u.port = none then .next s
  else if ¬ ok ∨ 16 ≤ u.session.toNat ∨ ¬ s.peerOf u.session.toNat u.src then .next (s.updDrop u)
  else if ¬ s.permits u.session.toNat 6 ∨ reboot then .next (t.updAck u 2 0)
  else .next (body t)

/-! ### Transfers -/

/-- The inactive slot of a kind. -/
def inactiveSlot (s : State) (kind : Nat) : Nat :=
  let base := if kind = 1 then 0 else 2
  if (s.slot base).valid ∧ (s.slot base).active then base + 1 else base

/-- The image staged from a program slot that is to be filled anew falls away. -/
def dropStaged (s : State) : State :=
  let s : State := { s with xch := { s.xch with staged := none }, ive := { s.ive with staged := none } }
  let s := ((s.setFld Fld.PROG_STAT_STAGED 0).setFld Fld.IVE_STAT_STAGED 0).setReg Reg.PROG_XSTAT
    (s.reg Reg.PROG_XSTAT &&& 0xFFF8FFFF)
  s.showXstat

/-- BEGIN: a transfer starts, and the slot it will fill is invalidated. -/
def updBegin (s : State) (u : UpdMsg) (kind len : Nat) : State :=
  match s.upd.xfer with
  | some t =>
    if t.xid = u.xid then ({ s with upd := { s.upd with xfer := some { t with heard := s.ticks } } } : State).updAck u 0 0
    else s.updAck u 1 0
  | none =>
    if kind = 0 ∨ 3 < kind then s.updAck u 3 0
    else
      let k := s.inactiveSlot kind
      if kind ≠ 3 ∧ slotSize k < len then s.updAck u 4 0
      else
        let slot := if kind = 3 then none else some k
        let s := if kind = 3 then s else s.setSlot k emptySlot
        let s := if kind = 2 ∧ s.xch.staged.isSome then s.dropStaged else s
        let s : State := { s with upd := { s.upd with xfer := some ⟨u.xid, kind, slot, len, u.session.toNat, s.ticks⟩, buf := [],
                                                      sprout := s.upd.sprout.filter (· != k) } }
        let s := ((s.setReg Reg.UPD_XID u.xid).setReg Reg.UPD_XOFF 0).setFld Fld.UPD_STAT_XFER 1
        s.updAck u 0 0

/-- The transfer is over. -/
def updEnd (s : State) : State :=
  ({ s with upd := { s.upd with xfer := none, buf := [] } } : State).setFld Fld.UPD_STAT_XFER 0

/-- Run a step of the transfer that a datagram names; there is none of that XID: ABORTED. -/
def inXfer (s : State) (u : UpdMsg) (body : Transfer → State → State) : State :=
  match s.upd.xfer with
  | some t =>
    if t.xid = u.xid then body t { s with upd := { s.upd with xfer := some { t with heard := s.ticks } } } else s.updAck u 7 0
  | none => s.updAck u 7 0

/-- DATA: taken at the next expected offset only. -/
def updData (s : State) (u : UpdMsg) (data : List Byte) (t : Transfer) : State :=
  let off := (s.reg Reg.UPD_XOFF).toNat
  if u.offset.toNat ≠ off then s.updAck u 5 0
  else if t.length < off + data.length then s.updAck u 4 0
  else
    let at_ := (List.range data.length).zip data
    let s : State := match t.slot with
      | some k => { s with mem := at_.foldl (fun m (x : Nat × Byte) => Store.set (fun _ => 0) m (slotBase k + off + x.1) x.2) s.mem }
      | none => { s with upd := { s.upd with buf := at_.foldl (fun m (x : Nat × Byte) => Store.set (fun _ => 0) m (off + x.1) x.2) s.upd.buf } }
    (s.setReg Reg.UPD_XOFF (w32 (off + data.length))).updAck u 0 0

/-! ### The checks of an image (R416) -/

/-- Byte `i` of the image of a transfer. -/
def imgByte (s : State) (t : Transfer) (i : Nat) : Byte := match t.slot with
  | some k => Store.get (fun _ => 0) s.mem (slotBase k + i)
  | none => Store.get (fun _ => 0) s.upd.buf i

/-- A header field of `n` bytes (R415). -/
def hdr (s : State) (t : Transfer) (i n : Nat) : Nat := leNat ((List.range n).map fun j => s.imgByte t (i + j))

/-- A key operation is well formed and permitted in the present life-cycle state (R410, R411). -/
def keyOpOk (s : State) : KeyOp → Bool
  | .sessionKey i k key => decide (i < 16 ∧ k < 2) && key.length = 16
  | .retire i k => decide (i < 16 ∧ k < 2)
  | .imageKey _ g key => decide (g < 256) && key.length = 32
  | .lifecycle l h => l = s.nv.lifecycle + 1 && decide (l ≤ 3) && (l != 1 || h.length = 32)
  | .bad => false

/-- A LIFECYCLE operation stands alone in its package. -/
def isLifecycle : KeyOp → Bool
  | .lifecycle _ _ => true
  | _ => false

/-- Every operation of a key package holds. -/
def keyOpsOk (s : State) (ops : List KeyOp) : Bool := ops.all s.keyOpOk && (!ops.any isLifecycle || ops.length = 1)

/-- Step 8's check of the content: the staging checks of a program, the operations of a key package. -/
def contentError (s : State) (kind : Nat) (c : ImageContent) : Bool := match kind, c with
  | 1, _ => false
  | 2, .program pr sound => (stagingError pr sound s.isTwin).isSome
  | 3, .keys ops => !s.keyOpsOk ops
  | _, _ => true

/-- The step of R416 that refuses the image, if any. -/
def imageError (s : State) (t : Transfer) (sigOk gtagOk : Bool) (c : ImageContent) : Option Nat :=
  let kind := s.hdr t 8 1
  let signer := s.hdr t 0x1E 1
  let want := if kind = 1 ∨ (kind = 3 ∧ s.nv.lifecycle = 0) then 0 else 1
  let key := (List.range 64).map fun i => s.imgByte t (0xC0 + i)
  let hash := if want = 0 then s.nv.moazalHash else s.nv.ownerHash.getD []
  let gen := s.hdr t 0x1D 1
  let held : Option ImageKey → Bool := fun k => match k with
    | some y => y.gen = gen
    | none => false
  if s.hdr t 0 4 ≠ 0x4F589100 ∨ s.hdr t 4 4 ≠ 1 ∨ s.hdr t 9 1 ≠ 9 ∨ kind ≠ t.kind ∨ s.hdr t 0x18 4 + 256 ≠ t.length ∨
      (kind = 2 ∧ s.hdr t 0x0B 1 % 4 ≠ s.fld Fld.SYS_STAT_STRAPS / 4) then some 1
  else if ownCompat < s.hdr t 0x0A 1 then some 2
  else if signer ≠ want ∨ sha256 key ≠ hash then some 3
  else if ¬ sigOk then some 4
  else if (kind = 1 ∧ s.hdr t 0x14 4 < s.nv.svnFw) ∨ (kind = 2 ∧ s.hdr t 0x14 4 < s.nv.svnPg) then some 5
  else if (s.hdr t 0x1C 1 = 0 ∧ ¬ held s.nv.fwKey) ∨ (s.hdr t 0x1C 1 = 1 ∧ ¬ held s.nv.pgKey) ∨
      (s.hdr t 0x1C 1 = 2 ∧ gen ≠ 0) ∨ 2 < s.hdr t 0x1C 1 then some 6
  else if ¬ gtagOk then some 7
  else if s.contentError kind c then some 8
  else none

/-! ### Key packages (R410, R411) -/

/-- Apply one operation of a key package. -/
def keyOp (s : State) : KeyOp → State
  | .sessionKey i k key => { s with nv := { s.nv with keys := Store.set (fun _ => []) s.nv.keys (2 * i + k) key } }
  | .retire i k =>
    let s : State := { s with nv := { s.nv with keys := Store.set (fun _ => []) s.nv.keys (2 * i + k) [] } }
    if s.fld (Fld.SESS_STATEs_KEY i) = k then s.closeSess i else s
  | .imageKey pg g key =>
    let s : State := if pg then { s with nv := { s.nv with pgKey := some ⟨g, key⟩ } } else { s with nv := { s.nv with fwKey := some ⟨g, key⟩ } }
    { s with nv := { s.nv with tamper := none } }
  | .lifecycle l h => { s with nv := { s.nv with lcNext := some (l, h) } }
  | .bad => s

/-! ### Storage and staging (R135, R142, R147, R420) -/

/-- A program image that is stored outside SPROUT is staged, unless a check of the exchange chapter refuses it. -/
def stageProgram (s : State) (pr : Program) : State :=
  if s.prog.isNone then s else
  match s.stagingRefusal pr with
  | some c => s.refuseProgram c 0 pr.imgId
  | none =>
    let s : State := { s with xch := { s.xch with staged := some pr } }
    s.showXstat

/-- R420: images stored in SPROUT become the active slots of their kinds once both kinds hold a VALID slot. -/
def sproutActive (s : State) : State :=
  let kind := fun (b : Nat) => (s.slot b).valid || (s.slot (b + 1)).valid
  if kind 0 ∧ kind 2 then s.upd.sprout.foldl (fun (s : State) k => if (s.slot k).valid then s.activate k else s) s else s

/-- An image that has passed R416 is stored: its slot is VALID. -/
def storeImage (s : State) (t : Transfer) (k : Nat) (c : ImageContent) : State :=
  let pr := match c with
    | .program pr _ => some pr
    | _ => none
  let x : SlotRec := ⟨true, false, false, 0, w32 (s.hdr t 0x0C 4), w32 (s.hdr t 0x10 4), s.hdr t 0x0A 1, s.hdr t 0x0B 1 % 4, s.hdr t 0x14 4,
    s.hdr t 0x18 4, s.hdr t 0x1D 1, pr, true⟩
  let s := (s.setSlot k x).raiseEvt Page.UPD Evt.UPD_STORED
  if s.opState = 1 then
    let s : State := { s with upd := { s.upd with sprout := s.upd.sprout.filter (· != k) ++ [k] } }
    s.sproutActive
  else match pr with
    | some pr => s.stageProgram pr
    | none => s

/-- A rejection or an aborted transfer is recorded in `UPD_REJECT`. -/
def updReject (s : State) (step status : Nat) : State :=
  (s.setReg Reg.UPD_REJECT (w32 (2 ^ 31 + step * 2 ^ 16 + status))).raiseEvt Page.UPD Evt.UPD_REJECTED

/-- END: the image is checked, and stored or applied. -/
def updFinish (s : State) (u : UpdMsg) (sigOk gtagOk : Bool) (c : ImageContent) (t : Transfer) : State :=
  if (s.reg Reg.UPD_XOFF).toNat ≠ t.length then s.updAck u 5 0 else
  match s.imageError t sigOk gtagOk c with
  | some step =>
    let s := match c with
      | .program pr sound => if step ≠ 8 then s else match stagingError pr sound s.isTwin with
        | some (code, d) => s.noteRefusal pr sound code d
        | none => s
      | _ => s
    let s := if t.kind = 3 then s.raiseEvt Page.SEC Evt.SEC_KEYREJ else s
    ((s.updReject step 6).updEnd).updAck u 6 step
  | none =>
    let s := match t.slot, c with
      | some k, _ => s.storeImage t k c
      | none, .keys ops => (ops.foldl keyOp s).raiseEvt Page.SEC Evt.SEC_KEYS
      | none, _ => s
    (s.updEnd).updAck u 0 0

/-- The payload of INFO_ACK: serial, life-cycle state, the four slot states, the SVN floors and the public device key. -/
def infoBytes (s : State) : List Byte :=
  wordBytes s.nv.serial ++ [BitVec.ofNat 8 s.nv.lifecycle] ++ (List.range 4).flatMap (fun k => wordBytes (s.slotWord k)) ++
    [BitVec.ofNat 8 s.nv.svnFw, BitVec.ofNat 8 s.nv.svnPg] ++ s.nv.devicePub

/-! ### Activation (R418, R419) -/

/-- An activation is scheduled for cycle `a`. -/
def schedule (s : State) (k : Nat) (a : Word) (time session : Nat) (num : Word) : State :=
  let s : State := { s with upd := { s.upd with sched := some ⟨k, a, time, session, num, 1, 0, s.ticks⟩ } }
  (s.setReg Reg.UPD_ACTCYC a).actPhase k 1

/-- The decision on an ACTIVATE request that arrived at `stamp` (R418), 0 for OK. -/
def activateCode (s : State) (slot time stamp : Nat) : Nat :=
  let x := s.slot slot
  let near := fun (c : Word) => s.within10s c (s.cycleAt time)
  let armed : Bool := match s.xch.armed with
    | some a => near a.x
    | none => false
  if time = 0 then (if s.upd.sched.isNone then 0x66 else 0)
  else if 4 ≤ slot ∨ ¬ x.valid then 0x60
  else if x.active then 0x61
  else if time < stamp + 2000000000 then 0x62
  else if s.upd.sched.isSome ∨ armed ∨ (s.flag Fld.TWIN_SWAP_ARMED ∧ near (s.reg Reg.TWIN_SWAPCYC)) ∨ s.xferring then 0x63
  else if s.isTwin ∧ (¬ s.linkUp ∨ ¬ s.partnerStandby ∨ ¬ Config.partnerHolds slot x.build s.ticks) then 0x64
  else if s.opState ≠ 5 then 0x65
  else 0

/-- An ACTIVATE request is decided on ordering. -/
def activateRequest (s : State) (session : Nat) (num : Word) (slot time stamp : Nat) : State :=
  let c := s.activateCode slot time stamp
  if c ≠ 0 then s.respond session num 0x0F 0 c
  else if time = 0 then ((s.endActivation 0).mirror (.sched 0 4)).respond session num 0 0 0
  else
    let a := s.cycleAt time
    ((s.schedule slot a time session num).mirror (.sched a slot)).respond session num 0 0 0

/-- The unit takes RESTART and starts from slot `k`: firmware on trial, a program as the active slot. -/
def restartFrom (s : State) (k ph : Nat) : State :=
  let s := s.actPhase k ph
  let s := if k < 2 then s.setSlot k { s.slot k with trial := true, strikes := 0 } else s.activate k
  let s : State := if k < 2 ∧ (ph = 4 ∨ ¬ s.isTwin) then { s with nv := { s.nv with actEnd := some k } } else s
  s.enterShutdown 3

/-- The unit masters its preferred used rings and its partner the others (R280). -/
def ringsShared (s : State) : Bool := [0, 1, 2, 3].all fun r =>
  !s.ringUsed r || (if s.prefers r then s.ringRole r = 5 else s.ringRole r = 6)

/-- R419: the former active unit takes RESTART at the boundary after it took STANDBY. -/
def activationBoundary (s : State) : State := match s.upd.sched with
  | some a =>
    if a.phase ≠ 3 ∨ s.role ≠ 3 then s
    else if a.count = 0 then { s with upd := { s.upd with sched := some { a with count := 1 } } }
    else s.restartFrom a.slot 4
  | none => s

end State

/-- UPDATE_BEGIN (R417). -/
def execUpdateBegin (u : UpdMsg) (kind : Byte) (length : Word) (s : State) : Host.Outcome State Fault Refusal :=
  s.updTake u 8 false false fun s => s.updBegin u kind.toNat length.toNat

/-- UPDATE_DATA (R417). -/
def execUpdateData (u : UpdMsg) (data : List Byte) (s : State) : Host.Outcome State Fault Refusal :=
  if 480 < data.length then .next (s.updDrop u)
  else s.updTake u data.length false false fun s => s.inXfer u fun t s => s.updData u data t

/-- UPDATE_END (R416, R417): what the image holds, and the outcomes of its signature and of its decryption, come with the command. -/
def execUpdateEnd (u : UpdMsg) (sigOk gtagOk : Bool) (content : ImageContent) (s : State) : Host.Outcome State Fault Refusal :=
  s.updTake u 0 false false fun s => s.inXfer u fun t s => s.updFinish u sigOk gtagOk content t

/-- UPDATE_ABORT (R417). -/
def execUpdateAbort (u : UpdMsg) (s : State) : Host.Outcome State Fault Refusal :=
  s.updTake u 0 false false fun s => s.inXfer u fun _ s => (s.updEnd).updAck u 7 0

/-- UPDATE_QUERY (R417). -/
def execUpdateQuery (u : UpdMsg) (s : State) : Host.Outcome State Fault Refusal :=
  s.updTake u 0 false false fun s => s.inXfer u fun _ s => s.updAck u 0 0

/-- UPDATE_INFO (R417). -/
def execUpdateInfo (u : UpdMsg) (s : State) : Host.Outcome State Fault Refusal :=
  s.updTake u 0 false true fun s => s.updReply u 0x86 s.infoBytes

/-- UPDATE_REBOOT (R417, R420): SPROUT only. -/
def execUpdateReboot (u : UpdMsg) (s : State) : Host.Outcome State Fault Refusal :=
  s.updTake u 0 true false fun s => s.reboot 6

/-- UPDATE_TIMEOUT (R417): a transfer without a datagram for 30 s ends as ABORTED. -/
def execUpdateTimeout (s : State) : Host.Outcome State Fault Refusal :=
  match s.upd.xfer with
  | none => .next s
  | some t => .next (if s.ticks < t.heard + 750000000 then s else (s.updReject 0 7).updEnd)

/-- SCHED (R29, R282, R418): the partner follows the schedule of an activation; the kind is the slot, or 4 for none. -/
def execSched (h : TwinHdr) (cycle : Word) (kind : Nat) (s : State) : Host.Outcome State Fault Refusal :=
  .next <| s.twinRx h (.sched cycle kind) 0 fun s =>
    if s.isActive then s
    else if kind < 4 then s.schedule kind cycle 0 0 0
    else s.endActivation 0

/-- ACTIVATION_CYCLE (R419): the scheduled cycle A has begun. -/
def execActivationCycle (s : State) : Host.Outcome State Fault Refusal :=
  match s.upd.sched with
  | none => .next s
  | some a =>
    if a.phase ≠ 1 ∨ a.cycle ≠ s.vcyc ∨ ¬ s.isRun then .next s
    else if 2 ≤ a.slot ∨ ¬ s.isTwin ∨ s.role = 3 then .next (s.restartFrom a.slot 2)
    else if s.isActive then
      .next (({ s with upd := { s.upd with sched := some { a with phase := 2, count := 0, since := s.ticks } } } : State).actPhase a.slot 2)
    else .next s

/-- ACTIVATION_SWAP (R419): the restarted unit has been STANDBY for 100 cycles and masters its rings again; the active unit arms the
swap for the tenth following boundary. -/
def execActivationSwap (s : State) : Host.Outcome State Fault Refusal :=
  match s.upd.sched with
  | none => .next s
  | some a =>
    if a.phase ≠ 2 ∨ ¬ s.isActive ∨ s.twin.standbyRun < 100 ∨ ¬ s.ringsShared then .next s else
    let x := s.vcyc + 10
    let c := s.swapCode x true
    if c ≠ 0 then .next ((s.swapRefuse c).endActivation 6)
    else
      let s : State := { s with upd := { s.upd with sched := some { a with phase := 3, count := 0, since := s.ticks } } }
      .next ((s.swapArmAt 0 0 x true).actPhase a.slot 3)

/-- TRIAL_TIMEOUT (R419): 120 s have passed: a unit on trial that has not confirmed is reset, and the unit that waits for its partner
stops the sequence. -/
def execTrialTimeout (s : State) : Host.Outcome State Fault Refusal :=
  let long := 3000000000
  if s.opState = 0 then .next s
  else if s.trialSlot.isSome then .next (if s.boot.released + long ≤ s.ticks then s.reboot 5 else s)
  else match s.upd.sched with
    | some a => .next (if a.phase = 2 ∧ s.isActive ∧ ¬ s.partnerStandby ∧ a.since + long ≤ s.ticks then s.endActivation 6 else s)
    | none => .next s

end Sys2Proof.Machine
end

