-- ==== Sys2Proof/Machine/HostOps.lean ====
section
/-! DEFINITION. OHP messages (R304 to R307, R311): their bytes and their MAC, the replies, and the rows of R312 that decide an enveloped
message. -/

namespace Sys2Proof.Machine

/-! ### Bytes -/

/-- The 24 bytes of a host message's header (R305). -/
def ohpHeader (m : OhpMsg) (type : Byte) : List Byte :=
  leBytes 2 m.magic.toNat ++ [m.ver, type, m.session, m.flags] ++ leBytes 2 m.len.toNat ++ wordBytes m.sseq ++ wordBytes m.sepoch ++
    wordBytes m.tag ++ [m.status, m.unit] ++ leBytes 2 m.detail.toNat

/-- The 24 bytes of a module message's header. -/
def outHeader (o : OhpOut) : List Byte :=
  leBytes 2 0x4F48 ++ [1, o.type, BitVec.ofNat 8 o.session, BitVec.ofNat 8 (2 + b2n o.env.isSome)] ++ leBytes 2 o.payload.length ++
    wordBytes o.sseq ++ wordBytes o.sepoch ++ wordBytes o.tag ++ [o.status, o.unit] ++ leBytes 2 o.detail.toNat

/-- Bytes 0 to 23 of an envelope (R311). -/
def envBytes (e : Envelope) : List Byte :=
  [e.ever, e.keyid] ++ leBytes 2 e.rsv.toNat ++ wordBytes e.sender ++ leBytes 8 e.tsend.toNat ++ wordBytes e.ackseq ++ wordBytes e.rsv20

/-- The MAC of R311. -/
def ohpMac (key : List Byte) (domain : Word) (header payload : List Byte) (e : Envelope) : BitVec 64 :=
  BitVec.ofNat 64 (leNat ((aesCmac key (wordBytes domain ++ header ++ payload ++ envBytes e)).take 8))

/-- The payload of a vital request (R306). -/
def reqPayload (rsv : Word) : HostReq → List Byte
  | .opening nonce => leBytes 8 nonce.toNat
  | .closing => []
  | .request kind ps => [kind, BitVec.ofNat 8 ps.length] ++ leBytes 2 rsv.toNat ++ wordsBytes ps

/-- The message type of a vital request. -/
def reqType : HostReq → Byte
  | .opening _ => 0x01
  | .closing => 0x03
  | .request _ _ => 0x20

/-- The type of the reply to a message (R306, R452). -/
def replyType (type : Byte) : Byte :=
  if type = 0x01 then 0x02
  else if type = 0x10 ∨ type = 0x12 then 0x13
  else if type = 0x20 then 0x21
  else if type = 0x30 ∨ type = 0x31 then 0x32
  else if type = 0x40 then 0x41
  else 0x04

/-- The session that a message names. -/
def sessionOf (m : OhpMsg) : Nat := m.session.toNat % 16

/-- A header field, a reserved byte or a length is not as R305 and R306 give it; `need` marks a message that requires an envelope. -/
def headerBad (m : OhpMsg) (payload : List Byte) (need : Bool) : Bool :=
  15 < m.session.toNat || m.flags.toNat != b2n m.env.isSome || m.len.toNat != payload.length || !m.tail.isEmpty || m.rsv != 0 ||
    m.status != 0 || m.unit != 0 || m.detail != 0 || (need && m.env.isNone)

namespace State

/-- The key in slot `k` of session `i`; none where it is empty or retired (R409, R411). -/
def sessionKey (s : State) (i k : Nat) : List Byte := Store.get (fun _ => []) s.nv.keys (2 * i + k)

/-- The sender identity configured for session `i` (R308). -/
def senderOf (s : State) (i : Nat) : Option Word := match s.prog with
  | none => none
  | some pr => (pr.sessions.find? fun d => d.session = i).map SessionDef.sender

/-! ### Replies (R304 to R307, R311) -/

/-- The envelope of a module message under key slot `k` of its session. -/
def sealReply (s : State) (o : OhpOut) (k : Nat) : OhpOut :=
  let e : Envelope := ⟨1, BitVec.ofNat 8 k, 0, s.nv.serial, BitVec.ofNat 64 s.now, (s.session o.session).lastSseq, 0, 0⟩
  let o := { o with env := some e }
  { o with env := some { e with mac := ohpMac (s.sessionKey o.session k) (s.reg Reg.SESS_DOMAIN) (outHeader o) o.payload e } }

/-- A module message to session `i`: it gets the next SSEQ of its direction, and an envelope if `key` names a slot that holds a key. -/
def makeReply (s : State) (o : OhpOut) (key : Option Nat) : State × OhpOut :=
  let x := s.session o.session
  let s := s.setSession o.session { x with txSeq := x.txSeq + 1 }
  let o := { o with sseq := x.txSeq + 1, sepoch := s.reg (Reg.SESS_EPOCHs o.session), env := none }
  match key with
  | some k => if (s.sessionKey o.session k).isEmpty then (s, o) else (s, s.sealReply o k)
  | none => (s, o)

/-- A message leaves: by its port, or back to the unit that forwarded what it answers (R288). -/
def sendOhp (s : State) (fwd : Bool) (o : OhpOut) : State :=
  if fwd then s.twinSend (.fwd (.response o))
  else
    let s := s.resolve o.port o.dst
    { s with out := .ohp o :: s.out }

/-- The key slot that a message names. -/
def keySlot (m : OhpMsg) : Option Nat := m.env.map fun e => e.keyid.toNat % 2

/-- Answer a message with a status, a detail and a payload; the reply is kept for a repetition of the message (R312). -/
def answer (s : State) (m : OhpMsg) (type : Byte) (fwd : Bool) (code : Nat) (detail : Nat) (payload : List Byte) : State :=
  let i := sessionOf m
  let p : Peer := match fwd, (s.session i).peer with
    | false, some p => p
    | _, _ => ⟨m.port, m.src, m.srcPort⟩
  let (s, o) := s.makeReply ⟨p.port, p.addr, p.udp, replyType type, i, 0, 0, m.tag, BitVec.ofNat 8 code, s.unitByte,
    BitVec.ofNat 16 detail, payload, none⟩ (keySlot m)
  let x := s.session i
  let s := if m.env.isNone then s else
    s.setSession i { x with accepted := x.accepted.map fun a => if a.sseq = m.sseq then { a with reply := some o } else a }
  s.sendOhp fwd o

/-- A refusal: no payload, but for the station time of a KEEP. -/
def refuseOhp (s : State) (m : OhpMsg) (type : Byte) (fwd : Bool) (code : Nat) : State :=
  s.answer m type fwd code 0 (if replyType type = 0x04 then leBytes 8 s.now else [])

/-- A datagram is discarded and counted (R303, R304). -/
def dropOhp (s : State) (port : Fin 2) : State :=
  ((s.addSat (Fld.HSTx_DROP_DROP port) 1).raiseEvt (Page.HST port) Evt.HST_DROP).podCount 53 1

/-! ### The rows of R312 -/

/-- An envelope outcome that is recorded (R312). -/
def noteEnvelope (s : State) (i code : Nat) (sseq : Word) : State := s.raiseRec 0x0702 Page.SESS (w32 i) [w32 code, sseq]

/-- BAD_MAC: the sixteenth within 60 s blocks the session. -/
def badMac (s : State) (m : OhpMsg) : State :=
  let i := sessionOf m
  let s := ((s.addSat (Fld.SESS_ERRs_BADMAC i) 1).raiseEvt Page.SESS Evt.SESS_BADMAC).noteEnvelope i 7 m.sseq
  let x := s.session i
  let times := s.now :: x.badMac.filter fun t => s.now < t + 60000000000
  if times.length < 16 then s.setSession i { x with badMac := times }
  else ((s.setSession i { x with badMac := [], blockedAt := some s.now }).setFld (Fld.SESS_STATEs_BLOCKED i) 1).raiseEvt
    Page.SESS Evt.SESS_BLOCKED

/-- UNTIMELY. -/
def untimely (s : State) (m : OhpMsg) : State :=
  let i := sessionOf m
  ((s.addSat (Fld.SESS_ERRs_UNTIMELY i) 1).raiseEvt Page.SESS Evt.SESS_UNTIMELY).noteEnvelope i 8 m.sseq

/-- The envelope fails the row of BAD_FORMAT. -/
def envelopeBad (s : State) (i : Nat) (e : Envelope) : Bool :=
  e.ever != 1 || decide (1 < e.keyid.toNat) || (s.sessionKey i e.keyid.toNat).isEmpty || e.rsv != 0 || e.rsv20 != 0

/-- The envelope carries the configured sender and the MAC that its key gives. -/
def macHolds (s : State) (m : OhpMsg) (type : Byte) (payload : List Byte) (e : Envelope) : Bool :=
  let i := sessionOf m
  s.senderOf i = some e.sender &&
    e.mac = ohpMac (s.sessionKey i e.keyid.toNat) (s.reg Reg.SESS_DOMAIN) (ohpHeader m type) payload e

/-- TSEND lies within the session's window of station time, which is set. -/
def timely (s : State) (i : Nat) (e : Envelope) : Bool :=
  s.flag Fld.TIME_STAT_SET &&
    decide (((e.tsend.toNat : Int) - s.now).natAbs ≤ s.fld (Fld.SESS_CFGs_TOL i) * 10000000)

/-- R404: while station time is not set, TSEND of a message that would pass BAD_MAC, from a session that holds TIME, sets it. -/
def adopt (s : State) (m : OhpMsg) (type : Byte) (payload : List Byte) (bad : Bool) : State := match m.env with
  | none => s
  | some e =>
    let i := sessionOf m
    if s.flag Fld.TIME_STAT_SET ∨ ¬ s.permits i 7 ∨ bad ∨ s.envelopeBad i e ∨ ¬ s.macHolds m type payload e ∨
        e.tsend.toNat < s.nv.timeFloor then s
    else s.adoptTime e.tsend.toNat

/-- The session takes no message from this source (R304, R312). -/
def shutOut (s : State) (m : OhpMsg) : Bool :=
  let i := sessionOf m
  !s.flag (Fld.SESS_CFGs_EN i) || s.flag (Fld.SESS_STATEs_BLOCKED i) || !s.peerOf i m.src

/-- The host port passes frames: its link is up, and service firmware runs a program's hosts. -/
def portUp (s : State) (x : Fin 2) : Bool :=
  s.flag (Fld.HSTx_STAT_LINK x) && !([0, 1, 9].contains s.opState)

/-- Decide a message by the rows of R304 and R312 up to UNTIMELY; `need` says that it requires an envelope, and
`bad` that its payload is malformed. What the session makes of a message that passes is `body`. -/
def receive (s : State) (m : OhpMsg) (type : Byte) (payload : List Byte) (need bad : Bool) (body : State → State) : State :=
  if ¬ s.portUp m.port then s
  else if m.magic ≠ 0x4F48 ∨ m.ver ≠ 1 ∨ s.shutOut m then s.dropOhp m.port
  else
    let bad := bad || headerBad m payload need
    let s := ((s.addSat (Fld.HSTx_RXCNT_RXCNT m.port) 1).podCount 52 1).adopt m type payload bad
    if bad then s.refuseOhp m type false 0x0B
    else match m.env with
    | none => body s
    | some e =>
      let i := sessionOf m
      if s.envelopeBad i e then s.refuseOhp m type false 0x0B
      else if ¬ s.macHolds m type payload e then (s.badMac m).refuseOhp m type false 7
      else if ¬ s.timely i e then (s.untimely m).refuseOhp m type false 8
      else body s

/-- The session is open under the epoch that a message names. -/
def current (s : State) (m : OhpMsg) : Bool :=
  s.isOpen (sessionOf m) && m.sepoch = s.reg (Reg.SESS_EPOCHs (sessionOf m))

/-- A message is accepted: it keeps the session alive, and replies go where it came from (R304, R310). -/
def hear (s : State) (m : OhpMsg) : State :=
  let i := sessionOf m
  let s := s.setSession i { s.session i with lastHeard := s.now, peer := some ⟨m.port, m.src, m.srcPort⟩ }
  match keySlot m with
  | some k => s.setFld (Fld.SESS_STATEs_KEY i) k
  | none => s

/-- Repeat the reply to an accepted message with STATUS DUPLICATE (R307). -/
def repeatReply (s : State) (m : OhpMsg) (fwd : Bool) (o : OhpOut) : State :=
  let o := { o with status := 2, detail := BitVec.ofNat 16 (o.status.toNat * 256 + o.detail.toNat % 256) }
  let (s, o) := s.makeReply o (keySlot m)
  s.sendOhp fwd o

/-- REPLAY and OLD_SEQ. -/
def staleSeq (s : State) (m : OhpMsg) (type : Byte) (fwd : Bool) (code : Nat) : State :=
  let i := sessionOf m
  let s := (s.addSat (Fld.SESS_ERRs_REPLAY i) 1).raiseEvt Page.SESS Evt.SESS_REPLAY
  let s := if code = 0x0A then s.noteEnvelope i code m.sseq else s
  s.refuseOhp m type fwd code

/-- The acceptance window takes SSEQ with its MAC, and keeps the last 64 positions. -/
def takeSeq (s : State) (i : Nat) (sseq : Word) (mac : BitVec 64) : State :=
  let hi := (s.reg (Reg.SESS_SEQs i)).toNat
  let n := sseq.toNat
  let top := Nat.max hi n
  let s := if n ≤ hi + 1 then s
    else (s.addSat (Fld.SESS_ERRs_GAPS i) (n - hi - 1)).raiseEvt Page.SESS Evt.SESS_GAP
  let x := s.session i
  let keep := x.accepted.filter fun a => decide (top < a.sseq.toNat + 64)
  (s.setReg (Reg.SESS_SEQs i) (w32 top)).setSession i { x with accepted := keep ++ [⟨sseq, mac, none⟩], lastSseq := sseq }

/-- The partner learns of a message that has been taken, with its reply (R310). -/
def shareTaken (s : State) (i : Nat) (sseq : Option Word) : State :=
  s.shareSession i (sseq.bind fun q => (s.session i).accepted.find? fun a => a.sseq = q) none

/-- The unit applies every row of R312: it is ACTIVE, or alone. -/
def decides (s : State) : Bool := !s.isTwin || s.isActive

/-- The rows of R312 from NO_SESSION on, for a message that is not an OPEN; a plain message has no SSEQ to decide. A unit that is not
active applies none of them to an enveloped message. -/
def acceptance (s : State) (m : OhpMsg) (type : Byte) (fwd : Bool) (body : State → State) : State :=
  if m.env.isSome ∧ ¬ s.decides then body (s.hear m)
  else if ¬ s.current m then s.refuseOhp m type fwd 5
  else match m.env with
  | none => (body (s.hear m)).shareTaken (sessionOf m) none
  | some e =>
    let i := sessionOf m
    match (s.session i).accepted.find? fun a => a.sseq = m.sseq with
    | some a =>
      if a.mac ≠ e.mac then s.staleSeq m type fwd 0x0A
      else match a.reply with
        | some o => s.repeatReply m fwd o
        | none => s
    | none =>
      if m.sseq.toNat + 64 ≤ (s.reg (Reg.SESS_SEQs i)).toNat then s.staleSeq m type fwd 9
      else (body ((s.takeSeq i m.sseq e.mac).hear m)).shareTaken i (some m.sseq)

end State

end Sys2Proof.Machine
end

