-- ==== Sys2Proof/Machine/Power.lean ====
section
/-! DEFINITION. Supply, external reset, tamper, straps, wake sources, the lock-out reset key, and the clock and rail monitors (R9, R57,
R64 to R67, R220 to R222, R389, R408, R412, R436 to R438). -/

namespace Sys2Proof.Machine

namespace State

/-! ### The feeds (R436, R437) -/

/-- How feed A or B is judged. -/
def feed (s : State) (b : Bool) : Nat := if b then s.pins.feedB else s.pins.feedA

/-- Judge a feed anew. -/
def setFeed (s : State) (b : Bool) (v : Nat) : State :=
  let s : State := { s with pins := if b then { s.pins with feedB := v } else { s.pins with feedA := v } }
  if s.opState = 0 then s else s.raiseEvt Page.PWR Evt.PWR_FEED

/-- Both feeds have failed. -/
def noFeed (s : State) : Bool := s.pins.feedA != 0 && s.pins.feedB != 0

/-- Supply loss is declared (R437): the pump and VRD stop, and no further ring frame is launched.  In OFF nothing is left to carry;
the module may leave OFF once supply returns (R389). -/
def supplyLoss (s : State) : State :=
  if s.opState = 0 then { s with boot := { s.boot with stay := false } }
  else if s.boot.holdup.isSome then s
  else
    let s : State := { s.stopKernel.cutEnergy with boot := { s.boot with holdup := some s.ticks, sleep := none } }
    s.raiseEvt Page.PWR Evt.PWR_HOLDUP

/-- A feed fails for a reason: 1 undervoltage, 2 overvoltage. -/
def failFeed (s : State) (b : Bool) (v : Nat) : State :=
  let s := s.setFeed b v
  if s.noFeed then s.supplyLoss else s

end State

/-- FEED_FAIL (R436): below 8.5 V for 100 µs. -/
def execFeedFail (feedB : Bool) (s : State) : Host.Outcome State Fault Refusal :=
  if s.feed feedB ≠ 0 then .next s else .next (s.failFeed feedB 1)

/-- FEED_OVERVOLTAGE (R436): above 62 V for more than 1 s; the feed is disconnected. -/
def execFeedOvervoltage (feedB : Bool) (s : State) : Host.Outcome State Fault Refusal :=
  if s.feed feedB = 2 then .next s else .next (s.failFeed feedB 2)

/-- FEED_RETURN (R436): a failed feed above 9.0 V for 10 ms. -/
def execFeedReturn (feedB : Bool) (s : State) : Host.Outcome State Fault Refusal :=
  if s.feed feedB = 1 then .next (s.setFeed feedB 0) else .next s

/-- FEED_RECONNECT (R436): a disconnected feed below 60 V for 10 ms. -/
def execFeedReconnect (feedB : Bool) (s : State) : Host.Outcome State Fault Refusal :=
  if s.feed feedB = 2 then .next (s.setFeed feedB 0) else .next s

/-- HOLDUP_SEQUENCE_END (R437): the journal and the recorder have been flushed, station time and the floor saved: OFF. -/
def execHoldupSequenceEnd (s : State) : Host.Outcome State Fault Refusal :=
  match s.boot.holdup with
  | none => .next s
  | some t =>
    let s := s.setFld Fld.PWR_HOLD_LAST_MS (Nat.min ((s.ticks - t) * 40 / 1000000) 65535)
    .next (s.flushRecorder.goOff false)

/-- HOLDUP_CHARGED (R438). -/
def execHoldupCharged (s : State) : Host.Outcome State Fault Refusal :=
  if s.opState = 0 then .next s else .next (s.setFld Fld.PWR_HOLD_READY 1)

/-- EXTERNAL_RESET (R389, R220): nRST_A and nRST_B asserted as `a` and `b` say. Both reset the module, out of plain SAFE by row 4 of
R220; one alone only sets RSTDISC. -/
def execExternalReset (a b : Bool) (s : State) : Host.Outcome State Fault Refusal :=
  if a ∧ b then
    let s : State := if s.opState = 7 then { s with nv := { s.nv with leave := some (4, true) } } else s
    .next (s.reboot 2)
  else if (a ∨ b) ∧ s.opState ≠ 0 then .next (s.raiseEvt Page.SYS Evt.SYS_RSTDISC)
  else .next s

/-- STRAP_CHANGE (R9): recorded while the module runs; it takes effect at the next START. -/
def execStrapChange (straps : BitVec 4) (s : State) : Host.Outcome State Fault Refusal :=
  let same := s.pins.straps = straps.toNat
  let s : State := { s with pins := { s.pins with straps := straps.toNat } }
  if same ∨ s.opState = 0 ∨ s.opState = 9 then .next s else
  .next ((s.raiseRec 0x0805 Page.SYS (w32 straps.toNat) [w32 (s.fld Fld.SYS_STAT_STRAPS)]).raiseEvt Page.SYS Evt.SYS_STRAPCHG)

/-- TAMPER (R412): the secure bank is wiped and the latch set, every session closes, and a seal is void. -/
def execTamper (mesh : Bool) (s : State) : Host.Outcome State Fault Refusal :=
  let c := if mesh then 2 else 1
  let s : State := { s.wipe with nv := { s.wipe.nv with
    tamper := some (c, s.now), tamperDue := true, sealed := s.nv.sealed.map fun x => { x with tampered := true } } }
  if s.opState = 0 ∨ s.opState = 9 then .next s else
  let s := ((s.setReg Reg.SEC_TAMPER (w32 (2 ^ 31 + c))).setReg Reg.SEC_TAMPTLO (w32 s.now)).setReg Reg.SEC_TAMPTHI (w32 (s.now / 2 ^ 32))
  .next ((s.closeAll.tamperRecord).raiseEvt Page.SEC Evt.SEC_TAMPER)

/-! ### Wake sources (R408) -/

/-- WAKE_INPUT (R408): the WAKE input has been active for 10 ms, or has become inactive. -/
def execWakeInput (active : Bool) (s : State) : Host.Outcome State Fault Refusal :=
  let s : State := { s with pins := { s.pins with wake := active } }
  .next (if active then s.wakeUp 0 0 else s)

/-- TIME_ALARM (R408): station time reaches a time alarm that is not 0. -/
def execTimeAlarm (s : State) : Host.Outcome State Fault Refusal :=
  let t := (s.reg Reg.TIME_ALARMHI).toNat * 2 ^ 32 + (s.reg Reg.TIME_ALARMLO).toNat
  if t = 0 ∨ s.now < t ∨ s.opState = 0 then .next s
  else .next ((s.raiseEvt Page.TIME Evt.TIME_ALARM).wakeUp 2 0)

/-! ### Leaving SAFE (R220 to R222) -/

namespace State

/-- The cause that arose in the present tick. -/
def causeNow (s : State) : Option (Nat × Nat × Bool) := (s.boot.lastCause.filter fun c => c.1 = s.ticks).map Prod.snd

/-- SAFE or SAFE_LOCKOUT is left by a row of R220: START follows through reset, and the fact is kept in MRAM. With a new cause in the same
tick plain SAFE stays; a cause that comes after the exit in its tick, or with the operation that ends SAFE_LOCKOUT, takes effect in START
(R222, log entry 73). -/
def leaveSafe (s : State) (row : Nat) : State :=
  if s.opState = 7 ∧ s.causeNow.isSome then s else
  let t := ({ s with nv := { s.nv with leave := some (row, false) } } : State).reboot 3
  { t with boot := { t.boot with leftAt := some s.ticks, again := s.causeNow } }

/-- A function in lock-out whose inputs show no demand and have no fault is reset (R222). -/
def sfbRelease (s : State) (f : Nat) : State :=
  let ca := s.fld (Fld.SFB_CFGf_CHA f)
  let cb := s.fld (Fld.SFB_CFGf_CHB f)
  let faulty := fun (c : Nat) => bit s.sfb.testBad c || Store.get (fun _ => 0) s.fio.tpFault c != 0
  if ¬ s.flag (Fld.SFB_STATf_LOCKED f) ∨ s.shows f false ∨ s.shows f true ∨ faulty ca ∨ faulty cb then s else
  let s := ((s.setFld (Fld.SFB_STATf_LOCKED f) 0).setFld (Fld.SFB_STATf_FAULT f) 0).setFld (Fld.SFB_STATf_FCAUSE f) 0
  let s : State := { s with sfb := { s.sfb with wait := putBit s.sfb.wait f false } }
  s.showSfb.raiseEvt Page.SFB Evt.SFB_RESET

/-- A valid LOR operation (R222). -/
def lorValid (s : State) : State :=
  let s := ((s.setFld Fld.SFB_LOR_LAST 1).addSat Fld.SFB_LOR_COUNT 1).raiseEvt Page.SFB Evt.SFB_LOR_OK
  let s := (List.range 8).foldl (fun (s : State) f => s.sfbRelease f) s
  let s := ({ s with nv := { s.nv with safeTimes := [] } } : State).setFld Fld.OUT_SAFECNT_WIN 0
  if s.opState = 8 then
    let s : State := { s with nv := { s.nv with lockout := none } }
    (s.raiseRec 0x0302 Page.SFB 0 [s.reg Reg.SFB_LOR]).leaveSafe 2
  else if s.opState = 7 then s.leaveSafe 2
  else s

/-- The place in R221's list of the condition that a code of `SFB_LOR.LAST` names. -/
def lorRank (code : Nat) : Nat := if code = 6 then 1 else code

/-- The sequence is void by a code of `SFB_LOR.LAST` (R221): it is judged again once both channels are inactive. -/
def lorVoid (s : State) (code : Nat) : State :=
  let ph := if s.lor.levelA ∨ s.lor.levelB then 4 else 0
  let s := ({ s with lor := { s.lor with phase := ph, voidAt := some s.ticks } } : State).setFld Fld.SFB_LOR_LAST code
  (s.raiseRec 0x0307 Page.SFB 0 [s.reg Reg.SFB_LOR]).raiseEvt Page.SFB Evt.SFB_LOR_VOID

/-- A condition is found broken in the tick in which the sequence has become void: the one earlier in the list stands (R221). -/
def lorTie (s : State) (code : Nat) : State :=
  if s.lor.voidAt = some s.ticks ∧ lorRank code < lorRank (s.fld Fld.SFB_LOR_LAST) then s.setFld Fld.SFB_LOR_LAST code else s

/-- A channel becomes active; `l` is the key as it stood before. A sequence begins only while the other channel is inactive too. -/
def lorActive (s : State) (l : Lor) (t : Nat) : State :=
  match l.phase with
  | 0 =>
    if ¬ l.levelA ∧ ¬ l.levelB ∧ l.changedA + 1000000000 ≤ t ∧ l.changedB + 1000000000 ≤ t then
      ({ s with lor := { s.lor with phase := 1, onset := t } } : State).setFld Fld.SFB_LOR_STUCK 0
    else s.lorVoid 6
  | 1 => if t ≤ l.onset + 500000000 then { s with lor := { s.lor with phase := 2, both := t } } else s.lorVoid 2
  | 3 => s.lorVoid 5
  | _ => s

/-- A channel becomes inactive. -/
def lorInactive (s : State) (l : Lor) (t : Nat) : State :=
  match l.phase with
  | 1 => s.lorVoid 3
  | 2 => if l.both + 200000000 ≤ t then { s with lor := { s.lor with phase := 3, release := t } } else s.lorVoid 3
  | 3 =>
    if t ≤ l.release + 500000000 then ({ s with lor := { s.lor with phase := 0 } } : State).lorValid
    else s.lorVoid 5
  | _ => if s.lor.levelA ∨ s.lor.levelB then s else { s with lor := { s.lor with phase := 0 } }

end State

/-- LOR_CHANNEL_EDGE (R221): LOR_A or LOR_B becomes active or inactive. The key is judged wherever the kernel has supply. -/
def execLorChannelEdge (chB active : Bool) (s : State) : Host.Outcome State Fault Refusal :=
  let l := s.lor
  if (if chB then l.levelB else l.levelA) = active then .next s else
  let t := 40 * s.ticks
  let l' := if chB then { l with levelB := active, changedB := t } else { l with levelA := active, changedA := t }
  let s : State := { s with lor := l' }
  if s.opState = 0 ∨ s.opState = 9 then .next s
  else .next (if active then s.lorActive l t else s.lorInactive l t)

/-- LOR_STUCK (R221): a channel has been active for more than 10 s. -/
def execLorStuck (chB : Bool) (s : State) : Host.Outcome State Fault Refusal :=
  if ¬ (if chB then s.lor.levelB else s.lor.levelA) ∨ s.opState = 0 ∨ s.opState = 9 ∨
      40 * s.ticks ≤ (if chB then s.lor.changedB else s.lor.changedA) + 10000000000 then .next s else
  let judged := s.lor.phase = 1 ∨ s.lor.phase = 2 ∨ s.lor.phase = 3
  let s := s.setFld Fld.SFB_LOR_STUCK 1
  .next (if judged then s.lorVoid 4 else s.lorTie 4)

/-- LOR_PAIR_TIMEOUT (R221): the other channel has not followed within 0.5 s. -/
def execLorPairTimeout (s : State) : Host.Outcome State Fault Refusal :=
  if s.opState = 0 ∨ s.opState = 9 then .next s else
  match s.lor.phase with
  | 1 => .next (if 40 * s.ticks ≤ s.lor.onset + 500000000 then s else s.lorVoid 2)
  | 3 => .next (if 40 * s.ticks ≤ s.lor.release + 500000000 then s else s.lorVoid 5)
  | _ => .next s

/-- SAFE_AUTO_RESTART (R220): HOLD seconds since entry to plain SAFE. -/
def execSafeAutoRestart (s : State) : Host.Outcome State Fault Refusal :=
  let held := s.boot.safeAt + s.fld Fld.OUT_SAFECFG_HOLD * 25000000
  .next (if s.opState = 7 ∧ s.flag Fld.OUT_SAFECFG_AUTO ∧ held ≤ s.ticks then s.leaveSafe 5 else s)

/-! ### Clock and rail monitors (R57, R64 to R67) -/

namespace State

/-- States in which a condition of the kernel's monitors is a SAFE cause; in BIST and SHUTDOWN_BIST it is an outcome of the slice under
test (R389). -/
def monitored (s : State) : Bool := [2, 4, 5, 6, 7, 8].contains s.opState

end State

/-- TIMEBASE_WINDOW_END (R64, R67): the checker counted `count` cycles of oscillator B in 2^20 ticks of A. A difference outside 16 bits
shows as the nearest value that DIFF can hold, and WORST as 32,767 at most: R64 gives no value there (DESIGN CHOICE, log entry 68). -/
def execTimebaseWindowEnd (count : Nat) (s : State) : Host.Outcome State Fault Refusal :=
  if ¬ s.monitored then .next s else
  let d : Int := (count : Int) - 1048576
  let s := (s.setFld Fld.TIME_TBCHK_DIFF (BitVec.ofInt 16 (if d < -32768 then -32768 else if 32767 < d then 32767 else d)).toNat).setFld
    Fld.TIME_TBCHK_VALID 1
  let s := s.raiseMax Fld.TIME_TBWORST_WORST (Nat.min d.natAbs 32767)
  if 53 ≤ d.natAbs then .next (({ s with boot := { s.boot with windows := 0 } } : State).timebaseFault)
  else .next { s with boot := { s.boot with windows := s.boot.windows + 1 } }

/-- OSCILLATOR_STOPPED (R65): oscillator A or B shows no edge for 2 µs. -/
def execOscillatorStopped (_b : Bool) (s : State) : Host.Outcome State Fault Refusal :=
  if ¬ s.monitored then .next s else
  .next s.timebaseFault

/-- CORE_RAIL_OUT_OF_WINDOW (R57): below 0.78 V or above 1.02 V for more than 10 µs, a kernel fault with SAFE cause 5. -/
def execCoreRailOutOfWindow (_high : Bool) (s : State) : Host.Outcome State Fault Refusal :=
  if ¬ s.monitored then .next s else .next (s.enterSafe 5 0 false)

end Sys2Proof.Machine
end

