-- ==== Sys2Proof/Machine/Requests.lean ====
section
/-! DEFINITION. Vital requests (R310, R313 to R317, R453): what the ordering unit refuses, the number and the stamp, the journal and the
partner's ORDER record, and what is decided on ordering. -/

namespace Sys2Proof.Machine

/-- A program kind (R314). -/
def programKind (kind : Byte) : Bool := kind.toNat < 0x10

/-- A kind that enters an image (R317): a program kind, FORCE, RESTRICT_END or RVWRITE. -/
def imageKind (kind : Byte) : Bool := programKind kind || kind = 0x81 || kind = 0x86 || kind = 0x87

/-- A kind of R314 that a REQUEST can name, with an op that its parameters define; no more than 7 parameter words (R306). -/
def kindKnown (kind : Byte) (ps : List Word) : Bool :=
  decide (ps.length ≤ 7) && (programKind kind || (decide (0x81 ≤ kind.toNat ∧ kind.toNat ≤ 0x8A) &&
    (!(kind = 0x82 || kind = 0x83) || ps.getD 0 0 = 1 || ps.getD 0 0 = 2)))

/-- The station time in two parameter words. -/
def timeParam (ps : List Word) (j : Nat) : Nat := (ps.getD j 0).toNat + (ps.getD (j + 1) 0).toNat * 2 ^ 32

namespace State

/-- Session `i` may make a request of a kind (R309, R314). -/
def mayRequest (s : State) (i : Nat) (kind : Byte) : Bool :=
  if programKind kind ∨ kind = 0x86 then s.classOf i = 2
  else match kind.toNat with
  | 0x81 => s.permits i 0
  | 0x82 => s.permits i 1
  | 0x83 => s.permits i 2
  | 0x84 | 0x85 => s.permits i 3
  | 0x87 => s.permits i 4
  | 0x88 => s.permits i 5
  | 0x89 => s.permits i 6
  | 0x8A => s.permits i 7
  | _ => false

/-- The requests of session `i` ordered in the last second. -/
def recentRequests (s : State) (i : Nat) : List Nat := (s.session i).rate.filter fun t => s.now < t + 1000000000

/-- The row of R313 that refuses a request: its status code, 0 for none. -/
def requestCode (s : State) (i : Nat) (kind : Byte) : Nat :=
  if ¬ s.mayRequest i kind then 6
  else if s.fld (Fld.SESS_CFGs_RATE i) ≤ (s.recentRequests i).length then 4
  else if 32 ≤ s.used (2 * i + 1) then 4
  else if s.numHalted then 4
  else if (programKind kind ∨ kind = 0x86) ∧ s.opState ≠ 5 then 0x11
  else 0

/-- Show the cause of a refusal of R313 beyond its status code, and count it. -/
def noteRefused (s : State) (i : Nat) (kind : Byte) : State :=
  let s := s.podCount 55 1
  if s.requestCode i kind ≠ 4 ∨ s.fld (Fld.SESS_CFGs_RATE i) ≤ (s.recentRequests i).length then s
  else if 32 ≤ s.used (2 * i + 1) then s.raiseEvt Page.QUE Evt.QUE_BUSY
  else s

/-- The image of the last ring cycle of the present vital cycle has been closed. -/
def imageClosed (s : State) : Bool := s.cyc.waiting.isSome || s.cyc.imgCause != 0

/-- The ring cycle number of the close point whose image is expected to take a request ordered now (R306, R33); 0 while no cycle runs. -/
def nextImageRc (s : State) : Word :=
  if ¬ s.cyc.running then 0 else
  let n := if s.boot.running then s.vcyc + 1 else s.vcyc
  let k := w32 s.ringsPerCycle
  (if s.imageClosed then n + 1 else n) * k - 1

/-- The arrival stamp of a request that is taken now (R316): above every stamp before it. -/
def nextStamp (s : State) : Nat := Nat.max s.now (s.hosts.lastStamp + 1)

/-- A request is ordered (R315, R316, R324, R325, R288): it gets its number and is journalled, and the partner gets an ORDER record. -/
def orderIt (s : State) (m : OhpMsg) (r : HostReq) (kind : Byte) (ps : List Word) (sepoch : Word) (fwd : Bool) (stamp : Nat) (rc : Word) :
    State × Word :=
  let i := sessionOf m
  let num := s.nextNum
  let mac := (m.env.map Envelope.mac).getD 0
  let digest := sha256 (ohpHeader m (reqType r) ++ reqPayload m.rsv r)
  let claim := s.reg Reg.TWIN_CLAIM
  let s : State := { s with hosts := { s.hosts with lastStamp := Nat.max s.hosts.lastStamp stamp, numBase := none } }
  let s := ((s.setReg Reg.SESS_REQNUM num).showHalt).podCount 54 1
  let s := s.journalAdd { jix := 0, reqnum := num, arrival := stamp, session := i, kind := kind, fwd := fwd, order := false, gap := false,
                          complete := false, status := 0, sseq := m.sseq, sepoch := m.sepoch, imgRc := 0, ive := 0, result := 0, rcyc := 0,
                          done := 0, orderer := s.nv.serial, claim := claim, digest := digest, params := ps, mac := mac }
  let o : OrderRec := ⟨num, i, m.sseq, stamp, kind, sepoch, ps, rc, claim, s.nv.serial, digest, mac⟩
  (s.mirror (.order o), num)

/-! ### SAFE and RESTART (R453) -/

/-- What a SAFE request does at its target. -/
def safeHere (s : State) : State :=
  if s.opState = 4 ∨ s.opState = 5 ∨ s.opState = 6 then { s with boot := { s.boot with safe9 := true } }
  else s.enterSafe 9 0 false

/-- What a RESTART request does at its target. -/
def restartHere (s : State) : State := if s.opState = 7 then s.leaveSafe 3 else s

/-- The target of a SAFE or RESTART request: 0 this unit, 1 its partner within reach of an ORDER record, else the refusal code. -/
def targetOf (s : State) (serial : Word) : Nat :=
  if serial = s.nv.serial then 0
  else if ¬ (s.isTwin ∧ serial = s.reg Reg.TWIN_PSERIAL) then 0x80
  else if ¬ s.linkUp then 0x82
  else 1

/-- The decision of a SAFE (0x84) or RESTART request at its target: 0 for OK, or the refusal code. -/
def targetCode (s : State) (kind : Byte) : Nat := if kind = 0x84 ∨ s.opState = 7 then 0 else 0x81

/-- What a SAFE or RESTART request that is not refused does at its target. -/
def targetEffect (s : State) (kind : Byte) : State := if kind = 0x84 then s.safeHere else s.restartHere

/-- Decide a SAFE or RESTART request. Where the target is the partner, it decides on the ORDER record and answers (R453). -/
def targetRequest (s : State) (i : Nat) (num : Word) (kind : Byte) (serial : Word) : State :=
  let t := s.targetOf serial
  if 1 < t then s.respond i num 0x0F 0 t
  else if t = 1 then s
  else
    let c := s.targetCode kind
    if c ≠ 0 then s.respond i num 0x0F 0 c else (s.respond i num 0 0 0).targetEffect kind

/-- A request of a kind that is decided on ordering. -/
def decideRequest (s : State) (i : Nat) (num : Word) (kind : Byte) (ps : List Word) (stamp : Nat) : State :=
  let op := ps.getD 0 0
  match kind.toNat with
  | 0x82 =>
    if op = 1 then s.exchangeArm i num (ps.getD 1 0).toNat (timeParam ps 2) (ps.getD 4 0) else s.exchangeCancel i num
  | 0x83 => if op = 1 then s.swapRequest i num (timeParam ps 1) else s.swapCancel i num
  | 0x84 | 0x85 => s.targetRequest i num kind op
  | 0x88 =>
    let c := s.recClearCode
    if c = 0 then (s.recClear i num).respond i num 0 0 0 else s.respond i num 0x0F 0 c
  | 0x89 => s.activateRequest i num op.toNat (timeParam ps 1) stamp
  | 0x8A =>
    let t := timeParam ps 0
    if t = 0 then s.respond i num 0x0F 0 0x70 else (s.orderTime t).respond i num 0 0 0
  | _ => s

/-! ### The vital messages at the ordering unit -/

/-- A REQUEST that R312 has accepted is refused by R313 or ordered (R313 to R317). -/
def takeRequest (s : State) (m : OhpMsg) (kind : Byte) (ps : List Word) (fwd : Bool) (stamp : Option Nat) : State :=
  let i := sessionOf m
  if ¬ kindKnown kind ps then s.refuseOhp m 0x20 fwd 0x0B else
  let c := s.requestCode i kind
  if c ≠ 0 then (s.noteRefused i kind).refuseOhp m 0x20 fwd c else
  let t := stamp.getD s.nextStamp
  let rc := if imageKind kind then s.nextImageRc else 0
  let x := s.session i
  let s := s.setSession i { x with rate := s.now :: s.recentRequests i }
  let q := s.queue (2 * i)
  let s := s.setQueue (2 * i) { q with next := q.next + 1 }
  let (s, num) := s.orderIt m (.request kind ps) kind ps m.sepoch fwd t rc
  let s := s.push (2 * i + 1) false (.resp ⟨kind, 0, 0, num, m.sseq, 0, 0, t, 0, m.tag⟩)
  let s := s.answer m 0x20 fwd 0 0 (wordBytes num ++ leBytes 8 t ++ wordBytes rc)
  if imageKind kind then { s with hosts := { s.hosts with reqs := s.hosts.reqs ++ [⟨num, i, kind, ps, t⟩] } }
  else s.decideRequest i num kind ps t

/-- The last request number journalled for a session, 0 if none (R306). -/
def lastJournalled (s : State) (i : Nat) : Word :=
  match s.nv.journal.reverse.find? fun (e : JEntry) => e.session = i && !e.gap with
  | some e => e.reqnum
  | none => 0

/-- An OPEN that has passed UNTIMELY (R310): ordered and journalled, it gives the session a new epoch. -/
def takeOpen (s : State) (m : OhpMsg) (nonce : BitVec 64) (fwd : Bool) (stamp : Option Nat) : State :=
  let i := sessionOf m
  let old := Store.get (fun _ => []) s.nv.nonces i
  if old.contains nonce then
    let s := ((s.addSat (Fld.SESS_ERRs_REPLAY i) 1).raiseEvt Page.SESS Evt.SESS_REPLAY).noteEnvelope i 0x0A m.sseq
    s.refuseOhp m 0x01 fwd 0x0A
  else if s.numHalted then s.refuseOhp m 0x01 fwd 4
  else
    let last := s.lastJournalled i
    let e := Store.get (fun _ => 0) s.nv.epochs i + 1
    let s : State := { s with nv := { s.nv with nonces := Store.set (fun _ => []) s.nv.nonces i ((nonce :: old).take 16) } }
    let (s, num) := s.orderIt m (.opening nonce) 0x80 [] e fwd (stamp.getD s.nextStamp) 0
    let s := ((s.openSess i e).hear m).journalDone num 0 0 0
    (s.answer m 0x01 fwd 0 0 (leBytes 8 nonce.toNat ++ wordBytes e ++ wordBytes last)).shareSession i none (some nonce)

/-- An accepted CLOSE (R452): the KEEP is sent under the session as it stands, which then closes. -/
def takeClose (s : State) (m : OhpMsg) (fwd : Bool) : State :=
  (s.answer m 0x03 fwd 0 0 (leBytes 8 s.now)).closeSess (sessionOf m)

/-- A vital message at the unit that orders. -/
def orderVital (s : State) (m : OhpMsg) (r : HostReq) (fwd : Bool) (stamp : Option Nat) : State :=
  match r with
  | .opening nonce => s.takeOpen m nonce fwd stamp
  | .closing => s.acceptance m 0x03 fwd fun s => s.takeClose m fwd
  | .request kind ps => s.acceptance m 0x20 fwd fun s => s.takeRequest m kind ps fwd stamp

/-- The unit orders: a single unit always, a twin unit while ACTIVE, until it has handed over at C(S−1) (R299). -/
def orders (s : State) : Bool := !s.isTwin || (s.isActive && !(s.twin.swapGo && s.linkUp))

/-- The unit has been told to take ACTIVE at tV(S). -/
def swapComing (s : State) : Bool := s.isTwin && !s.isActive && s.twin.swapGo

/-- Requests are held between the close point of the image of cycle S and C(S−1) (R299). -/
def holds (s : State) : Bool :=
  s.twin.swapLost ||
    (s.flag Fld.TWIN_SWAP_ARMED && s.twin.swapInit && !s.twin.swapGo && s.reg Reg.TWIN_SWAPCYC = s.vcyc + 1 && s.imageClosed)

/-- Hold a request with its arrival stamp. -/
def hold (s : State) (m : OhpMsg) (r : HostReq) (t : Nat) (fwd : Bool) : State :=
  let cancels := match r with
    | .request 0x83 ps => ps.getD 0 0 = 2
    | _ => false
  let s := s.setTwin { s.twin with held := s.twin.held ++ [(m, r, t, fwd)], swapCancel := s.twin.swapCancel || cancels }
  { s with hosts := { s.hosts with lastStamp := Nat.max s.hosts.lastStamp t } }

/-- Where a vital message that has passed UNTIMELY goes (R288, R299, R312): it is ordered here, held, forwarded, or referred. -/
def vital (s : State) (m : OhpMsg) (r : HostReq) : State :=
  if s.orders then (if s.holds then s.hold m r s.nextStamp false else s.orderVital m r false none)
  else if s.swapComing then s.hold m r s.nextStamp false
  else if s.linkUp then s.twinSend (.fwd (.request m r none))
  else (s.raiseEvt Page.SESS Evt.SESS_REFER).refuseOhp m (reqType r) false 3

/-- A vital message as it arrives from a host. -/
def vitalMsg (s : State) (m : OhpMsg) (r : HostReq) : Host.Outcome State Fault Refusal :=
  .next (s.receive m (reqType r) (reqPayload 0 r) true false fun s => s.vital m r)

end State

/-! ### OPEN, CLOSE and the requests -/

/-- OPEN (R310). -/
def execOpenSession (m : OhpMsg) (nonce : BitVec 64) (s : State) : Host.Outcome State Fault Refusal := s.vitalMsg m (.opening nonce)

/-- CLOSE (R452). -/
def execCloseSession (m : OhpMsg) (s : State) : Host.Outcome State Fault Refusal := s.vitalMsg m .closing

/-- PROGRAM_REQUEST (R313, R314): a REQUEST of the kind and parameters given. Reserved kinds are refused with BAD_FORMAT. -/
def execProgramRequest (m : OhpMsg) (kind : Byte) (params : List Word) (s : State) : Host.Outcome State Fault Refusal :=
  s.vitalMsg m (.request kind params)

/-- FORCE_SET (R158). -/
def execForceSet (m : OhpMsg) (sym elem value : Word) (s : State) : Host.Outcome State Fault Refusal :=
  s.vitalMsg m (.request 0x81 [1, sym, elem, value])

/-- FORCE_CLEAR (R158). -/
def execForceClear (m : OhpMsg) (sym elem : Word) (s : State) : Host.Outcome State Fault Refusal :=
  s.vitalMsg m (.request 0x81 [2, sym, elem, 0])

/-- FORCE_CLEAR_ALL (R158). -/
def execForceClearAll (m : OhpMsg) (s : State) : Host.Outcome State Fault Refusal := s.vitalMsg m (.request 0x81 [3, 0, 0, 0])

/-- EXCHANGE_ARM (R144, R145). -/
def execExchangeArm (m : OhpMsg) (flags : Word) (time : BitVec 64) (build : Word) (s : State) : Host.Outcome State Fault Refusal :=
  s.vitalMsg m (.request 0x82 [1, flags, w32 time.toNat, w32 (time.toNat / 2 ^ 32), build])

/-- EXCHANGE_CANCEL (R144). -/
def execExchangeCancel (m : OhpMsg) (s : State) : Host.Outcome State Fault Refusal := s.vitalMsg m (.request 0x82 [2, 0, 0, 0, 0])

/-- SWAP_REQUEST_ARM (R298). -/
def execSwapRequestArm (m : OhpMsg) (time : BitVec 64) (s : State) : Host.Outcome State Fault Refusal :=
  s.vitalMsg m (.request 0x83 [1, w32 time.toNat, w32 (time.toNat / 2 ^ 32)])

/-- SWAP_REQUEST_CANCEL (R298). -/
def execSwapRequestCancel (m : OhpMsg) (s : State) : Host.Outcome State Fault Refusal := s.vitalMsg m (.request 0x83 [2, 0, 0])

/-- SAFE_REQUEST (R453). -/
def execSafeRequest (m : OhpMsg) (target : Word) (s : State) : Host.Outcome State Fault Refusal := s.vitalMsg m (.request 0x84 [target])

/-- RESTART_REQUEST (R453, R220). -/
def execRestartRequest (m : OhpMsg) (target : Word) (s : State) : Host.Outcome State Fault Refusal :=
  s.vitalMsg m (.request 0x85 [target])

/-- RESTRICT_END (R296). -/
def execRestrictEnd (m : OhpMsg) (s : State) : Host.Outcome State Fault Refusal := s.vitalMsg m (.request 0x86 [])

/-- RVWRITE (R339). -/
def execRvwrite (m : OhpMsg) (addr mask value : Word) (s : State) : Host.Outcome State Fault Refusal :=
  s.vitalMsg m (.request 0x87 [addr, mask, value])

/-- REC_CLEAR (R375). -/
def execRecClear (m : OhpMsg) (s : State) : Host.Outcome State Fault Refusal := s.vitalMsg m (.request 0x88 [])

/-- ACTIVATE (R418). -/
def execActivate (m : OhpMsg) (slot : Word) (time : BitVec 64) (s : State) : Host.Outcome State Fault Refusal :=
  s.vitalMsg m (.request 0x89 [slot, w32 time.toNat, w32 (time.toNat / 2 ^ 32)])

/-- TIMESET (R405). -/
def execTimeset (m : OhpMsg) (time : BitVec 64) (s : State) : Host.Outcome State Fault Refusal :=
  s.vitalMsg m (.request 0x8A [w32 time.toNat, w32 (time.toNat / 2 ^ 32)])

end Sys2Proof.Machine
end

