-- ==== Sys2Proof/Machine/Hosts.lean ====
section
/-! DEFINITION. The other OHP messages (R306, R320, R326, R338, R347, R350, R408, R452), the timers of sessions, results and coalescing
windows (R310, R312, R318, R322, R374), and what the twin link carries of requests (R288, R299). -/

namespace Sys2Proof.Machine

/-! ### Queue entries as bytes (R319) -/

/-- The bytes of a response entry. -/
def respBytes (seq : Word) (ready : Bool) (r : RespEntry) : List Byte :=
  let b := wordBytes seq ++ [if ready then 2 else 1, r.kind, r.status, r.ive] ++ wordBytes r.reqnum ++ wordBytes r.sseq ++
    wordBytes r.result ++ wordBytes r.cycle ++ leBytes 8 r.arrival ++ leBytes 8 r.readyTime ++ wordBytes r.tag ++ List.replicate 16 0
  b ++ wordBytes (crc32c b)

/-- The bytes of an event ring entry. -/
def eventBytes (seq : Word) (ready : Bool) (e : EventEntry) : List Byte :=
  let b := wordBytes seq ++ [if ready then 2 else 1, e.kind, e.cls, e.ive] ++ wordBytes e.reqnum ++ wordBytes e.count ++
    wordBytes e.result ++ wordBytes e.cycle ++ leBytes 8 e.time ++ padBytes 28 (wordsBytes e.body)
  b ++ wordBytes (crc32c b)

/-- The bytes of a queue entry. -/
def entryBytes (e : QEntry) : List Byte := match e.body with
  | .resp r => respBytes e.seq e.ready r
  | .event v => eventBytes e.seq e.ready v
  | .record r => recBytes r
  | .journal j => journalBytes j
  | .raw bs => bs

/-- The queue of a session that a message's queue byte names: 0 response, 1 event ring (R306). -/
def hostQueue (i : Nat) (queue : Byte) : Nat := if queue = 0 then 2 * i + 1 else 32 + i

namespace State

/-! ### REG_READ (R331, R347) -/

/-- Read `n` words from `a` on: the words, and the index of the first uncorrectable one. -/
def readWords (s : State) (a : Nat) : Nat → Nat → State × List Word × Option Nat
  | _, 0 => (s, [], none)
  | j, n + 1 =>
    let (s, w, bad) := s.readAddr (a + 4 * j)
    let (s, ws, k) := readWords s a (j + 1) n
    (s, w :: ws, if bad then some j else k)

/-- Module MRAM outside the recorder's range, and DRAM, are not read by hosts (R367). -/
def unreadable (a : Nat) : Bool := memBank a = some 13 || (memBank a = some 14 && a < 0x64000000)

/-- Answer a REG_READ. -/
def regRead (s : State) (m : OhpMsg) (a n : Nat) : State :=
  if unreadable a then s.answer m 0x10 false 6 0 [] else
  let (s, ws, bad) := s.readWords a 0 n
  match bad with
  | some j => s.answer m 0x10 false 0x12 j (wordsBytes ws)
  | none => s.answer m 0x10 false 0 0 (wordsBytes ws)

/-! ### REG_WRITE (R338, R349, R452) -/

/-- A REG_WRITE is posted; one that is malformed carries no data, and fails with cause 9. -/
def post (s : State) (m : OhpMsg) (addr : Word) (words : Nat) (data : List Word) : State :=
  let i := sessionOf m
  let len := m.len.toNat
  let malformed := headerBad m (List.replicate (8 + 4 * words) 0) false || m.env.isSome || words = 0 || decide (128 < words) ||
    data.length != words
  let s := if s.current m then s.hear m else s
  let w : PostedWrite := ⟨.host i, m.tag, if len < 4 then 0 else addr.toNat, if malformed then [] else data⟩
  { s with posted := s.posted ++ [w] }

/-! ### FENCE (R350) -/

/-- A posted write of session `i`. -/
def ownWrite (i : Nat) (w : PostedWrite) : Bool := w.writer = .host i

/-- A FENCE waits for the outcomes of the session's earlier writes, and a new aggregate starts. -/
def holdFence (s : State) (m : OhpMsg) : State :=
  let i := sessionOf m
  let x := s.session i
  let before := (x.fences.map HeldFence.left).sum
  let left := (s.posted.filter (ownWrite i)).length - before
  let f : HeldFence := ⟨m.tag, m.env.map fun _ => m.sseq, left, x.agg⟩
  s.setSession i { x with fences := x.fences ++ [f], agg := ⟨0, 0, 0, 0, 0⟩ }

/-- The payload of a FENCE's reply. -/
def aggBytes (g : FenceAgg) : List Byte :=
  leBytes 4 g.posted ++ leBytes 4 g.failed ++ wordBytes g.firstAddr ++ [g.firstCause, 0, 0, 0] ++ wordBytes g.firstTag

/-- Answer the oldest FENCE of session `i`, if every write before it has its outcome. -/
def answerFence (s : State) (i : Nat) : State :=
  let x := s.session i
  match x.fences, x.peer with
  | f :: rest, some p =>
    if f.left ≠ 0 then s else
    let s := s.setSession i { x with fences := rest }
    let (s, o) := s.makeReply ⟨p.port, p.addr, p.udp, 0x13, i, 0, 0, f.tag, if f.agg.failed = 0 then 0 else 0x0F, s.unitByte, 0,
      aggBytes f.agg, none⟩ (f.sseq.map fun _ => s.fld (Fld.SESS_STATEs_KEY i))
    let x := s.session i
    let s := s.setSession i { x with accepted := x.accepted.map fun a => if some a.sseq = f.sseq then { a with reply := some o } else a }
    (s.sendOhp false o).shareTaken i f.sseq
  | _, _ => s

/-! ### Queues and journal (R320, R326) -/

/-- Answer a QREAD. -/
def readQueue (s : State) (m : OhpMsg) (q index : Nat) : State :=
  match (s.queue q).entries[index]? with
  | none => s.answer m 0x30 false 1 0 []
  | some e => if e.ready then s.answer m 0x30 false 0 0 (entryBytes e) else s.answer m 0x30 false 1 1 []

/-- Journal entries are read: those whose seal fails (`spoilt` are their JIX) are counted and returned with STATUS 0xFF (R325). -/
def journalRead (s : State) (spoilt : List Word) (es : List JEntry) : State × List Byte :=
  let bad := (es.filter fun e => spoilt.contains e.jix).length
  let s := if bad = 0 then s else (s.addSat Fld.JRN_SEALCNT_COUNT bad).raiseEvt Page.JRN Evt.JRN_SEALERR
  (s, es.flatMap fun e => journalBytes (if spoilt.contains e.jix then { e with status := 0xFF } else e))

/-- Answer a JREAD. -/
def readJournal (s : State) (m : OhpMsg) (num : Word) (count : Nat) (spoilt : List Word) : State :=
  let j := s.nv.journal
  let reply := fun (s : State) (code : Nat) (found : Byte) (es : List JEntry) =>
    let (s, b) := s.journalRead spoilt es
    s.answer m 0x40 false code 0 ([BitVec.ofNat 8 es.length, found, 0, 0] ++ b)
  if num = 0 then reply s 0 1 (j.take count)
  else if j.any fun e => e.reqnum = num && !e.gap then
    reply s 0 1 (((j.dropWhile fun e => !(e.reqnum = num && !e.gap)).drop 1).take count)
  else reply (s.raiseEvt Page.JRN Evt.JRN_NOTFOUND) 0x0E 0 (j.take count)

/-! ### WAKE (R408) -/

/-- The port takes WAKE messages: in PARKED only the one that `PWR_PARKPORT` names. -/
def wakePort (s : State) (x : Fin 2) : Bool :=
  if s.opState = 9 then s.fld Fld.PWR_PARKPORT_PORT = x else s.portUp x

/-- A WAKE message. Its outcomes of R312 are recorded where service firmware runs, and a datagram that is discarded is counted (R303); no
reply is sent. -/
def wakeMsg (s : State) (m : OhpMsg) (serial : Word) : State :=
  let i := sessionOf m
  let parked := s.opState = 9
  let note := fun (f : State → State) => if parked then s else f s
  let p := wordBytes serial
  if ¬ s.wakePort m.port then s
  else if m.magic ≠ 0x4F48 ∨ m.ver ≠ 1 ∨ s.shutOut m then s.dropOhp m.port
  else match m.env with
  | none => s
  | some e =>
    if headerBad m p true ∨ s.envelopeBad i e then s
    else if ¬ s.macHolds m 0x60 p e then note fun s => s.badMac m
    else if ¬ s.timely i e then note fun s => s.untimely m
    else if s.classOf i = 0 ∨ serial ≠ s.nv.serial ∨ e.tsend.toNat ≤ Store.get (fun _ => 0) s.nv.wakes i then s
    else
      let s : State := { s with nv := { s.nv with wakes := Store.set (fun _ => 0) s.nv.wakes i e.tsend.toNat } }
      s.wakeUp 1 i

/-! ### Closed sessions (R322) -/

/-- A session that has been closed for 300 s: its READY responses and its event ring entries go. -/
def purge (s : State) (i : Nat) : State :=
  let x := s.session i
  let due : Bool := match x.closedAt with
    | some t => t + 300000000000 ≤ s.now
    | none => false
  if s.isOpen i ∨ ¬ due then s else
  let r := s.queue (2 * i + 1)
  let e := s.queue (32 + i)
  let s := s.setQueue (2 * i + 1) { r with entries := r.entries.filter fun y => !y.ready }
  let s := s.setQueue (32 + i) { e with entries := [], lost := 0, lostFirst := none }
  (s.addSat (Fld.SESS_LOSSs_LOST i) e.entries.length).setSession i { x with closedAt := none }

/-! ### The partner's requests (R288, R299, R315, R325) -/

/-- A gap entry for the numbers that were missed while the link was down (R325). -/
def journalGap (s : State) (num : Word) : State :=
  let first := s.highestNum + 1
  let due := s.hosts.gapDue
  let s : State := { s with hosts := { s.hosts with gapDue := false } }
  if ¬ due ∨ first = num then s else
  (s.journalAdd { jix := 0, reqnum := first, arrival := s.now, session := 0, kind := 0, fwd := false, order := false, gap := true,
                  complete := false, status := 0, sseq := 0, sepoch := 0, imgRc := 0, ive := 0, result := 0, rcyc := 0, done := 0,
                  orderer := s.nv.serial, claim := s.reg Reg.TWIN_CLAIM, digest := [], params := [num], mac := 0 }).raiseEvt Page.JRN Evt.JRN_GAP

/-- Decide a SAFE or RESTART that names this unit on its ORDER record, and tell the unit that ordered it (R453). -/
def targetOrder (s : State) (num : Word) (kind : Byte) : State :=
  let c := s.targetCode kind
  let s := (s.journalDone num (if c = 0 then 0 else 0x0F) 0 c).mirror (.fwd (.decided num c))
  if c = 0 then s.targetEffect kind else s

/-- What a partner does itself on an ORDER record: it follows an OPEN, decides a REC_CLEAR, and decides a SAFE or RESTART that names
it (R310, R375, R453). -/
def followOrder (s : State) (o : OrderRec) : State :=
  match o.kind.toNat with
  | 0x80 => (s.openSess o.session o.sepoch).journalDone o.num 0 0 0
  | 0x84 | 0x85 => if o.params.getD 0 0 = s.nv.serial then s.targetOrder o.num o.kind else s
  | 0x88 =>
    let c := s.recClearCode
    if c = 0 then (s.recClear o.session o.num).journalDone o.num 0 0 0 else s.journalDone o.num 0x0F 0 c
  | _ => s

/-- Follow what the active unit has done with a session (R310). -/
def followSession (s : State) (n : SessNews) : State :=
  let i := n.session % 16
  let s := if ¬ n.isOpen then s.closeSess i
    else if s.isOpen i ∧ s.reg (Reg.SESS_EPOCHs i) = n.sepoch then s
    else s.openSess i n.sepoch
  let s := match n.taken with
    | none => s
    | some (q, mac, o) =>
      let s := if (s.session i).accepted.any fun a => a.sseq = q then s else s.takeSeq i q mac
      let x := s.session i
      s.setSession i { x with accepted := x.accepted.map fun a => if a.sseq = q then { a with reply := o } else a }
  let s : State := match n.nonce with
    | none => s
    | some x =>
      let xs := (x :: Store.get (fun _ => []) s.nv.nonces i).take 16
      { s with nv := { s.nv with nonces := Store.set (fun _ => []) s.nv.nonces i xs } }
  (s.setSession i { s.session i with txSeq := n.txSeq, lastHeard := s.now }).setFld (Fld.SESS_STATEs_KEY i) n.key

/-- The partner has decided a request that this unit ordered (R453). -/
def partnerDecided (s : State) (num : Word) (code : Nat) : State := match s.journalOf num with
  | none => s
  | some e => if s.awaits e.session num then s.respond e.session num (if code = 0 then 0 else 0x0F) 0 code else s

/-- The session's state follows the active unit's (R310). -/
def followsPartner (s : State) : Bool := s.isTwin && !s.isActive && s.linkUp

/-- Take an ORDER record (R288, R325). -/
def takeOrder (s : State) (o : OrderRec) : State :=
  let s := (s.noteClaim o.claim.toNat).journalGap o.num
  let s : State := { s with hosts := { s.hosts with lastStamp := Nat.max s.hosts.lastStamp o.stamp, numBase := none } }
  let s := s.setReg Reg.SESS_REQNUM o.num
  let s := s.journalAdd { jix := 0, reqnum := o.num, arrival := o.stamp, session := o.session, kind := o.kind, fwd := false, order := true,
                          gap := false, complete := false, status := 0, sseq := o.sseq, sepoch := o.sepoch, imgRc := o.imgRc, ive := 0,
                          result := 0, rcyc := 0, done := 0, orderer := o.serial, claim := o.claim, digest := o.digest,
                          params := o.params, mac := o.mac }
  s.followOrder o

/-- A request that the partner forwards: ordered, held (R299), or left where this unit does not order. -/
def takeForwarded (s : State) (m : OhpMsg) (r : HostReq) (stamp : Option Nat) : State :=
  let t := stamp.getD s.nextStamp
  if s.swapComing then s.hold m r t true
  else if ¬ s.orders then s
  else if s.holds then s.hold m r t true
  else s.orderVital m r true stamp

/-- Insert a held request by its stamp, behind those of the same stamp. -/
def insertHeld (x : OhpMsg × HostReq × Nat × Bool) : List (OhpMsg × HostReq × Nat × Bool) → List (OhpMsg × HostReq × Nat × Bool)
  | [] => [x]
  | y :: rest => if x.2.2.1 < y.2.2.1 then x :: y :: rest else y :: insertHeld x rest

/-- The held requests are ordered, in the order of their stamps (R299, R316). -/
def orderHeld (s : State) : State :=
  let held := s.twin.held.foldl (fun l x => insertHeld x l) []
  let s := s.setTwin { s.twin with held := [] }
  held.foldl (fun (s : State) h => s.orderVital h.1 h.2.1 h.2.2.2 (some h.2.2.1)) s

/-- The decision at C(S−1) (R298, R299): the partner takes over with the held requests, or the swap is aborted and they are ordered here. -/
def decideSwap (s : State) : State :=
  let s := if s.twin.swapLost then (s.setTwin { s.twin with swapLost := false }).orderHeld else s
  if ¬ (s.flag Fld.TWIN_SWAP_ARMED ∧ s.twin.swapInit ∧ s.reg Reg.TWIN_SWAPCYC = s.vcyc + 1) then s else
  let x := s.reg Reg.TWIN_SWAPCYC
  let c := s.swapCode x s.twin.swapAct
  let c := if s.twin.swapDown then 1 else if c ≠ 0 then c else if ¬ s.twin.swapAcked then 5 else if s.twin.swapCancel then 6 else 0
  if c ≠ 0 then
    let s := ((s.swapRefuse c).swapAnswer c).twinSend (.swapAbort x c)
    let s := if s.twin.swapAct then s.endActivation 6 else s
    s.orderHeld
  else
    let s := (s.setTwin { s.twin with swapGo := true, swapped := true }).twinSend (.swapGo x)
    s.twin.held.foldl (fun (s : State) h => s.twinSend (.fwd (.request h.1 h.2.1 (some h.2.2.1)))) s

end State

/-- KEEP (R306). -/
def execKeep (m : OhpMsg) (s : State) : Host.Outcome State Fault Refusal :=
  .next (s.receive m 0x04 [] false false fun s => s.acceptance m 0x04 false fun s => s.answer m 0x04 false 0 0 (leBytes 8 s.now))

/-- REG_READ (R347): 1 to 128 words within a page. -/
def execRegRead (m : OhpMsg) (addr : Word) (words : BitVec 16) (s : State) : Host.Outcome State Fault Refusal :=
  let n := words.toNat
  let bad := n = 0 || decide (128 < n) || addr.toNat / 4096 != (addr.toNat + 4 * n - 1) / 4096
  .next (s.receive m 0x10 (wordBytes addr ++ leBytes 2 n ++ [0, 0]) false bad fun s =>
    s.acceptance m 0x10 false fun s => s.regRead m addr.toNat n)

/-- REG_WRITE (R338, R349, R452): never answered. -/
def execRegWrite (m : OhpMsg) (addr : Word) (words : BitVec 16) (data : List Word) (s : State) : Host.Outcome State Fault Refusal :=
  if ¬ s.portUp m.port then .next s
  else if m.magic ≠ 0x4F48 ∨ m.ver ≠ 1 ∨ s.shutOut m then .next (s.dropOhp m.port)
  else .next (((s.addSat (Fld.HSTx_RXCNT_RXCNT m.port) 1).podCount 52 1).post m addr words.toNat data)

/-- FENCE (R350). -/
def execFence (m : OhpMsg) (s : State) : Host.Outcome State Fault Refusal :=
  .next (s.receive m 0x12 [] false false fun s => s.acceptance m 0x12 false fun s => s.holdFence m)

/-- FENCE_ANSWER (R350). -/
def execFenceAnswer (i : Fin 16) (s : State) : Host.Outcome State Fault Refusal := .next (s.answerFence i)

/-- QREAD (R320). -/
def execQread (m : OhpMsg) (queue index : Byte) (s : State) : Host.Outcome State Fault Refusal :=
  let bad := decide (1 < queue.toNat ∨ 31 < index.toNat)
  .next (s.receive m 0x30 [queue, index, 0, 0] false bad fun s => s.acceptance m 0x30 false fun s =>
    s.readQueue m (hostQueue (sessionOf m) queue) index.toNat)

/-- QCONSUME (R320). -/
def execQconsume (m : OhpMsg) (queue : Byte) (seq : Word) (s : State) : Host.Outcome State Fault Refusal :=
  .next (s.receive m 0x31 ([queue, 0, 0, 0] ++ wordBytes seq) false (decide (1 < queue.toNat)) fun s => s.acceptance m 0x31 false fun s =>
    let (s, c) := s.consume (hostQueue (sessionOf m) queue) seq
    s.answer m 0x31 false c 0 [])

/-- JREAD (R326). -/
def execJread (m : OhpMsg) (num : Word) (x : JournalRead) (s : State) : Host.Outcome State Fault Refusal :=
  let bad := decide (x.count.toNat = 0 ∨ 8 < x.count.toNat)
  .next (s.receive m 0x40 (wordBytes num ++ [x.count, 0, 0, 0]) false bad fun s => s.acceptance m 0x40 false fun s =>
    s.readJournal m num x.count.toNat x.spoilt)

/-- WAKE (R408). -/
def execWake (m : OhpMsg) (serial : Word) (s : State) : Host.Outcome State Fault Refusal := .next (s.wakeMsg m serial)

/-- The vital cycle that ran the image closed at ring cycle `rc` (R33, R35). -/
def State.cycleOfImage (s : State) (rc : Word) : Word := w32 ((rc.toNat + 1) / s.ringsPerCycle)

/-- RESULT_TIMEOUT (R318): no HRES has come within 16 vital cycles of the cycle that ran a program request's image. -/
def execResultTimeout (num : Word) (s : State) : Host.Outcome State Fault Refusal :=
  match s.journalOf num with
  | none => .next s
  | some e =>
    if programKind e.kind ∧ s.undecided e ∧ e.imgRc ≠ 0 ∧ 17 ≤ (s.vcyc - s.cycleOfImage e.imgRc).toInt then
      .next (s.respond e.session num 0x10 0 0)
    else .next s

/-- SESSION_IDLE_TIMEOUT (R310): no accepted message for 30 s; a unit that is not active follows its partner's session. -/
def execSessionIdleTimeout (i : Fin 16) (s : State) : Host.Outcome State Fault Refusal :=
  .next (if s.now < (s.session i).lastHeard + 30000000000 ∨ s.followsPartner then s else s.closeSess i)

/-- SESSION_UNBLOCK (R312): 60 s have passed since the session was blocked. -/
def execSessionUnblock (i : Fin 16) (s : State) : Host.Outcome State Fault Refusal :=
  if s.now < (s.session i).blockedAt.getD 0 + 60000000000 then .next s else
  .next ((s.setFld (Fld.SESS_STATEs_BLOCKED i) 0).setSession i { s.session i with blockedAt := none })

/-- SESSION_PURGE (R322). -/
def execSessionPurge (i : Fin 16) (s : State) : Host.Outcome State Fault Refusal := .next (s.purge i)

/-- COALESCE_WINDOW_END (R374): the oldest window ends, 100 ms after it opened. -/
def execCoalesceWindowEnd (s : State) : Host.Outcome State Fault Refusal :=
  match s.windows with
  | [] => .next s
  | w :: rest =>
    if s.now < w.opened + 100000000 then .next s else
    .next (({ s with windows := rest } : State).ringWrite w.session w.entry w.rseq)

/-- ORDER_FRAME (R288). -/
def execOrderFrame (h : TwinHdr) (o : OrderRec) (s : State) : Host.Outcome State Fault Refusal :=
  .next <| s.twinRx h (.order o) 0 fun s => if s.isActive then s else s.takeOrder o

/-- FWD_FRAME (R288, R299). -/
def execFwdFrame (h : TwinHdr) (f : FwdBody) (s : State) : Host.Outcome State Fault Refusal :=
  .next <| s.twinRx h (.fwd f) 0 fun s => match f with
    | .request m r stamp => s.takeForwarded m r stamp
    | .response o => s.sendOhp false o
    | .session n => if s.isActive then s else s.followSession n
    | .decided num code => if s.isActive then s.partnerDecided num code else s

/-- SWAP_CYCLE (R299): at tV(S) the partner that received SWAP_GO takes ACTIVE with the new epoch and orders the held requests first. -/
def execSwapCycle (s : State) : Host.Outcome State Fault Refusal :=
  if ¬ (s.swapComing ∧ s.flag Fld.TWIN_SWAP_ARMED ∧ s.reg Reg.TWIN_SWAPCYC = s.vcyc) then .next s else
  let s := (s.enterActive (s.fld Fld.TWIN_SWAP_NEWEPOCH) 6).toState 5
  .next (s.setFld Fld.TWIN_SWAP_ARMED 0).orderHeld

end Sys2Proof.Machine
end

