-- ==== Sys2Proof/Machine/ImageClose.lean ====
section
/-! DEFINITION. The close of an input image (R31 to R34), and its delivery to the peas and the IVE (R35, R126, R169, R181). -/

namespace Sys2Proof.Machine

/-! ### Entries (R31, R32) -/

/-- The window that an entry takes of two valid ones: the one with the higher input sample counter. -/
def higherWindow (a b : RxWindow) : RxWindow :=
  if a.cnt = b.cnt ∨ later8 a.cnt b.cnt then a
  else if later8 b.cnt a.cnt then b
  else if Config.counterTie a.cnt then a else b

/-- Two valid windows with equal counters and differing status. -/
def windowConflict (e : CtrlEntry) : Option (RxWindow × RxWindow) := match e.rxA, e.rxB with
  | some a, some b => if a.cnt = b.cnt ∧ a.status ≠ b.status then some (a, b) else none
  | _, _ => none

/-- An entry with a status and a counter from a valid window. -/
def freshEntry (e : CtrlEntry) (status : BitVec 64) (cnt : Byte) : CtrlEntry :=
  { e with status := status, cnt := cnt, age := 0, lost := false, heard := true, lostCycles := 0, rxA := none, rxB := none }

/-- What the windows since the last close point make of an entry. -/
def closeEntry (e : CtrlEntry) : CtrlEntry :=
  match windowConflict e with
  | some (a, _) => freshEntry e restrictive a.cnt
  | none => match e.rxA, e.rxB with
    | some a, some b => freshEntry e (higherWindow a b).status (higherWindow a b).cnt
    | some a, none => freshEntry e a.status a.cnt
    | none, some b => freshEntry e b.status b.cnt
    | none, none => e

/-- The age of an entry at the close point of the last ring cycle of a vital cycle. -/
def ageEntry (e : CtrlEntry) : CtrlEntry :=
  if e.heard then { e with heard := false } else
  let a := Nat.min (e.age + 1) 7
  if 3 < a then { e with age := a, lost := true, status := restrictive, lostCycles := e.lostCycles + 1 } else { e with age := a }

namespace State

/-- Records of what a close point finds at one controller: CTRL_CONFLICT and CTRL_BACK. -/
def noteClosed (s : State) (e : CtrlEntry) : State :=
  let s := match windowConflict e with
    | some (a, b) => s.raiseRec 0x0506 Page.RSCH (w32 e.addr) [w32 a.status.toNat, w32 (a.status.toNat / 2 ^ 32), w32 a.cnt.toNat,
        w32 b.status.toNat, w32 (b.status.toNat / 2 ^ 32), w32 b.cnt.toNat]
    | none => s
  if e.lost ∧ ¬ (closeEntry e).lost then s.raiseRec 0x0505 Page.RSCH (w32 e.addr) [w32 e.lostCycles] else s

/-- CTRL_LOST: an entry has turned LOST. -/
def noteLost (s : State) (before after : CtrlEntry) : State :=
  if after.lost ∧ ¬ before.lost then (s.raiseRec 0x0504 Page.RSCH (w32 after.addr) [w32 after.age]).podCount 35 1 else s

/-- A frame that has not returned by the close point is lost (R249). -/
def loseFrame (s : State) (r : Nat) : State :=
  if ¬ s.masters r ∨ (s.port r).launched = none then s else
  let s := (s.setPort r { s.port r with launched := none, coldRun := 0 }).noSuspect r
  (s.podCount (40 + r) 1).raiseEvt (Page.RNG r) Evt.RNG_OPEN

/-- The image that the close point in hand closes is run on (R35): its ring cycle is the last of the vital cycle, or no cycle has been
released yet. -/
def lastRing (s : State) : Bool := !s.boot.running || s.cyc.i + 1 = s.ringsPerCycle

/-- The ring cycle number of the close point in hand. -/
def closeRc (s : State) : Word := if s.boot.running then s.ringCycle else s.vcyc * w32 s.ringsPerCycle - 1

/-- The requests that an image takes (R33, R35, R317): those of an image that was not delivered come first; 64 at most. -/
def takeRequests (s : State) : List ReqRec × State :=
  let due := s.hosts.reqs.takeWhile fun r => r.stamp ≤ s.now
  let later := s.hosts.reqs.drop due.length
  let all := s.cyc.carried ++ due
  (all.take 64, { s with cyc := { s.cyc with carried := [] }, hosts := { s.hosts with reqs := all.drop 64 ++ later } })

/-- Close the image that the next vital cycle runs on (R33, R34). -/
def closeLast (s : State) : State :=
  let old := s.cyc.entries
  let s : State := { s with cyc := { s.cyc with entries := old.map ageEntry } }
  let s := (old.zip s.cyc.entries).foldl (fun (s : State) e => s.noteLost e.1 e.2) s
  let (reqs, s) := if ¬ s.isTwin ∨ s.isActive then s.takeRequests else ([], s)
  let rc := s.closeRc
  let img : Image := ⟨rc, s.cyc.entries, s.reg Reg.FIO_IN, s.reg Reg.FIO_LOST, s.reg Reg.SFB_STAT, reqs⟩
  let s := reqs.foldl (fun (s : State) r => s.journalImage r.num rc) s
  let s : State := { s with cyc := { s.cyc with waiting := some img, imgCause := 0 } }
  if s.isActive then s.mirror (.image img) else s

/-! ### Delivery (R35, R126) -/

/-- A running release is bound to bank `b` (R126). -/
def bankBound (s : State) (b : Nat) : Bool := s.serving.any fun p =>
  let x := s.pea p
  (x.cur.toList ++ x.queue).any fun r => r.bank = b

/-- The bank that the present cycle does not run on is free for the next image. -/
def bankFree (s : State) : Bool := !s.bankBound (1 - s.cyc.bank)

/-- The bank that takes the aged previous image (R35, R126): the bank in use if no running release is bound to it, else the other if none
is bound to that; none where releases are bound to both. -/
def agedBank (s : State) : Option Nat :=
  if ¬ s.bankBound s.cyc.bank then some s.cyc.bank else if s.bankFree then some (1 - s.cyc.bank) else none

/-- The image that a unit runs its next cycle on (R287): the active unit's while the link is up, if it has come, else its own. -/
def nextImage (s : State) : Option Image :=
  if s.isTwin ∧ ¬ s.isActive ∧ s.linkUp then (match s.twin.rxImage with
    | some i => some i
    | none => s.cyc.waiting)
  else s.cyc.waiting

/-- Why the image is not delivered by tV(n): 0 if it is. -/
def undelivered (s : State) (late : Bool) (bad : List PeaId) : Nat :=
  if s.cyc.imgCause ≠ 0 then s.cyc.imgCause
  else if s.nextImage.isNone ∨ late then 1
  else if bad.any (s.imagePeas.contains ·) then 2
  else if ¬ s.bankFree then 3
  else 0

/-- The ring cycle number of the image that each pea ran on in the cycle that ends. -/
def showImgRc (s : State) : State :=
  s.serving.foldl (fun (s : State) p => s.setReg (Reg.PEA_x_IMGRC (peaNum p)) s.cyc.image.rc) s

/-- The IVE takes the image of the cycle (R169, R181). -/
def iveTakesImage (s : State) : State :=
  (s.setIve ({ s.ive with status := imageStatus s.ive.tables s.cyc.image, expired := false } : Ive).takeImage).showHold

/-- The image is delivered into the free bank, which the cycle runs on. -/
def runOn (s : State) (img : Image) : State :=
  let bank := 1 - s.cyc.bank
  let old := s.cyc.image
  let s := s.deliverImage img bank
  { s with cyc := { s.cyc with bank := bank, image := img, changed := changedControllers old img false, prevImage := false } }

/-- The cycle runs on the previous image with every age increased by one (R35), written into a bank that no running release is bound to
(R126). Where running releases are bound to both banks the words in the bank in use stay as they are (DESIGN CHOICE, log entry 69). The
requests of an image that was closed here pass on. -/
def runOnPrevious (s : State) (cause : Nat) : State :=
  let s := (s.raiseRec 0x0108 Page.POD 0 [w32 cause]).podCount 33 1
  let old := s.cyc.image
  let img := Img.aged old
  let back := match s.cyc.waiting with
    | some i => i.reqs
    | none => []
  let bank := s.agedBank
  let s := match bank with
    | some b => s.deliverImage img b
    | none => s
  { s with cyc := { s.cyc with image := img, bank := bank.getD s.cyc.bank, changed := changedControllers old img true, prevImage := true,
                               carried := s.cyc.carried ++ back } }

/-- A pea finds that the CRC of the image written into it fails (R54). -/
def imageBad (s : State) (p : PeaId) : State :=
  if s.imagePeas.contains p then (s.raiseEvt (Page.PEA (peaNum p)) Evt.PEA_IMG_BAD).podCount 34 1 else s

/-- At tV(n) the peas take their image: `late` says that its delivery has not ended, `bad` names the peas in which its CRC fails. The
flag says whether it was delivered. -/
def takeCycleImage (s : State) (late : Bool) (bad : List PeaId) : State × Bool :=
  let s := s.showImgRc
  let c := s.undelivered late bad
  let s := bad.foldl imageBad s
  let mine := !s.isTwin || s.isActive
  let clear := fun (s : State) => { s with cyc := { s.cyc with waiting := none, imgCause := 0 }, twin := { s.twin with rxImage := none } }
  match c, s.nextImage with
  | 0, some img =>
    let s := if mine then s else img.reqs.foldl (fun (s : State) r => s.journalImage r.num img.rc) s
    (clear ((s.runOn img).podCount 32 1), true)
  | _, _ => (clear (s.runOnPrevious c), false)

end State

/-- IMAGE_CLOSE (R31): every entry takes the windows received since the previous close point; the close point of the last ring cycle also
ages the entries and closes the image. Where no cycle runs, the rings that the unit masters still lose the frames that are out (R249). -/
def execImageClose (s : State) : Host.Outcome State Fault Refusal :=
  if ¬ s.cyc.running then .next ([0, 1, 2, 3].foldl State.loseFrame s) else
  let old := s.cyc.entries
  let s := old.foldl State.noteClosed s
  let s : State := { s with cyc := { s.cyc with entries := old.map closeEntry } }
  let s := [0, 1, 2, 3].foldl State.loseFrame s
  .next (if s.lastRing then s.closeLast else s)

end Sys2Proof.Machine
end

