-- ==== Sys2Proof/Machine/Commit.lean ====
section
/-! DEFINITION. The task deadline D(n) (R36, R59, R129) and the commit point C(n): the commit set (R37, R38), the IVE's steps
(R190 to R195), the skip vector (R131), the core supply (R60), and what a twin unit decides there (R289, R292, R295). -/

namespace Sys2Proof.Machine

/-- The object number of a token, and the word that it commits: the position of a POINT, the aspect of a SIGNAL, P1 of a CMD. -/
def commitWord (t : Released) : Word := if tagKind t.tag = 0 then t.p1 else w32 (bitsOf 15 8 t.p0.toNat)

/-- The release that a token belongs to: its task and SEQ.RCYC. -/
def releaseKey (t : Released) : Nat × Nat := (tagTask t.tag, tagCyc t.tag)

namespace State

/-! ### The commit set (R37, R38, R190) -/

/-- The releases that enter the commit set: their END has been voted, and no token of theirs waits for the IVE. -/
def readyReleases (s : State) : List (Nat × Nat) :=
  ((s.com.buffer.filter fun t => tagKind t.tag = 6).map releaseKey).filter fun k => !s.com.iveIn.any fun t => releaseKey t = k

/-- The objects whose command a commit set gives, and the words that it leaves: the last CMD token of each stands (R242). -/
def setCommands (set : List Released) : List (Nat × Word) :=
  set.foldl (fun acc t =>
    if tagKind t.tag ≠ 0 then acc
    else let o := bitsOf 31 16 t.p0.toNat
      (acc.filter fun e => e.1 ≠ o) ++ [(o, t.p1)]) []

/-- R242: a commit set leaves a CMD that exceeds 0x3F for an element of a controller, so that command 0 stands for it: DAMAGE on the rings
of its branch, and a CMD_RANGE record unless its command (`was`) was out of range before the set. -/
def commandRange (s : State) (was : List (Nat × Word)) (c : Nat × Word) : State :=
  if c.2.toNat ≤ 0x3F then s else
  match s.prog with
  | none => s
  | some pr =>
    match pr.bindings.find? fun b => b.1 = c.1 ∧ bitsOf 31 30 b.2.toNat = 1 with
    | none => s
    | some b =>
      let addr := bitsOf 25 16 b.2.toNat
      let s := if 0x3F < (Store.get (fun _ => (0 : Word)) was c.1).toNat then s
        else s.raiseRec 0x0408 (Page.RNG (addr / 512)) (w32 c.1) [c.2, w32 addr]
      [addr / 512, addr / 512 + 2].foldl (fun (s : State) r =>
        if s.ringUsed r then s.raiseEvt (Page.RNG r) Evt.RNG_DAMAGE else s) s

/-- One token of the commit set takes effect on the committed values. -/
def commitToken (s : State) (t : Released) : State :=
  let k := tagKind t.tag
  let o := bitsOf 31 16 t.p0.toNat
  if 2 < k then s else
  let s : State := { s with com := { s.com with committed := Store.set (fun _ => 0) s.com.committed o (commitWord t) } }
  if k ≠ 2 then s else
  let u := bitsOf 31 16 t.p1.toNat
  let a := bitsOf 15 8 t.p0.toNat
  let s := s.setIve (s.ive.setSignal o ⟨a, u, false⟩)
  if a ≠ 0 ∧ u < tblRoutes s.ive.tables ∧ rEntry s.ive.tables u = o ∧ s.ive.held u then
    s.setIve (s.ive.setRoute u { s.ive.route u with cleared := true })
  else s

/-- A signal withdrawn in the cycle is committed at stop (R187). -/
def commitStop (s : State) (g : Nat) : State :=
  let s : State := { s with com := { s.com with committed := Store.set (fun _ => 0) s.com.committed g 0 } }
  s.setIve (s.ive.setSignal g { s.ive.signal g with aspect := 0, withdrawn := true })

/-- The code of the first IVE refusal of the cycle that carries a request number, 0 for none (R318). -/
def firstRefusal (s : State) (num : Word) : Nat :=
  match s.ive.refusals.find? fun x => x.p1 = num && !x.withdrawal && (x.kind = 3 || x.kind = 4) with
  | some x => x.code
  | none => 0

/-- The marks of the signals withdrawn at the last commit point end (R195). -/
def clearWithdrawn (s : State) : State :=
  s.setIve { s.ive with signals := s.ive.signals.map fun e => (e.1, { e.2 with withdrawn := false }) }

/-- The commit set of the cycle is formed (R37, R190 steps 1 and 2). -/
def formSet (s : State) : State :=
  let keys := s.readyReleases
  let isIn := fun (t : Released) => keys.contains (releaseKey t)
  let set := s.com.buffer.filter isIn
  let hres := (set.filter fun t => tagKind t.tag = 5).map fun t => (t, s.firstRefusal t.p1)
  let s : State := { s with com := { s.com with buffer := s.com.buffer.filter fun t => !isIn t, hres := hres, formed := true } }
  let was := s.com.committed
  let s := set.foldl commitToken s.clearWithdrawn
  let s := (setCommands set).foldl (fun (s : State) c => s.commandRange was c) s
  let s := s.ive.stops.foldl commitStop s
  let s := keys.foldl (fun (s : State) k => s.setFld (Fld.TASK_STATs_STALE k.1) 0) s
  ((s.setIve { s.ive with stops := [] }).showBuffer).podCount 27 1

/-! ### The IVE (R190 to R195) -/

/-- The status block goes into the bank of the next cycle (R194), unless a release is bound to it. -/
def writeStatus (s : State) : State :=
  match s.prog with
  | none => s
  | some pr =>
    if ¬ s.bankFree then { s with cyc := { s.cyc with imgCause := if s.cyc.imgCause = 0 then 3 else s.cyc.imgCause } } else
    let ws := s.ive.statusBlock s.vcyc
    let a := tblStatusAddr s.ive.tables - pr.bank0 + bankBase pr (1 - s.cyc.bank)
    let iws := (List.range ws.length).zip ws
    s.imagePeas.foldl (fun (s : State) p => iws.foldl (fun (s : State) w => s.writeWord p .sram (a + w.1) w.2) s) s

/-- The IVE's counters of the cycle are shown and begin anew. -/
def closeIve (s : State) : State :=
  let v := s.ive
  let us := v.busyNs / 1000
  let s := s.setReg Reg.IVE_CYCCNT (w32 (v.fullCount % 65536 * 65536 + Nat.min v.refCount 65535))
  s.setIve { v with refusals := [], refCount := 0, wdrCount := 0, fullCount := 0, busyNs := 0, busyLast := us,
                    busyMax := Nat.max v.busyMax us }

/-! ### Stale counters and the skip vector (R37, R130, R131) -/

/-- The stale counters of the tasks that are not in the commit set. -/
def ageStale (s : State) (keys : List (Nat × Nat)) : State :=
  (List.range 32).foldl (fun (s : State) slot =>
    if ¬ s.taskPresent slot ∨ keys.any (fun k => k.1 = slot) then s
    else
      let waits := s.taskActive slot || s.com.buffer.any fun t => tagTask t.tag = slot && tagKind t.tag = 6
      if waits ∧ (s.taskEvent slot ∨ s.taskDue slot s.vcyc) then s.addSat (Fld.TASK_STATs_STALE slot) 1 else s) s

/-- The skip vector for the next cycle: every task whose release has not had its END voted. -/
def setSkips (s : State) : State :=
  { s with pod := { s.pod with skipVec := (List.range 32).filter s.taskActive } }

/-! ### The core supply (R59, R60) -/

/-- The task window W in ticks. -/
def taskWindow (s : State) : Nat := s.tvMs * 25000 - s.fld Fld.VOTE_SKEW_SKEW - 5000

/-- The margin of pea `p` in the cycle: 0 while it has not become idle. -/
def peaMargin (s : State) (p : PeaId) : Nat :=
  if (s.pea p).doneTick = none then 0 else (s.reg (Reg.PEA_x_MARGIN (peaNum p))).toNat

/-- The pea with the limiting margin; of two with the same margin the first in the order a, b, c, where R59 names none (DESIGN CHOICE, log
entry 68). -/
def limitingPea (s : State) : Option PeaId := match s.serving with
  | [] => none
  | p :: ps => some (ps.foldl (fun least q => if s.peaMargin q < s.peaMargin least then q else least) p)

/-- Decide a setpoint for the next cycle. -/
def nextSetpoint (s : State) (v : Nat) : State := { s with cyc := { s.cyc with dvsNext := some v } }

/-- Count the cycles above TGT + BAND. -/
def dvsCount (s : State) (n : Nat) : State := { s with cyc := { s.cyc with dvsHold := n } }

/-- The decision of R60, with what it measures: a cycle outside RUN_ACTIVE and RUN_STANDBY measures nothing, and the setpoint stays
(R61). -/
def decideSupply (s : State) : State :=
  if ¬ s.isRun then s else
  match s.limitingPea with
  | none => s
  | some p =>
    let w := s.taskWindow
    let m := if w = 0 then 0 else Nat.min (s.peaMargin p * 100 / w) 100
    let s := (s.setFld Fld.PWR_DVSSTAT_MMIN m).setFld Fld.PWR_DVSSTAT_LIMPEA (peaNum p)
    let floor := s.fld Fld.PWR_DVSPARAM_FLOOR
    let tgt := s.fld Fld.PWR_DVSPARAM_TGT
    let low := m < floor
    let s := if low then s.raiseEvt (Page.PEA (peaNum p)) Evt.PEA_MARGIN_LOW else s
    let high := tgt + s.fld Fld.PWR_DVSPARAM_BAND < m
    if s.flag Fld.PWR_DVSCTRL_MODE then
      let same := s.fld Fld.PWR_VCORE_SET = s.fld Fld.PWR_DVSCTRL_FIXED
      (s.nextSetpoint (s.fld Fld.PWR_DVSCTRL_FIXED)).dvsCount (if same ∧ high then s.cyc.dvsHold + 1 else 0)
    else
      let now := s.fld Fld.PWR_VCORE_SET
      if s.cyc.overran ∨ low then
        (((s.addSat Fld.PWR_DVSSTAT_MAXCNT 1).podCount 60 1).nextSetpoint 36).dvsCount 0
      else if m < tgt then (s.nextSetpoint (Nat.min (now + s.fld Fld.PWR_DVSPARAM_UP_STEP) 36)).dvsCount 0
      else if ¬ high then s.dvsCount 0
      else
        let n := s.cyc.dvsHold + 1
        if n < s.fld Fld.PWR_DVSPARAM_DOWN_HOLD then s.dvsCount n
        else (s.nextSetpoint (now - 1)).dvsCount 0

/-! ### The exchange cycle (R148, R152) -/

/-- The present cycle is the exchange cycle. -/
def inExchange (s : State) : Bool := s.xch.old.isSome

/-- At C(X), a pea whose DIGEST of the cycle has not been voted is evicted with reason LATE (R152). -/
def endExchange (s : State) : State :=
  if ¬ s.inExchange then s else
  let voted := s.reg Reg.POD_DIGCYC = s.vcyc
  let late := s.serving.filter fun p =>
    !voted || s.xch.migrating.contains p || decide ((s.pea p).arrived < s.pod.nextPass)
  let s : State := { s with xch := { s.xch with old := none, migrating := [] } }
  (late.foldl (fun (s : State) p => s.evict p 3 true) s).showXstat

/-! ### Twin operation (R289, R292, R294, R295) -/

/-- The unit's two digests of the cycle. -/
def ownDigests (s : State) : BitVec 64 × BitVec 64 :=
  ((s.reg Reg.POD_DIGHI ++ s.reg Reg.POD_DIGLO : BitVec 64), s.ive.digest)

/-- What the unit tells its partner after C(n): STATUS, and, while it is the donor of a transfer in CATCHUP, BDIG with the digests that it
latched when its DIGEST was released (R292). -/
def sendStatus (s : State) : State :=
  if ¬ s.isTwin ∨ s.role = 0 then s else
  let (d, sd) := s.ownDigests
  let s := s.setTwin { s.twin with own := ((s.vcyc, d, sd) :: s.twin.own).take 16 }
  let s := s.twinSend (.status s.vcyc (s.reg Reg.TWIN_CLAIM) s.opState s.tflags d sd)
  let s := s.takeComparison
  if s.isActive ∧ s.flag Fld.TWIN_XFER_DONOR ∧ s.fld Fld.TWIN_XFER_PHASE = 3 ∧ ¬ s.twin.xferLatch.isEmpty then
    s.twinSend (.bdig s.vcyc s.twin.xferLatch)
  else s

/-- The witness windows cover at least QUORUM % of the controllers of every branch in use (R294). -/
def quorum (s : State) : Bool := [0, 1].all fun b =>
  let n := s.branchWindows b
  n = 0 || decide (s.fld Fld.TWIN_WITCFG_QUORUM * n ≤ 100 * (s.twin.covered.filter fun a => a / 512 = b).length)

/-- The judgement of the vital cycle (R294): 0 hears, 1 silent, 2 undecided. -/
def judge (s : State) : Nat := if s.twin.heardNow then 0 else if s.quorum then 1 else 2

/-- The field witness of the cycle is evaluated. -/
def witness (s : State) : State :=
  if ¬ s.isTwin ∨ s.role = 0 then s else
  let j := s.judge
  let t := s.twin
  let s := s.setReg Reg.TWIN_WITNESS (w32 (Nat.min t.hearMax 2047 * 65536 + Nat.min t.covered.length 2047))
  (s.setFld Fld.TWIN_STAT_WITNESS j).setTwin
    { t with heardNow := false, hearMax := 0, covered := [], silentRun := if j = 1 then Nat.min (t.silentRun + 1) 255 else 0 }

/-- The takeover decision with the link down (R295): the cause it gives, if any. -/
def takeoverCause (s : State) : Option Nat :=
  if ¬ (s.isTwin ∧ (s.role = 2 ∨ s.role = 3)) ∨ s.linkUp then none else
  let gone : Bool := match s.twin.window with
    | some (v, age) => age < 2 && !(v.state = 5 && v.claim.toNat / 2 ^ 24 = 2)
    | none => false
  if gone then some 3
  else if s.fld Fld.TWIN_WITCFG_WCYC ≤ s.twin.silentRun then some 4
  else none

/-- R295 at C(n). -/
def decideTakeover (s : State) : State := match s.takeoverCause with
  | some c => s.planTakeover c
  | none => s

/-! ### The commit point -/

/-- What C(n) does in an ordinary cycle for the tasks. -/
def commitTasks (s : State) : State :=
  let keys := s.readyReleases
  (s.formSet.ageStale keys).setSkips

/-- The steps that follow the timers and the digest in the IVE. -/
def commitIve (s : State) : State := s.writeStatus.closeIve

/-- Every pea that still lags at the commit point is evicted with reason LATE (R83). -/
def evictLagging (s : State) : State :=
  ([PeaId.a, .b, .c].filter fun p => (s.pea p).lagging).foldl (fun (s : State) p => s.evict p 3 true) s

end State

/-- COMMIT_POINT (R37). In the exchange cycle the set is empty, and no stale counter or skip changes (R148). State digests that differ
between the halves of the IVE are its kernel fault (R201). -/
def execCommitPoint (s : State) : Host.Outcome State Fault Refusal :=
  if ¬ s.cyc.running ∨ ¬ s.boot.running ∨ s.com.formed then .next s else
  let s : State := if s.inExchange then
      ((({ s with com := { s.com with formed := true, hres := [] } } : State).podCount 27 1).clearWithdrawn) else s.commitTasks
  let s := s.expireTimers.iveDigestNow
  if s.ive.apart then .next (s.iveFault 6 0) else
  let s := s.commitIve
  let s := if s.inExchange then s else s.decideSupply
  let s := s.endExchange.evictLagging
  let s := ((s.sendStatus.witness).decideTakeover).decideExchange
  .next s.decideSwap

/-! ### The deadline (R36, R59, R129) -/

namespace State

/-- The releases of the present cycle whose END pea `p` has not emitted. -/
def unfinished (s : State) (p : PeaId) : List Nat :=
  ((s.pea p).cur.toList ++ (s.pea p).queue).filterMap fun r => if r.cycle = s.vcyc then some r.slot else none

/-- A pea that has not become idle by D(n) has margin 0 and is marked as overrun (R59). -/
def peaOverrun (s : State) (p : PeaId) : State :=
  let n := peaNum p
  if (s.pea p).cur = none then s else
  let s := ((s.setFld (Fld.PEA_x_STAT_OVERRUN n) 1).setReg (Reg.PEA_x_MARGIN n) 0).setFld (Fld.PEA_x_CMPL_OVR n) 1
  let s := if 0 < (s.reg (Reg.PEA_x_MARGINMIN n)).toInt then s.setReg (Reg.PEA_x_MARGINMIN n) 0 else s
  s.raiseEvt (Page.PEA n) Evt.PEA_OVERRUN

/-- The overrun warning of one slot (R129). -/
def warnOverrun (s : State) (slot : Nat) : State :=
  let s := ((s.addSat (Fld.TASK_STATs_OVRCNT slot) 1).podCount 56 1).raiseEvt Page.TASK Evt.TASK_OVERRUN
  s.raiseRec 0x0404 Page.TASK (w32 slot) [s.vcyc]

end State

/-- TASK_DEADLINE (R129): at D(n). -/
def execTaskDeadline (s : State) : Host.Outcome State Fault Refusal :=
  if ¬ s.cyc.running ∨ ¬ s.boot.running then .next s else
  let slots := (List.range 32).filter fun i => s.serving.any fun p => (s.unfinished p).contains i
  let s := s.serving.foldl State.peaOverrun s
  let s := (s.setReg Reg.TASK_OVRVEC (State.slotVec slots))
  let s := slots.foldl State.warnOverrun s
  let vital := slots.any fun i => i < 8
  .next (if vital then { s with cyc := { s.cyc with overran := true } } else s)

end Sys2Proof.Machine
end

