-- ==== Sys2Proof/Machine/Cycle.lean ====
section
/-! DEFINITION. The vital cycle boundary tV(n) (R27 to R30, R35, R127, R131, R132) and the boundary of the exchange cycle (R148), with all
that the spec decides or applies there. -/

namespace Sys2Proof.Machine

namespace State

/-! ### The cycle begins -/

/-- The cycle whose boundary comes next: the first boundary takes the number that START or the partner gave (R30). -/
def nextCycle (s : State) : Word := if s.boot.running then s.vcyc + 1 else s.vcyc

/-- The setpoint decided at the commit point is applied (R60). -/
def applySetpoint (s : State) : State := match s.cyc.dvsNext with
  | none => s
  | some v =>
    let s : State := { s with cyc := { s.cyc with dvsNext := none } }
    if s.fld Fld.PWR_VCORE_SET = v then s else (s.setFld Fld.PWR_VCORE_SET v).podCount 59 1

/-- Cycle `n` begins, and the outputs take the commit set of the cycle before it (R40). -/
def beginCycle (s : State) (n : Word) : State :=
  ({ s with cyc := { s.cyc with n := n, i := 0, ringOn := false, tick0 := s.ticks, overran := false },
            boot := { s.boot with running := true },
            com := { s.com with applied := s.com.committed, formed := false } } : State).applySetpoint

/-- `VOTE_TOKENS`: the tokens released in the cycle that has ended. -/
def showTokens (s : State) : State :=
  ({ s with pod := { s.pod with cycleTokens := 0 } } : State).setReg Reg.VOTE_TOKENS (w32 s.pod.cycleTokens)

/-- The result of an HRES token that a commit set carried, for the session that ordered its request (R318). -/
def finishRequest (s : State) (t : Released) (code : Nat) : State :=
  let session := bitsOf 31 28 t.p0.toNat
  match s.journalOf t.p1 with
  | none => s
  | some e =>
    let s := if session = e.session then s
      else s.raiseRec 0x0407 Page.TASK t.p1 [w32 session, w32 e.session, w32 (tagTask t.tag)]
    let result := bitsOf 15 0 t.p0.toNat
    if s.undecided e then s.respond e.session t.p1 0 (BitVec.ofNat 8 code) result else s.lateResult t.p1 result

/-- An HRES token passes through the vital-to-service buffer (R86, R352): one that is dropped leaves its request without a result. -/
def passHres (s : State) (x : Released × Nat) : State :=
  if 3584 ≤ s.fld Fld.BRG_VTS_NOW then
    ((s.addSat Fld.BRG_VTSDROP_DROP 1).podCount 62 1).raiseEvt Page.BRG Evt.BRG_VTSFULL
  else
    let s := s.addSat Fld.BRG_VTS_NOW 1
    (s.raiseMax Fld.BRG_VTS_MAX (s.fld Fld.BRG_VTS_NOW)).finishRequest x.1 x.2

/-- The HRES tokens of the last commit set (R318). -/
def passResults (s : State) : State :=
  s.com.hres.foldl passHres { s with com := { s.com with hres := [] } }

/-! ### Twin operation at a boundary -/

/-- A unit that the partner armed, and that has had no GO, disarms and takes UNSYNCED (R146). -/
def missedGo (s : State) (n : Word) : State := match s.xch.armed with
  | some a =>
    if a.byPartner ∧ ¬ a.go ∧ a.x = n then
      let s := s.setArmed none
      s.planRole 2 8 0
    else s
  | none => s

/-- A joiner in CATCHUP latches its block digests, and compares them with the donor's of the cycle that has ended (R291, R292). -/
def latchDigests (s : State) (n : Word) : State :=
  if ¬ (s.role = 1 ∧ s.fld Fld.TWIN_XFER_PHASE = 3) then s else
  let s := s.setTwin { s.twin with xferLatch := s.blockDigests }
  match s.twin.xferBdig with
  | some (m, d) => if m + 1 = n then s.catchup n d else s
  | none => s

/-- A transfer in progress counts its cycles. -/
def countXfer (s : State) : State :=
  if s.xferring then (s.addSat Fld.TWIN_XFER_CYCLES 1).setTwin { s.twin with xferRun := s.twin.xferRun + 1 } else s

/-- How long the partner has been STANDBY with the link up (R281, R419). -/
def countStandby (s : State) : State :=
  s.setTwin { s.twin with standbyRun := if s.partnerStandby then s.twin.standbyRun + 1 else 0 }

/-- The active unit sends SYNC (R284). -/
def sendSync (s : State) (n : Word) : State :=
  if s.isTwin ∧ s.isActive then s.twinSend (.sync n 0 s.now s.ringCycle) else s

/-- The source that a unit aligns itself by (R285, R286): SYNC while the link is up; else the active unit's frames on the rings; else its
own timebase. The boundary takes the steering that the last error asks for. -/
def alignCycle (s : State) : State :=
  let s := if s.isActive ∨ s.role = 0 then s.setFld Fld.TWIN_ALIGN_SRC 2
    else if s.linkUp then s.setFld Fld.TWIN_ALIGN_SRC 0
    else match median ([0, 1, 2, 3].filterMap fun r => (s.port r).measured) with
      | some e => s.noteAlign e 1
      | none => s.setFld Fld.TWIN_ALIGN_SRC 2
  let s := [0, 1, 2, 3].foldl (fun (s : State) r => s.setPort r { s.port r with measured := none }) s
  ({ s with cyc := { s.cyc with steer := s.twin.steer } } : State).setTwin { s.twin with steer := 0 }

/-- What a twin unit does at the boundary of cycle `n`. -/
def twinBoundary (s : State) (n : Word) : State :=
  if ¬ s.isTwin then s else
  let s := ((s.linkCycle.alignCycle.digestCycleEnd).missedGo n).roleCycle
  (((s.latchDigests n).countXfer).countStandby).sendSync n

/-! ### The sleep decision (R407) -/

/-- An enabled wake source has fired since the request, or fires now. -/
def wakeRaced (s : State) : Bool := s.boot.woke != 0 || (s.pins.wake && s.flag Fld.PWR_WAKEEN_PIN)

/-- A sleep request taken at tV(n) is decided at tV(n+1). -/
def decideSleep (s : State) : State := match s.boot.sleep with
  | none => s
  | some op =>
    let st := w32 s.opState
    let s : State := { s with boot := { s.boot with sleep := none } }
    let s := (s.setFld Fld.PWR_SLEEP_OP 0).raiseEvt Page.PWR Evt.PWR_SLEEP
    let s := s.raiseRec 0x0801 Page.PWR st [st]
    let done := fun (s : State) (r : Nat) => ({ s with boot := { s.boot with woke := 0 } } : State).setFld Fld.PWR_SLEEP_RESULT r
    if op = 2 ∧ bitsOf 2 0 (s.reg Reg.PWR_WAKEEN).toNat = 0 then done s 3
    else if s.wakeRaced then done s 2
    else (done s 1).enterShutdown op

/-- SAFE cause 9: the start that ended in RUN left it to be entered at the first boundary (R217). -/
def deferredSafe (s : State) : State :=
  if s.boot.safe9 then ({ s with boot := { s.boot with safe9 := false } } : State).enterSafe 9 0 false else s

/-- Run a step of the boundary only while cycles run. -/
def whileRunning (s : State) (f : State → State) : State := if s.cyc.running then f s else s

/-- What every boundary does before its image is taken. -/
def boundary (s : State) (n : Word) : State :=
  let s := ((s.beginCycle n).showTokens.passResults).whileRunning fun s => s.twinBoundary n
  let s := (s.whileRunning activationBoundary).whileRunning fun s => ((s.startRotation.rejoinCycle).scrubCycle).boundaryTime
  (s.whileRunning deferredSafe).whileRunning decideSleep

/-! ### Skips (R131, R132) -/

/-- The skip counter of slot `i` at the boundary of cycle `n`, before and after. -/
def skipsAfter (s : State) (n : Word) (i : Nat) : Nat :=
  let skipped := s.pod.skipVec.contains i
  let old := s.fld (Fld.TASK_STATs_SKIPS i)
  let more := if s.taskActive i then Nat.min (old + 1) 255 else 1
  if s.taskEvent i then (if skipped then more else 0)
  else if ¬ s.taskDue i n then old
  else if skipped then more
  else 0

/-- A skip at this boundary: an event task's at every boundary at which it stands in the skip vector, a periodic task's where it is due. -/
def skippedNow (s : State) (n : Word) (i : Nat) : Bool := s.pod.skipVec.contains i && (s.taskEvent i || s.taskDue i n)

/-- Count the skip of slot `i`. -/
def countSkip (n : Word) (s : State) (i : Nat) : State :=
  if ¬ s.taskPresent i then s else
  let skipped := s.skippedNow n i
  let s := s.setFld (Fld.TASK_STATs_SKIPS i) (s.skipsAfter n i)
  if ¬ skipped then s
  else if s.flag (Fld.TASK_CFGs_VITAL i) then (s.raiseEvt Page.TASK Evt.TASK_SKIP).podCount 57 1
  else s.raiseEvt Page.TASK Evt.TASK_NV_SKIP

/-- The vital tasks whose third skip in a row falls at this boundary. -/
def thirdSkips (s : State) (n : Word) : List Nat := (List.range 32).filter fun i =>
  s.taskPresent i && s.flag (Fld.TASK_CFGs_VITAL i) && s.skippedNow n i && s.taskActive i &&
    decide (3 ≤ s.fld (Fld.TASK_STATs_SKIPS i))

/-- The skips of the boundary of cycle `n`, and the SAFE entry that a third one gives. -/
def skipCycle (s : State) (n : Word) : State :=
  let s := ((List.range 32).foldl (countSkip n) s).setReg Reg.TASK_SKIPVEC (slotVec s.pod.skipVec)
  match s.thirdSkips n with
  | [] => s
  | i :: is =>
    let s := (s.setReg Reg.TASK_SAFE (w32 (2 ^ 31 + i))).setReg Reg.TASK_SAFECYC n
    let s := (s.raiseRec 0x0405 Page.TASK (w32 i) [n, slotVec (i :: is)]).raiseEvt Page.TASK Evt.TASK_THREE_SKIP
    s.enterSafe 3 0 false

/-! ### Requests of module kinds in an image (R296, R339) -/

/-- The RV fields of a register cover every bit of the mask. -/
def maskInside (a mask : Nat) : Bool := (List.range 32).all fun b =>
  !mask.testBit b || (fieldsOf a).any fun f => f.access = .rv && f.lo ≤ b && b ≤ f.hi

/-- What a new value of an RV field sets going. -/
def afterRv (s : State) (a : Nat) (old : Word) : State :=
  let s := [0, 1, 2, 3].foldl (fun (s : State) r =>
    if a ≠ Reg.RNG_x_CTRL r then s
    else
      let was : Bool := old.toNat.testBit 0
      let now := s.flag (Fld.RNG_x_CTRL_HALT r)
      if now ∧ ¬ was then s.haltRing r else if was ∧ ¬ now then s.unhaltRing r else s) s
  if a = Reg.PWR_SLEEP ∧ s.fld Fld.PWR_SLEEP_OP ≠ 0 then
    { s with boot := { s.boot with sleep := some (s.fld Fld.PWR_SLEEP_OP), woke := 0 } }
  else if a = Reg.TIME_CTRL ∧ ¬ s.flag Fld.TIME_CTRL_PPS_EN then s.setClock { s.clock with lastPps := none }
  else s

/-- An RVWRITE request is decided (R339), with the refusal code or 0. -/
def rvWrite (s : State) (a mask value : Nat) : State × Nat :=
  if ¬ isReg a then (s, 0x41)
  else if ¬ maskInside a mask then (s, 0x42)
  else
    let old := s.reg a
    let new := (old &&& ~~~(w32 mask)) ||| (w32 value &&& w32 mask)
    if badEncoding a new.toNat (fun x => x = .rv) then (s, 0x43)
    else ((s.setReg a new).afterRv a old, 0)

/-- A request of an image that is decided at tV(n) before any release: FORCE (R158), RESTRICT_END (R296), RVWRITE (R339). -/
def decideInImage (s : State) (r : ReqRec) : State :=
  if r.kind = 0x81 then s.decideForce r
  else if r.kind = 0x86 then (s.setFld Fld.TWIN_STAT_RESTRICT 0).respond r.session r.num 0 0 0
  else if r.kind = 0x87 then
    let (s, c) := s.rvWrite (r.params.getD 0 0).toNat (r.params.getD 1 0).toNat (r.params.getD 2 0).toNat
    s.respond r.session r.num (if c = 0 then 0 else 0x0F) 0 c
  else s

/-- The cycle takes its image, and the requests of module kinds that it carries are decided. -/
def takeImageAt (s : State) (late : Bool) (bad : List PeaId) : State :=
  let (s, delivered) := s.takeCycleImage late bad
  let s := if delivered then s.cyc.image.reqs.foldl decideInImage s else s
  s.iveTakesImage

/-- A unit that takes a transfer releases tasks from CATCHUP on (R290). -/
def releases (s : State) : Bool := s.role != 1 || decide (3 ≤ s.fld Fld.TWIN_XFER_PHASE)

/-! ### The exchange cycle (R148) -/

/-- R143: a pea that had not verified the staged image at C(X−1) is OUT at tV(X) and goes on to its self-test, or goes on with the test or
retest it is in; one that was in REJOIN then and had verified begins its re-join anew after cycle X. -/
def leaveUnverified (s : State) (ready joining : List PeaId) (p : PeaId) : State :=
  if ready.contains p then
    if joining.contains p then
      { s with pod := { s.pod with rejoin := s.pod.rejoin.map fun r => { r with wait := true, joined := false, mayCompare := false } } }
    else s
  else
    let s := s.setPea p { s.pea p with behind := true }
    if ¬ s.inService p ∧ s.peaState p ≠ 7 then s else
    let served := s.inService p
    let s := if s.peaState p = 7 then s.endRejoin p false else s
    let s := s.setPea p { s.pea p with phase := .test, testAt := s.ticks, dr := [], cur := none, queue := [], lagging := false, digestDue := false }
    let s := (s.setPeaState p 6).setFld (Fld.PEA_x_STAT_IN_SERVICE (peaNum p)) 0
    let s := (s.setFld (Fld.PEA_x_DRFILL_NOW (peaNum p)) 0).showPod
    if served then s.afterEvict p else s

/-- The image of cycle X is taken by the IVE alone, and its requests pass on (R152, R153, R156). -/
def exchangeImage (s : State) : State :=
  let old := s.cyc.image
  let s : State := match s.nextImage with
    | some img => if s.cyc.imgCause = 0 then
        { s with cyc := { s.cyc with image := { img with reqs := [] }, changed := changedControllers old img false,
                                     carried := s.cyc.carried ++ img.reqs } }
      else { s with cyc := { s.cyc with image := Img.aged old, carried := s.cyc.carried ++ img.reqs } }
    | none => { s with cyc := { s.cyc with image := Img.aged old } }
  let s : State := { s with cyc := { s.cyc with waiting := none, imgCause := 0 }, twin := { s.twin with rxImage := none } }
  s.iveTakesImage

/-- The switch of cycle X. -/
def exchangeAt (s : State) (old new : Program) : State :=
  let s := s.exchangeSwitch old new
  let (ready, joining) := (s.xch.ready, s.xch.joining)
  let s := [PeaId.a, .b, .c].foldl (fun (s : State) p => s.leaveUnverified ready joining p) s
  let s : State := { s with pod := { s.pod with skipVec := [] } }
  let s := s.serving.foldl (fun (s : State) p => s.setPea p { s.pea p with scrubDone := false }) s
  let s := (s.setReg Reg.TASK_RELVEC 0).setReg Reg.TASK_SKIPVEC 0
  s.whileRunning exchangeImage

/-- LINK of every port: code groups are received on its IN (R272). -/
def showLinks (s : State) (dark : List (Fin 4)) : State :=
  [0, 1, 2, 3].foldl (fun (s : State) (r : Nat) => s.setFld (Fld.RNG_x_STAT_LINK r) (b2n (!(dark.any fun d => d.val = r)))) s

end State

/-- VITAL_CYCLE_BOUNDARY: tV(n) of an ordinary cycle.  `bad` names the peas in which the CRC of the image fails (R35,
R54). -/
def execVitalCycleBoundary (b : BoundarySight) (bad : List PeaId) (s : State) : Host.Outcome State Fault Refusal :=
  let n := s.nextCycle
  if ¬ s.cyc.running ∨ s.exchangeDue n then .next s else
  let s := ((s.showLinks b.dark).boundary n).whileRunning fun s => s.skipCycle n
  let s := s.whileRunning fun s => s.takeImageAt b.late bad
  .next (s.whileRunning fun s => if s.releases then s.releaseCycle n else s)

/-- EXCHANGE_CYCLE (R148): tV(X). -/
def execExchangeCycle (s : State) : Host.Outcome State Fault Refusal :=
  let n := s.nextCycle
  if ¬ s.cyc.running ∨ ¬ s.exchangeDue n then .next s else
  let s := s.boundary n
  match s.prog, s.xch.staged with
  | some old, some new => .next (s.whileRunning fun s => s.exchangeAt old new)
  | _, _ => .next s

end Sys2Proof.Machine
end

