-- ==== Sys2Proof/Machine/HostNet.lean ====
section
/-! DEFINITION. The host ports as hosts on a network see them: link, addresses, and the protocols that a port answers (R301 to R303). -/

namespace Sys2Proof.Machine

/-- The IPv6 link-local address formed from a MAC address as a modified EUI-64 identifier (R302); byte 0 of the MAC is the most significant
of `HSTx_MACHI`. -/
def linkLocal6 (hi lo : Nat) : BitVec 128 :=
  let b0 := hi / 256 % 256 ^^^ 2
  BitVec.ofNat 128 (0xFE80 * 2 ^ 112 + b0 * 2 ^ 56 + hi % 256 * 2 ^ 48 + lo / 2 ^ 24 % 256 * 2 ^ 40 + 0xFFFE * 2 ^ 24 + lo % 2 ^ 24)

namespace State

/-- The port is supplied and its link is up: in SPROUT only H0 is active (R420), in PARKED only the port that wakes (R408). -/
def linkOn (s : State) (x : Fin 2) : Bool :=
  s.flag (Fld.HSTx_STAT_LINK x) && s.opState != 0 && !(s.opState = 1 && x = 1) &&
    !(s.opState = 9 && s.fld Fld.PWR_PARKPORT_PORT != (x : Nat))

/-- The port's IPv4 address, 0 where there is none. -/
def ip4 (s : State) (x : Fin 2) : Word :=
  if s.opState = 1 then (if x = 0 then Config.linkLocal4 s.nv.serial else 0) else s.reg (Reg.HSTx_IP4 x)

/-- The port's IPv6 global address. -/
def ip6 (s : State) (x : Fin 2) : BitVec 128 :=
  s.reg (Reg.HSTx_IP6i x 0) ++ s.reg (Reg.HSTx_IP6i x 1) ++ s.reg (Reg.HSTx_IP6i x 2) ++ s.reg (Reg.HSTx_IP6i x 3)

/-- The IPv6 addresses of a port that are in use. -/
def using6 (s : State) (x : Fin 2) : List (BitVec 128) :=
  (if s.flag (Fld.HSTx_STAT_V6 x) then [s.ip6 x] else []) ++
    (if s.hosts.linkLocal.contains (x : Nat) then
      [linkLocal6 (s.reg (Reg.HSTx_MACHI x)).toNat (s.reg (Reg.HSTx_MACLO x)).toNat] else [])

/-- An address is the port's own, and in use. -/
def ownAddr (s : State) (x : Fin 2) : IpAddr → Bool
  | .v4 a => a != 0 && a = s.ip4 x
  | .v6 a => (s.using6 x).contains a

/-- Put a message to the network out. -/
def emit (s : State) (o : OutMsg) : State := { s with out := o :: s.out }

/-- A frame that a port ignores is counted (R303). -/
def ignore (s : State) (x : Fin 2) : State := s.dropOhp x

/-- The link of a port has gone up: addresses that need no test are in use, and the announcements of R303 are sent. -/
def linkGoesUp (s : State) (x : Fin 2) : State :=
  let was := s.flag (Fld.HSTx_STAT_LINK x)
  let s := (s.setFld (Fld.HSTx_STAT_LINK x) 1).setFld (Fld.HSTx_STAT_FDX x) 1
  let s := if was then s else s.raiseEvt (Page.HST x) Evt.HST_LINK
  let s := s.setFld (Fld.HSTx_STAT_V4 x) (b2n (s.ip4 x ≠ 0))
  let s := if s.ip4 x = 0 then s else s.emit (.gratuitousArp x (s.ip4 x))
  s.emit (.mldReport x)

/-- The link of a port is down; every IPv6 address is to be tested anew. -/
def linkGoesDown (s : State) (x : Fin 2) : State :=
  let was := s.flag (Fld.HSTx_STAT_LINK x)
  let s := (s.setReg (Reg.HSTx_STAT x) (s.reg (Reg.HSTx_STAT x) &&& 0x80000000))
  let s : State := { s with hosts := { s.hosts with linkLocal := s.hosts.linkLocal.filter (· != (x : Nat)) } }
  if was then s.raiseEvt (Page.HST x) Evt.HST_LINK else s

end State

/-- HOST_LINK_CHANGE (R301): a link that resolves to half duplex is held down. -/
def execHostLinkChange (x : Fin 2) (up fdx : Bool) (s : State) : Host.Outcome State Fault Refusal :=
  if s.opState = 0 ∨ (s.opState = 1 ∧ x = 1) ∨ (s.opState = 9 ∧ s.fld Fld.PWR_PARKPORT_PORT ≠ x) then .next s
  else if ¬ up then .next (s.linkGoesDown x)
  else if ¬ fdx then .next ((s.linkGoesDown x).raiseEvt (Page.HST x) Evt.HST_HALFDUP)
  else .next (s.linkGoesUp x)

/-- ARP_REQUEST (R303). -/
def execArpRequest (x : Fin 2) (target : Word) (s : State) : Host.Outcome State Fault Refusal :=
  if ¬ s.linkOn x then .next s
  else if target ≠ 0 ∧ target = s.ip4 x then .next (s.emit (.arpReply x target))
  else .next (s.ignore x)

/-- ICMP_ECHO_REQUEST (R303): answered with up to 64 data bytes, at most 10 times per second per port. -/
def execIcmpEchoRequest (x : Fin 2) (dst src : IpAddr) (data : List Byte) (s : State) : Host.Outcome State Fault Refusal :=
  let recent := s.hosts.echoes.filter fun e => s.now < e.2 + 1000000000
  let mine := (recent.filter fun e => e.1 = (x : Nat)).length
  if ¬ s.linkOn x then .next s
  else if s.opState = 9 ∨ ¬ s.ownAddr x dst ∨ 64 < data.length ∨ 10 ≤ mine then .next (s.ignore x)
  else
    let s : State := { s with hosts := { s.hosts with echoes := ((x : Nat), s.now) :: recent } }
    .next (s.emit (.echoReply x src data))

/-- NEIGHBOUR_SOLICITATION (R303). -/
def execNeighbourSolicitation (x : Fin 2) (target : BitVec 128) (s : State) : Host.Outcome State Fault Refusal :=
  if ¬ s.linkOn x then .next s
  else if s.ownAddr x (.v6 target) then .next (s.emit (.neighbourAdvertisement x target))
  else .next (s.ignore x)

/-- MLD_QUERY (R303). -/
def execMldQuery (x : Fin 2) (s : State) : Host.Outcome State Fault Refusal :=
  if ¬ s.linkOn x then .next s
  else if s.opState = 9 then .next (s.ignore x)
  else .next (s.emit (.mldReport x))

/-- DUPLICATE_ADDRESS_DETECTION (R302): the test of the link-local or of the global address ends. -/
def execDuplicateAddressDetection (x : Fin 2) (linkLocal duplicate : Bool) (s : State) : Host.Outcome State Fault Refusal :=
  if ¬ s.linkOn x then .next s
  else if duplicate then
    let s := if linkLocal then { s with hosts := { s.hosts with linkLocal := s.hosts.linkLocal.filter (· != (x : Nat)) } }
      else s.setFld (Fld.HSTx_STAT_V6 x) 0
    .next (s.raiseEvt (Page.HST x) Evt.HST_DAD)
  else if linkLocal then
    .next { s with hosts := { s.hosts with linkLocal := s.hosts.linkLocal.filter (· != (x : Nat)) ++ [(x : Nat)] } }
  else .next (s.setFld (Fld.HSTx_STAT_V6 x) (b2n (s.ip6 x ≠ 0)))

/-- IGNORED_FRAME (R303, R306): a frame of an ignored protocol is discarded and counted; an OHP message of a reserved type is refused with
BAD_FORMAT. -/
def execIgnoredFrame (x : Fin 2) (f : Ignored) (s : State) : Host.Outcome State Fault Refusal :=
  if ¬ s.linkOn x then .next s else
  match f with
  | .frame => .next (s.ignore x)
  | .reservedType m t => .next (s.receive m t [] false true id)

end Sys2Proof.Machine
end

