-- ==== Sys2Proof/Machine/Ive.lean ====
section
/-! DEFINITION. The IVE's decisions (R182 to R190): one command for each category of token, deciding the token at the head of
the IVE's input if it is of that category, the scrub (R168) and the expiry of route timers. -/

namespace Sys2Proof.Machine

/-- Object, P0 [15:8] and the route field of a token. -/
def tokObj (t : Released) : Nat := bitsOf 31 16 t.p0.toNat
def tokArg (t : Released) : Nat := bitsOf 15 8 t.p0.toNat
def tokRoute (t : Released) : Nat := bitsOf 31 16 t.p1.toNat

/-- IVE_LOCK (R184). -/
def execIveLock (h : IveCheck) (s : State) : Host.Outcome State Fault Refusal :=
  .next <| s.iveDecide (fun t => tagKind t.tag = 3) h fun t s =>
    let r := tokObj t
    let v := tokArg t
    let tb := s.ive.tables
    let w := 8 + 2 * ((tblRoutes tb + 31) / 32) + 3 * (rS tb r + rP tb r + rF tb r + maxVariant tb r)
    let code := s.ive.lockCode r v
    let s := s.checkTime 3 w true
    if code ≠ 0 then s.iveRefuse t code
    else ((s.setIve (s.ive.lock r v t.p1)).showHold).iveAccept t

/-- IVE_POINT (R185): a token that moves a point. -/
def execIvePoint (h : IveCheck) (s : State) : Host.Outcome State Fault Refusal :=
  .next <| s.iveDecide (fun t => tagKind t.tag = 1 && !s.lightToken t) h fun t s =>
    let code := s.ive.pointCode (tokObj t) (tokArg t) (tokRoute t)
    let s := s.checkTime 1 10 true
    if code ≠ 0 then s.iveRefuse t code
    else (s.setIve (s.ive.setPoint (tokObj t) { s.ive.point (tokObj t) with commanded := tokArg t })).iveAccept t

/-- IVE_SIGNAL (R186, R187): a token that asks for a proceed aspect. -/
def execIveSignal (h : IveCheck) (s : State) : Host.Outcome State Fault Refusal :=
  .next <| s.iveDecide (fun t => tagKind t.tag = 2 && !s.lightToken t) h fun t s =>
    let u := tokRoute t
    let tb := s.ive.tables
    let w := 8 + 2 * (rS tb u + rP tb u + rF tb u + maxVariant tb u) + 2 * rL tb u
    let code := s.ive.signalCode (tokObj t) (tokArg t) u
    let s := s.checkTime 2 w true
    if code ≠ 0 then s.iveRefuse t code else s.iveAccept t

/-- IVE_LIGHT_CHECK (R183): hold, stop, or a position already commanded and detected; it always ends in acceptance. -/
def execIveLightCheck (h : IveCheck) (s : State) : Host.Outcome State Fault Refusal :=
  .next <| s.iveDecide s.lightToken h fun t s =>
    let s := s.checkTime (tagKind t.tag) 4 false
    let s := if tagKind t.tag = 1 then
        s.setIve (s.ive.setPoint (tokObj t) { s.ive.point (tokObj t) with commanded := tokArg t }) else s
    s.iveAccept t

/-- A RELEASE token's common tests, then its mode (R188). -/
def iveRelease (modes : Nat → Bool) (h : IveCheck) (s : State) (w : Released → Nat → Nat) (body : Released → Nat → State → Nat × State) :
    State :=
  s.iveDecide (fun t => tagKind t.tag = 4 && modes (tokArg t)) h fun t s =>
    let r := tokObj t
    let code := s.ive.releaseCode r (s.proceedWaits (rEntry s.ive.tables r))
    let s := s.checkTime 4 (w t r) true
    if code ≠ 0 then s.iveRefuse t code
    else
      let (code, s') := body t r s
      if code ≠ 0 then s.iveRefuse t code else s'.showHold.iveAccept t

/-- The words that a CANCEL or EMERGENCY decision reads (R196). -/
def releaseWords (s : State) (r : Nat) : Nat :=
  let t := s.ive.tables
  8 + 2 * rA t r + 2 * rS t r + 3 * (rS t r + rP t r + rF t r + maxVariant t r)

/-- The element position of a NORMAL release, and its section. -/
def tokElem (t : Released) : Nat := bitsOf 7 0 t.p0.toNat
def elemSection (tb : List Word) (r e : Nat) : Nat := (rElem tb r (8 + e)).obj

/-- The words that a NORMAL decision reads (R196). -/
def normalWords (s : State) (t : Released) (r : Nat) : Nat :=
  let d := elemSection s.ive.tables r (tokElem t)
  12 + 3 * ((s.ive.routePoints r).filter fun x => s.ive.hasHold r x.obj && detection s.ive.tables x.obj = d).length

/-- IVE_RELEASE_NORMAL (R188): mode 0; a mode other than 0, 1 or 2 is refused with BAD_MODE. -/
def execIveReleaseNormal (h : IveCheck) (s : State) : Host.Outcome State Fault Refusal :=
  .next <| iveRelease (fun m => m != 1 && m != 2) h s (normalWords s) fun t r s =>
    let e := tokElem t
    if tokArg t ≠ 0 then (0x10, s)
    else
      let code := s.ive.normalCode r e
      if code ≠ 0 then (code, s) else (0, s.setIve (s.ive.releaseNormal r e s.vcyc s.tvMs))

/-- IVE_RELEASE_CANCEL (R188): mode 1. -/
def execIveReleaseCancel (h : IveCheck) (s : State) : Host.Outcome State Fault Refusal :=
  .next <| iveRelease (· = 1) h s (fun _ => releaseWords s) fun _ r s =>
    if (s.ive.route r).state ≠ 2 then (0x02, s)
    else if s.ive.cancelFree r then (0, s.setIve (s.ive.free r))
    else (0, (s.setIve (s.ive.startTimer r 4 s.vcyc (Ive.presetCycles (rApproach s.ive.tables r) s.tvMs))).raiseEvt
      Page.IVE Evt.IVE_APPROACH)

/-- IVE_RELEASE_EMERGENCY (R188): mode 2. -/
def execIveReleaseEmergency (h : IveCheck) (s : State) : Host.Outcome State Fault Refusal :=
  .next <| iveRelease (· = 2) h s (fun _ => releaseWords s) fun t r s =>
    if t.p1 = 0 then (0x12, s)
    else
      let s := s.setIve (s.ive.startTimer r 6 s.vcyc (Ive.presetCycles (rApproach s.ive.tables r) s.tvMs))
      (0, (s.raiseRec 0x0203 Page.IVE (w32 r) [t.p1]).raiseEvt Page.IVE Evt.IVE_EMERGENCY)

/-- IVE_TIMER_EXPIRY (R190 step 3): the timers due at the next boundary expire, at most 8, in route number order. -/
def execIveTimerExpiry (s : State) : Host.Outcome State Fault Refusal := .next s.expireTimers

/-- IVE_SCRUB (R168): what a stretch of the scrub finds. -/
def execIveScrub (f : IveFinding) (s : State) : Host.Outcome State Fault Refusal :=
  if ¬ s.flag Fld.IVE_CTRL_SCRUB_EN then .next s else
  match f with
  | .clean passes corrected =>
    let s := (s.addSat Fld.IVE_SCRUB_PASSES passes).addSat Fld.IVE_SCRUB_CORR corrected
    .next (if 0 < corrected then s.raiseEvt Page.IVE Evt.IVE_SCRUB_CORR else s)
  | .difference => .next (s.iveFault 1 0)
  | .badTable half => .next (s.iveFault 2 half)
  | .badState half => .next (s.iveFault 3 half)

end Sys2Proof.Machine
end

