-- ==== Sys2Proof/Machine/Ring.lean ====
section
/-! DEFINITION. The rows of the Snirin ring (R248 to R267, R280): composition, launch and return of frames, frames of another
master, orders, the relay, and the timers of a port's role. -/

namespace Sys2Proof.Machine

namespace State

/-- The number of the ring cycle that is composed next (R207). -/
def nextRing (s : State) : Word := if s.cyc.ringOn then s.ringCycle + 1 else s.ringCycle

/-- The ring cycle that is composed next begins with a vital cycle. -/
def composesBoundary (s : State) : Bool := s.cyc.running && s.cyc.ringOn && s.cyc.i + 1 = s.ringsPerCycle

/-- The claim of the sections composed next: from the composition for a boundary on that of the role taken there (R277, R289, R299). -/
def composedClaim (s : State) : Nat := if s.composesBoundary then s.nextClaim else s.claim

/-- A unit in the role STANDBY that lacks a comparison for the sixteenth cycle is UNSYNCED from the composition for the boundary on
(R289). -/
def settleRole (s : State) : State := if s.composesBoundary ∧ s.lacksComparison then s.planRole 2 8 0 else s

/-- The ports of the unit. -/
def ports : List Nat := [0, 1, 2, 3]

/-- A ring cycle starts: the counts of a port in ring cycles, and the insertion of a port that hears nothing (R254). -/
def portCycle (s : State) (r : Nat) : State :=
  let p := s.port r
  let quiet := Nat.min (p.quiet + 1) 1000
  let dead := s.ringRole r = 1 && !s.inserted r && !p.excluded && 2 ≤ quiet
  s.setPort r { p with quiet := quiet, sinceStop := p.sinceStop.map (fun n => Nat.min (n + 1) 1000),
                       foreign := p.foreign.map (fun n => Nat.min (n + 1) 1000),
                       backoffLeft := p.backoffLeft - 1, launched := none,
                       relayGoal := if dead then some true else p.relayGoal }

/-- What a port sends at the start of a ring cycle: the frame of its role, four STOP frames at most. -/
def portLaunch (s : State) (r : Nat) : State :=
  if s.masters r ∧ s.inserted r ∧ ¬ (s.ringRole r = 7 ∧ 4 ≤ (s.port r).frames) then s.launch r else s

/-- The reports of a returned SURVEY frame (R246): position, hops and node serial of each controller that wrote its window. -/
def surveyReports (r : Nat) (f : RingFrame) : List (Nat × Nat × Word) :=
  (List.range f.nwin).filterMap fun p =>
    let w := f.window p
    if sealOk 1 r (ringBranch r * 512 + p) f.rcyc w ∧ bitsOf 1 1 (rb w 27) = 1 then
      some (p, rle w 18 2, w32 (rle w 20 4))
    else none

/-- Insert a report by its hop value. -/
def insertReport (x : Nat × Nat × Word) : List (Nat × Nat × Word) → List (Nat × Nat × Word)
  | [] => [x]
  | y :: rest => if x.2.1 < y.2.1 then x :: y :: rest else y :: insertReport x rest

/-- The reports of the SURVEY frames so far with those of one more; a node that reports again counts once, with its last hop value. -/
def mergeReports (old new : List (Nat × Nat × Word)) : List (Nat × Nat × Word) :=
  (old.filter fun x => !(new.any fun y => x.1 = y.1 && x.2.2 = y.2.2)) ++ new

/-- The reports, sorted by hops, that are out of the order table's order or whose position has reported before (R257). A position that the
order table does not hold is out of its order. -/
def surveyBad (order : List Nat) (reports : List (Nat × Nat × Word)) : List (Nat × Nat × Word) :=
  ((reports.foldl (fun l x => insertReport x l) []).foldl
    (fun (acc : Nat × List Nat × List (Nat × Nat × Word)) x =>
      let i := order.idxOf x.1
      if i < acc.1 ∨ order.length ≤ i ∨ acc.2.1.contains x.1 then (acc.1, acc.2.1, acc.2.2 ++ [x]) else (i + 1, x.1 :: acc.2.1, acc.2.2))
    (0, [], [])).2.2

/-- The counts of a frame's window classes (R263). -/
def countClasses (s : State) (r : Nat) (cs : List WinClass) : State :=
  let count := fun c => (cs.filter (· = c)).length
  let s := (s.setFld (Fld.RNG_x_WIN_UNWRIT r) (count .unwritten)).setFld (Fld.RNG_x_WIN_VALID r) (cs.filter (·.counts)).length
  let s := (s.addSat (Fld.RNG_x_ERR_SEAL r) (count .sealfail)).addSat (Fld.RNG_x_ERR_CMD r) (count .cmdbad + count .echo)
  s.podCount (44 + r) (cs.filter (·.damaged)).length

/-- The windows of a RUN frame that count under R31. -/
def takeWindows (s : State) (r : Nat) (f : RingFrame) (cs : List WinClass) : State :=
  (List.range cs.length).foldl (fun s p =>
    if (cs.getD p .unwritten).counts then s.takeWindow r (ringBranch r * 512 + p) (f.window p) else s) s

/-- A returned RUN or SURVEY frame (R263 to R265). The windows of an invalid frame do not count under R31 (DEDUCED, log entry 76). -/
def returnedFull (s : State) (r : Nat) (f : RingFrame) : State :=
  let cs := s.windowClasses r f
  let s := s.countClasses r cs
  let s := if f.ok r then
      (sectionClaims r f).foldl seeClaim ((if f.type = 3 then s.takeWindows r f cs else s).takeUnitWindow r 1 f)
    else s
  let s := match (s.port r).contain with
    | some c => s.containStep r f cs c
    | none => s
  if s.ringRole r = 4 ∨ s.ringRole r = 5 then s.attributeDamage r f cs else s

end State

/-- RING_CYCLE_START (R248): the start of a ring cycle; every port that masters a ring launches its frame, unless
a supply loss has been declared (R437). -/
def execRingCycleStart (s : State) : Host.Outcome State Fault Refusal :=
  let c := if s.cyc.ringOn then { s.cyc with i := s.cyc.i + 1 } else { s.cyc with ringOn := true }
  let s : State := { s with cyc := c }
  let s := s.setTwin { s.twin with hearNow := 0, window := s.twin.window.map fun w => (w.1, Nat.min (w.2 + 1) 1000) }
  let launch := fun (s : State) (r : Nat) => if s.boot.holdup.isSome then s else s.portLaunch r
  .next (State.ports.foldl (fun (s : State) (r : Nat) => launch (s.portCycle r) r) s)

/-- `OUT_RINGEN`: EN as composed for the rings that the unit masters, 0 for the others. -/
def State.ringEnWord (s : State) : Word :=
  w32 ((State.ports.map fun r => if s.masters r then s.ringEn s.nextRing * 2 ^ (8 * r) else 0).sum)

/-- COMMAND_SECTION_COMPOSE (R207): at tR(j) − 50 µs every command section of the rings that the unit masters is composed. -/
def execCommandSectionCompose (s : State) : Host.Outcome State Fault Refusal :=
  let s := s.settleRole
  let tx := fun (r : Nat) => (List.range (s.branchWindows (State.ringBranch r))).map fun q =>
    s.commandSection s.composedClaim (State.ringBranch r * 512 + q) s.nextRing
  let t := State.ports.foldl (fun (t : State) r => if s.masters r then t.setPort r { t.port r with tx := tx r } else t) s
  .next (t.setReg Reg.OUT_RINGEN s.ringEnWord)

/-- FRAME_RETURN (R249, R263): the master's own frame comes back before the close point, with a valid trailer check. -/
def execFrameReturn (r : Fin 4) (x : RingRx) (s : State) : Host.Outcome State Fault Refusal :=
  let r := r.val
  let f := x.frame
  match (s.port r).launched with
  | none => .next s
  | some t0 =>
    if ¬ f.trailerOk ∨ (f.headerOk r ∧ f.rcyc ≠ s.ringCycle) ∨ ¬ s.masters r then .next s else
    let s := s.noteDrift r x
    let us := Nat.min ((s.ticks - t0) / 25) 65535
    let s := (s.setFld (Fld.RNG_x_ROT_LAST r) us).raiseMax (Fld.RNG_x_ROT_MAX r) us
    let s := (s.setFld (Fld.RNG_x_HOPS_SEEN r) f.hops).podCount (36 + r) 1
    let s := if f.ok r then s.heardValid r f else s
    let p := s.port r
    let s := s.setPort r { p with launched := none }
    match s.ringRole r with
    | 2 => .next (s.setPort r { p with launched := none, coldBack := p.coldBack + 1, coldRun := p.coldRun + 1 })
    | 4 =>
      let more := if f.ok r then State.surveyReports r f else []
      .next ((s.setPort r { p with launched := none, survey := State.mergeReports p.survey more }).returnedFull r f)
    | 5 => .next (s.returnedFull r f)
    | _ => .next s

/-- COLD_FRAME (R255, R256). -/
def execColdFrame (r : Fin 4) (f : RingRx) (s : State) : Host.Outcome State Fault Refusal :=
  .next (s.ringRx r 1 f fun s => s.yieldTo r f.frame)

/-- SURVEY_FRAME (R257): forwarded, with the unit's window. -/
def execSurveyFrame (r : Fin 4) (f : RingRx) (s : State) : Host.Outcome State Fault Refusal :=
  .next (s.ringRx r 2 f fun s => s.takeUnitWindow r 0 f.frame)

/-- RUN_FRAME (R249, R259): a unit that is not master counts the windows written before the frame reaches it, unless the window
table is foreign. -/
def execRunFrame (r : Fin 4) (f : RingRx) (s : State) : Host.Outcome State Fault Refusal :=
  .next (s.ringRx r 3 f fun s =>
    let s := (s.yieldTo r f.frame).takeUnitWindow r 0 f.frame
    if s.masters r ∨ f.frame.schedid ≠ (s.reg Reg.RSCH_SCHEDID).toNat then s else
    let cs := State.passingClasses r f.frame
    (s.countClasses r cs).takeWindows r f.frame cs)

/-- STOP_FRAME (R258): forwarded without authority; the 256-cycle limit of R254 starts. -/
def execStopFrame (r : Fin 4) (f : RingRx) (s : State) : Host.Outcome State Fault Refusal := .next (s.ringRx r 4 f id)

/-! ### Orders (R266): the guardian's decoding of one received header -/

/-- BYPASS_ORDER (R266). -/
def execBypassOrder (o : OrderRx) (s : State) : Host.Outcome State Fault Refusal :=
  .next (s.obeyCode o.port o.header 1 fun s => s.obeyBypass o.port)

/-- CUT_NEXT_ORDER (R266): the port sends H for 500 µs after the end delimiter. -/
def execCutNextOrder (o : OrderRx) (s : State) : Host.Outcome State Fault Refusal :=
  .next (s.obeyCode o.port o.header 2 fun s => s.obeyCutNext o.port)

/-- JOIN_ORDER (R266): the exclusion is cleared; the port may insert under R260. -/
def execJoinOrder (o : OrderRx) (s : State) : Host.Outcome State Fault Refusal :=
  .next (s.obeyCode o.port o.header 3 fun s => s.obeyJoin o.port)

/-- CUT_SIGNAL_DETECTED (R266): H without a break for 300 µs. -/
def execCutSignalDetected (r : Fin 4) (s : State) : Host.Outcome State Fault Refusal := .next (s.exclude r)

/-- RELAY_OPERATED (R261): the relay completes the insertion or the bypass under way. -/
def execRelayOperated (r : Fin 4) (s : State) : Host.Outcome State Fault Refusal :=
  match (s.port r).relayGoal with
  | none => .next s
  | some b =>
    let s := (s.setFld (Fld.RNG_x_STAT_INSERTED r) (b2n b)).setPort r { s.port r with relayGoal := none, quiet := 0 }
    .next (if b ∨ s.ringRole r = 8 ∨ s.ringRole r = 0 ∨ s.ringRole r = 9 then s else s.enterListen r)

/-! ### Timers of the roles -/

/-- The ring has been silent as long as R254 asks of a port before it starts the ring: 2 ring cycles for the preferred master, 256 after a
STOP frame, else 8. -/
def State.listenedOut (s : State) (r : Nat) : Bool :=
  let p := s.port r
  if s.prefers r then 2 ≤ p.quiet
  else match p.sinceStop with
    | some n => 256 ≤ n
    | none => 8 ≤ p.quiet

/-- LISTEN_TIMEOUT (R254): the table of LISTEN. -/
def execListenTimeout (r : Fin 4) (s : State) : Host.Outcome State Fault Refusal :=
  if s.ringRole r ≠ 1 then .next s
  else if s.flag (Fld.RNG_x_CTRL_HALT r) then .next (s.setRingRole r 0)
  else if (s.port r).foreign.any (· < 8) then .next (s.setRingRole r 6)
  else if s.inserted r ∧ s.listenedOut r then .next (s.setRingRole r 2) else .next s

/-- PASS_TIMEOUT (R254): 8 ring cycles without a valid frame. -/
def execPassTimeout (r : Fin 4) (s : State) : Host.Outcome State Fault Refusal :=
  .next (if s.ringRole r = 6 ∧ 8 ≤ (s.port r).quiet then s.enterListen r else s)

/-- BACKOFF_END (R255): 4 + (SERIAL mod 8) ring cycles have passed. -/
def execBackoffEnd (r : Fin 4) (s : State) : Host.Outcome State Fault Refusal :=
  .next (if s.ringRole r = 3 ∧ (s.port r).backoffLeft = 0 then s.enterListen r else s)

/-- COLD_TO_SURVEY (R255): two returned in a row with every node counted, or 16 returned. -/
def execColdToSurvey (r : Fin 4) (s : State) : Host.Outcome State Fault Refusal :=
  let p := s.port r
  let all := 2 ≤ p.coldRun && s.fld (Fld.RNG_x_HOPS_SEEN r) = s.fld (Fld.RNG_x_HOPS_EXPECT r)
  .next (if s.ringRole r = 2 ∧ (all ∨ 16 ≤ p.coldBack) then s.setRingRole r 4 else s)

/-- SURVEY_END (R257): controllers out of order are sent BYPASS, and the port enters RUN. -/
def execSurveyEnd (r : Fin 4) (s : State) : Host.Outcome State Fault Refusal :=
  let r := r.val
  if s.ringRole r ≠ 4 ∨ (s.port r).frames < 2 then .next s else
  let bad := State.surveyBad (s.rotated r) (s.port r).survey
  let s := bad.foldl (fun s x =>
    let s := (s.addOrder r 1 x.1).setReg Reg.RSCH_MISMATCH (w32 (2 ^ 31 + r * 2 ^ 28 + x.2.1 % 1024 * 2 ^ 16 + x.1))
    (s.raiseEvt (Page.RNG r) Evt.RNG_SURVEY).raiseEvt Page.RSCH Evt.RSCH_ORDER) s
  .next (s.setRingRole r 5)

/-- STOP_SEQUENCE_END (R258): after the STOP frames the port takes the role that was to follow; in SHUTDOWN_BIST it bypasses (R387). -/
def execStopSequenceEnd (r : Fin 4) (s : State) : Host.Outcome State Fault Refusal :=
  if s.ringRole r ≠ 7 ∨ (s.inserted r ∧ (s.port r).frames < 4) then .next s else
  let after := (s.port r).after
  let s := if after = 1 then s.enterListen r else s.setRingRole r after
  .next (if s.opState = 10 then s.setPort r { s.port r with relayGoal := some false } else s)

/-- HALT (R258): `RNG_x_CTRL.HALT` becomes 1. -/
def execHalt (r : Fin 4) (s : State) : Host.Outcome State Fault Refusal :=
  .next ((s.setFld (Fld.RNG_x_CTRL_HALT r) 1).haltRing r)

/-- READMIT (R267): `RNG_x_READMIT.REQ` becomes 1 with a position; the JOIN order goes with the next header. -/
def execReadmit (r : Fin 4) (pos : BitVec 10) (s : State) : Host.Outcome State Fault Refusal :=
  .next ((s.setFld (Fld.RNG_x_READMIT_REQ r) 1).setFld (Fld.RNG_x_READMIT_POS r) pos.toNat)

/-- RING_HANDBACK (R280): a ring that the partner prefers is handed back, the lower port first. -/
def execRingHandback (r : Fin 4) (s : State) : Host.Outcome State Fault Refusal :=
  let back := fun (q : Nat) => s.ringRole q = 6 && s.reg (Reg.RNG_x_MSERIAL q) = s.reg Reg.TWIN_PSERIAL && (s.port q).heardType = 3
  let earlier := (List.range r.val).all fun q => !(s.ringUsed q) || s.prefers q || back q
  .next (if s.isTwin ∧ ¬ s.prefers r ∧ s.ringRole r = 5 ∧ 100 ≤ s.twin.standbyRun ∧ earlier then s.stopRing r 1 else s)

end Sys2Proof.Machine
end

