-- ==== Sys2Proof/Machine/UbcAlu.lean ====
section
/-! DEFINITION. UBC: integer arithmetic, bit operations, comparisons and vital logic (R107, R113 to R115). -/

namespace Sys2Proof.Machine

/-- d ← f a b in format R, of an instruction that costs `ops` operations. -/
def ubcBin (p : PeaId) (opcode ops : Nat) (w : BitVec 24) (f : Word → Word → Word) (s : State) :
    Host.Outcome State Fault Refusal :=
  runInstr p opcode ops (zero w 5 0)
    (fun x => ubcReg p x (opA w) fun a => ubcReg p x (opB w) fun b => ubcPut p x (opD w) (f a b) ubcDone) s

/-- d ← vital code of f a b over vital Booleans. -/
def ubcVBin (p : PeaId) (opcode : Nat) (w : BitVec 24) (f : Bool → Bool → Bool) (s : State) :
    Host.Outcome State Fault Refusal :=
  runInstr p opcode 1 (zero w 5 0)
    (fun x => ubcVital p x (opA w) fun a => ubcVital p x (opB w) fun b => ubcPut p x (opD w) (vital (f a b)) ubcDone) s

/-- ADD: d ← a + b, saturating. -/
def execAdd (p : PeaId) (w : BitVec 24) (s : State) : Host.Outcome State Fault Refusal :=
  ubcBin p 0x20 1 w (fun a b => sat32 (a.toInt + b.toInt)) s

/-- SUB: d ← a − b, saturating. -/
def execSub (p : PeaId) (w : BitVec 24) (s : State) : Host.Outcome State Fault Refusal :=
  ubcBin p 0x21 1 w (fun a b => sat32 (a.toInt - b.toInt)) s

/-- MUL: d ← a × b, saturating. -/
def execMul (p : PeaId) (w : BitVec 24) (s : State) : Host.Outcome State Fault Refusal :=
  ubcBin p 0x22 2 w (fun a b => sat32 (a.toInt * b.toInt)) s

/-- DIV: d ← a ÷ b, truncated toward 0, saturating; DIVZ for b = 0. -/
def execDiv (p : PeaId) (w : BitVec 24) (s : State) : Host.Outcome State Fault Refusal :=
  runInstr p 0x23 8 (zero w 5 0)
    (fun x => ubcReg p x (opA w) fun a => ubcReg p x (opB w) fun b =>
      ubcCheck (b != 0) 0x07 (ubcPut p x (opD w) (sat32 (Int.tdiv a.toInt b.toInt)) ubcDone)) s

/-- MIN: d ← smaller of a and b, signed. -/
def execMin (p : PeaId) (w : BitVec 24) (s : State) : Host.Outcome State Fault Refusal :=
  ubcBin p 0x24 1 w (fun a b => if b.toInt < a.toInt then b else a) s

/-- MAX: d ← larger of a and b, signed. -/
def execMax (p : PeaId) (w : BitVec 24) (s : State) : Host.Outcome State Fault Refusal :=
  ubcBin p 0x25 1 w (fun a b => if a.toInt < b.toInt then b else a) s

/-- NEG: d ← −a, saturating; b is 0. -/
def execNeg (p : PeaId) (w : BitVec 24) (s : State) : Host.Outcome State Fault Refusal :=
  runInstr p 0x26 1 (zero w 11 0) (fun x => ubcReg p x (opA w) fun a => ubcPut p x (opD w) (sat32 (-a.toInt)) ubcDone) s

/-- ADDI: d ← d + sext(imm), saturating. -/
def execAddi (p : PeaId) (w : BitVec 24) (s : State) : Host.Outcome State Fault Refusal :=
  runInstr p 0x27 1 (zero w 17 16)
    (fun x => ubcReg p x (opD w) fun d => ubcPut p x (opD w) (sat32 (d.toInt + (opImm w).toInt)) ubcDone) s

/-- AND. -/
def execAndOp (p : PeaId) (w : BitVec 24) (s : State) : Host.Outcome State Fault Refusal :=
  ubcBin p 0x28 1 w (fun a b => a &&& b) s

/-- OR. -/
def execOrOp (p : PeaId) (w : BitVec 24) (s : State) : Host.Outcome State Fault Refusal :=
  ubcBin p 0x29 1 w (fun a b => a ||| b) s

/-- XOR. -/
def execXorOp (p : PeaId) (w : BitVec 24) (s : State) : Host.Outcome State Fault Refusal :=
  ubcBin p 0x2A 1 w (fun a b => a ^^^ b) s

/-- SHL: d ← a shifted left by b; 0 if b > 31. -/
def execShl (p : PeaId) (w : BitVec 24) (s : State) : Host.Outcome State Fault Refusal :=
  ubcBin p 0x2B 1 w (fun a b => if 31 < b.toNat then 0 else a <<< b.toNat) s

/-- SHR: d ← a shifted right logically by b; 0 if b > 31. -/
def execShr (p : PeaId) (w : BitVec 24) (s : State) : Host.Outcome State Fault Refusal :=
  ubcBin p 0x2C 1 w (fun a b => if 31 < b.toNat then 0 else a >>> b.toNat) s

/-- CEQ: d ← 1 if a = b, else 0. -/
def execCeq (p : PeaId) (w : BitVec 24) (s : State) : Host.Outcome State Fault Refusal :=
  ubcBin p 0x30 1 w (fun a b => if a = b then 1 else 0) s

/-- CLT: d ← 1 if a < b, signed, else 0. -/
def execClt (p : PeaId) (w : BitVec 24) (s : State) : Host.Outcome State Fault Refusal :=
  ubcBin p 0x31 1 w (fun a b => if a.toInt < b.toInt then 1 else 0) s

/-- R114: a comparison made as given and in one's complement with the sense reversed; VCMP if the two differ. -/
def ubcVCmp (p : PeaId) (opcode : Nat) (w : BitVec 24) (f g : Word → Word → Bool) (s : State) :
    Host.Outcome State Fault Refusal :=
  runInstr p opcode 2 (zero w 5 0)
    (fun x => ubcReg p x (opA w) fun a => ubcReg p x (opB w) fun b =>
      ubcCheck (f a b == g (~~~a) (~~~b)) 0x0C (ubcPut p x (opD w) (vital (f a b)) ubcDone)) s

/-- VCEQ: d ← vital code of a = b. -/
def execVceq (p : PeaId) (w : BitVec 24) (s : State) : Host.Outcome State Fault Refusal :=
  ubcVCmp p 0x34 w (fun a b => a = b) (fun a b => !(a != b)) s

/-- VCLT: d ← vital code of a < b, signed. -/
def execVclt (p : PeaId) (w : BitVec 24) (s : State) : Host.Outcome State Fault Refusal :=
  ubcVCmp p 0x35 w (fun a b => a.toInt < b.toInt) (fun a b => b.toInt < a.toInt) s

/-- VAND. -/
def execVand (p : PeaId) (w : BitVec 24) (s : State) : Host.Outcome State Fault Refusal :=
  ubcVBin p 0x38 w (fun a b => a && b) s

/-- VOR. -/
def execVor (p : PeaId) (w : BitVec 24) (s : State) : Host.Outcome State Fault Refusal :=
  ubcVBin p 0x39 w (fun a b => a || b) s

/-- VNOT: d ← inverse of a; b is 0. -/
def execVnot (p : PeaId) (w : BitVec 24) (s : State) : Host.Outcome State Fault Refusal :=
  runInstr p 0x3A 1 (zero w 11 0) (fun x => ubcVital p x (opA w) fun a => ubcPut p x (opD w) (vital (!a)) ubcDone) s

/-- VXOR. -/
def execVxor (p : PeaId) (w : BitVec 24) (s : State) : Host.Outcome State Fault Refusal :=
  ubcVBin p 0x3B w (fun a b => a != b) s

/-- VTONB: d ← 1 if a is true, 0 if false; b is 0. -/
def execVtonb (p : PeaId) (w : BitVec 24) (s : State) : Host.Outcome State Fault Refusal :=
  runInstr p 0x3C 1 (zero w 11 0)
    (fun x => ubcVital p x (opA w) fun a => ubcPut p x (opD w) (if a then 1 else 0) ubcDone) s

/-- VASSERT: trap unless a is true; d and b are 0. -/
def execVassert (p : PeaId) (w : BitVec 24) (s : State) : Host.Outcome State Fault Refusal :=
  runInstr p 0x3D 1 (zero w 23 18 && zero w 11 0) (fun x => ubcVital p x (opA w) fun a => ubcCheck a 0x0E ubcDone) s

end Sys2Proof.Machine
end

