-- ==== Sys2Proof/Machine/UbcData.lean ====
section
/-! DEFINITION. UBC: moves, immediates and the access to symbols (R107, R110 to R117, R159). -/

namespace Sys2Proof.Machine

/-- MOV: d ← a. -/
def execMov (p : PeaId) (w : BitVec 24) (s : State) : Host.Outcome State Fault Refusal :=
  runInstr p 0x01 1 (zero w 11 0) (fun x => ubcReg p x (opA w) fun v => ubcPut p x (opD w) v ubcDone) s

/-- LDI: d ← sext(imm). -/
def execLdi (p : PeaId) (w : BitVec 24) (s : State) : Host.Outcome State Fault Refusal :=
  runInstr p 0x02 1 (zero w 17 16) (fun x => ubcPut p x (opD w) ((opImm w).signExtend 32) ubcDone) s

/-- LDIH: d[31:16] ← imm. -/
def execLdih (p : PeaId) (w : BitVec 24) (s : State) : Host.Outcome State Fault Refusal :=
  runInstr p 0x03 1 (zero w 17 16)
    (fun x => ubcReg p x (opD w) fun v => ubcPut p x (opD w) (opImm w ++ v.extractLsb' 0 16) ubcDone) s

/-- VCONST: d ← imm, which must be a vital code. -/
def execVconst (p : PeaId) (w : BitVec 24) (s : State) : Host.Outcome State Fault Refusal :=
  runInstr p 0x04 1 (zero w 17 16 && (opImm w = 1 || opImm w = 2))
    (fun x => ubcPut p x (opD w) ((opImm w).zeroExtend 32) ubcDone) s

/-- What LD of a system symbol reads (R112). -/
def systemSymbol (x : Release) (id : Nat) : Option Word :=
  if id = 0xFFF00 then some (w32 x.triggers)
  else if id = 0xFFF01 then some (w32 x.slot)
  else if id = 0xFFF02 then some (w32 x.stale)
  else if id = 0xFFF03 then some (if x.prevImage then 1 else 0)
  else none

/-- A scalar of a type as its word reads (R115). -/
def scalarGet (ty : Nat) (v : Word) : Word := if ty = 3 then (v.extractLsb' 0 16).signExtend 32 else v

/-- LD: q ← value of a scalar or system symbol. -/
def execLd (p : PeaId) (w : BitVec 24) (s : State) : Host.Outcome State Fault Refusal :=
  runInstr p 0x10 2 true (fun x s =>
    if 0xFFF00 ≤ opSym w then
      match systemSymbol x (opSym w) with
      | some v => ubcPut p x (opQ w) v ubcDone (s.peaCount (peaNum p) 5 1)
      | none => .trap s 0x09
    else ubcSym (opSym w) (fun y =>
      ubcCheck (y.ty ≤ 4 && !y.array) 0x04 fun s =>
        ubcRead p (classMem y.cls) (s.symAddr y x.bank 0)
          (fun v => ubcPut p x (opQ w) (scalarGet y.ty v) fun s => ubcDone (s.peaCount (peaNum p) 5 1)) s) s) s

/-- R113, R115, R116: the value checks of a store of `v` to type `ty`: a bad non-vital Boolean traps with TYPE before the class
rule, a bad vital Boolean with VBOOL after it. -/
def boolOk (ty : Nat) (v : Word) : Bool := ty != 2 || v = 0 || v = 1
def vboolOk (ty : Nat) (v : Word) : Bool := ty != 1 || (vital? v).isSome

/-- The value as stored (R115); a scalar int16 fills its word sign-extended (DEDUCED, log entry 64). -/
def storeValue (ty : Nat) (v : Word) : Word := if ty = 3 then sat16 v else v

/-- ST: scalar symbol ← q. A forced scalar keeps its value (R159). -/
def execSt (p : PeaId) (w : BitVec 24) (s : State) : Host.Outcome State Fault Refusal :=
  runInstr p 0x11 2 true (fun x => ubcSym (opSym w) fun y =>
    ubcCheck (y.ty ≤ 4 && !y.array) 0x04 (ubcReg p x (opQ w) fun v =>
      ubcCheck (boolOk y.ty v) 0x04 fun s =>
        ubcCheck (storeAllowed (s.taskVital x.slot) y) 0x05 (ubcCheck (vboolOk y.ty v) 0x03 fun s =>
          let s := s.peaCount (peaNum p) 5 1
          if (s.forceEntry y.id 0).isSome then ubcDone s
          else ubcWrite p (classMem y.cls) (s.symAddr y x.bank 0) (storeValue y.ty v) ubcDone s) s)) s

/-- SYMH: q ← symbol identifier. -/
def execSymh (p : PeaId) (w : BitVec 24) (s : State) : Host.Outcome State Fault Refusal :=
  runInstr p 0x12 1 true (fun x => ubcSym (opSym w) fun _ => ubcPut p x (opQ w) (w32 (opSym w)) ubcDone) s

/-- The array element that a handle and an index name: its word and its place (R112); TYPE for a scalar. -/
def elemWord (s : State) (y : Symbol) (bank i : Nat) : Nat := s.symAddr y bank (i / (32 / elemBits y.ty))

/-- LDX: d ← element b of the array whose handle is in a. -/
def execLdx (p : PeaId) (w : BitVec 24) (s : State) : Host.Outcome State Fault Refusal :=
  runInstr p 0x13 3 (zero w 5 0) (fun x => ubcReg p x (opA w) fun h => ubcReg p x (opB w) fun i =>
    ubcSym h.toNat fun y =>
      ubcCheck (y.ty ≤ 4 && y.array) 0x04 (ubcCheck (!i.msb && i.toNat < y.len) 0x06 fun s =>
        ubcRead p (classMem y.cls) (elemWord s y x.bank i.toNat)
          (fun v => ubcPut p x (opD w) (elemGet y.ty i.toNat v) fun s => ubcDone (s.peaCount (peaNum p) 5 1)) s)) s

/-- STX: element b of the array whose handle is in a ← d. A forced element keeps its value (R159). -/
def execStx (p : PeaId) (w : BitVec 24) (s : State) : Host.Outcome State Fault Refusal :=
  runInstr p 0x14 3 (zero w 5 0) (fun x => ubcReg p x (opA w) fun h => ubcReg p x (opB w) fun i =>
    ubcReg p x (opD w) fun v => ubcSym h.toNat fun y =>
      ubcCheck (y.ty ≤ 4 && y.array && boolOk y.ty v) 0x04 fun s =>
        ubcCheck (storeAllowed (s.taskVital x.slot) y) 0x05 (ubcCheck (!i.msb && i.toNat < y.len) 0x06
          (ubcCheck (vboolOk y.ty v) 0x03 fun s =>
            let s := s.peaCount (peaNum p) 5 1
            if (s.forceEntry y.id i.toNat).isSome then ubcDone s else
            ubcRead p (classMem y.cls) (elemWord s y x.bank i.toNat)
              (fun u => ubcWrite p (classMem y.cls) (elemWord s y x.bank i.toNat)
                (elemPut y.ty i.toNat u (storeValue y.ty v)) ubcDone) s)) s) s

end Sys2Proof.Machine
end

