-- ==== Sys2Proof/Machine/Dispatch.lean ====
section
/-! DEFINITION. The dispatcher: one arm for each command, each a direct call of its meaning. -/

namespace Sys2Proof.Machine

/-- The meaning of a command: its effect on everything but the queue. -/
def exec (i : Instr) (s : State) : Host.Outcome State Fault Refusal :=
  match i with
  | .vitalCycleBoundary b bad => Sys2Proof.Machine.execVitalCycleBoundary b bad s
  | .taskDeadline => Sys2Proof.Machine.execTaskDeadline s
  | .commitPoint => Sys2Proof.Machine.execCommitPoint s
  | .iveTimerExpiry => Sys2Proof.Machine.execIveTimerExpiry s
  | .ringCycleStart => Sys2Proof.Machine.execRingCycleStart s
  | .commandSectionCompose => Sys2Proof.Machine.execCommandSectionCompose s
  | .imageClose => Sys2Proof.Machine.execImageClose s
  | .frameReturn r f => Sys2Proof.Machine.execFrameReturn r f s
  | .coldFrame r f => Sys2Proof.Machine.execColdFrame r f s
  | .surveyFrame r f => Sys2Proof.Machine.execSurveyFrame r f s
  | .runFrame r f => Sys2Proof.Machine.execRunFrame r f s
  | .stopFrame r f => Sys2Proof.Machine.execStopFrame r f s
  | .bypassOrder o => Sys2Proof.Machine.execBypassOrder o s
  | .cutNextOrder o => Sys2Proof.Machine.execCutNextOrder o s
  | .joinOrder o => Sys2Proof.Machine.execJoinOrder o s
  | .cutSignalDetected r => Sys2Proof.Machine.execCutSignalDetected r s
  | .relayOperated r => Sys2Proof.Machine.execRelayOperated r s
  | .listenTimeout r => Sys2Proof.Machine.execListenTimeout r s
  | .passTimeout r => Sys2Proof.Machine.execPassTimeout r s
  | .backoffEnd r => Sys2Proof.Machine.execBackoffEnd r s
  | .coldToSurvey r => Sys2Proof.Machine.execColdToSurvey r s
  | .surveyEnd r => Sys2Proof.Machine.execSurveyEnd r s
  | .stopSequenceEnd r => Sys2Proof.Machine.execStopSequenceEnd r s
  | .halt r => Sys2Proof.Machine.execHalt r s
  | .readmit r pos => Sys2Proof.Machine.execReadmit r pos s
  | .ringHandback r => Sys2Proof.Machine.execRingHandback r s
  | .heartbeatTransition voter => Sys2Proof.Machine.execHeartbeatTransition voter s
  | .reservoirDischarged => Sys2Proof.Machine.execReservoirDischarged s
  | .codeViolation site => Sys2Proof.Machine.execCodeViolation site s
  | .stallTimeout site => Sys2Proof.Machine.execStallTimeout site s
  | .timebaseWindowEnd count => Sys2Proof.Machine.execTimebaseWindowEnd count s
  | .oscillatorStopped b => Sys2Proof.Machine.execOscillatorStopped b s
  | .coreRailOutOfWindow high => Sys2Proof.Machine.execCoreRailOutOfWindow high s
  | .tokenCopyArrival p mask differ => Sys2Proof.Machine.execTokenCopyArrival p mask differ s
  | .skewTimerExpiry x => Sys2Proof.Machine.execSkewTimerExpiry x s
  | .splitTimerExpiry x => Sys2Proof.Machine.execSplitTimerExpiry x s
  | .heldRelease p => Sys2Proof.Machine.execHeldRelease p s
  | .pathRetestEnd p pass => Sys2Proof.Machine.execPathRetestEnd p pass s
  | .peaSelfTestEnd p pass repairs => Sys2Proof.Machine.execPeaSelfTestEnd p pass repairs s
  | .rejoinWindow => Sys2Proof.Machine.execRejoinWindow s
  | .rejoinTimeout => Sys2Proof.Machine.execRejoinTimeout s
  | .reseedCopy => Sys2Proof.Machine.execReseedCopy s
  | .rotationTestDue => Sys2Proof.Machine.execRotationTestDue s
  | .rotationTestRetry => Sys2Proof.Machine.execRotationTestRetry s
  | .rotReq => Sys2Proof.Machine.execRotReq s
  | .peaScrubSlice p words strikes => Sys2Proof.Machine.execPeaScrubSlice p words strikes s
  | .iveScrub finding => Sys2Proof.Machine.execIveScrub finding s
  | .iveLock h => Sys2Proof.Machine.execIveLock h s
  | .ivePoint h => Sys2Proof.Machine.execIvePoint h s
  | .iveSignal h => Sys2Proof.Machine.execIveSignal h s
  | .iveReleaseNormal h => Sys2Proof.Machine.execIveReleaseNormal h s
  | .iveReleaseCancel h => Sys2Proof.Machine.execIveReleaseCancel h s
  | .iveReleaseEmergency h => Sys2Proof.Machine.execIveReleaseEmergency h s
  | .iveLightCheck h => Sys2Proof.Machine.execIveLightCheck h s
  | .mov p w => Sys2Proof.Machine.execMov p w s
  | .ldi p w => Sys2Proof.Machine.execLdi p w s
  | .ldih p w => Sys2Proof.Machine.execLdih p w s
  | .vconst p w => Sys2Proof.Machine.execVconst p w s
  | .ld p w => Sys2Proof.Machine.execLd p w s
  | .st p w => Sys2Proof.Machine.execSt p w s
  | .symh p w => Sys2Proof.Machine.execSymh p w s
  | .ldx p w => Sys2Proof.Machine.execLdx p w s
  | .stx p w => Sys2Proof.Machine.execStx p w s
  | .add p w => Sys2Proof.Machine.execAdd p w s
  | .sub p w => Sys2Proof.Machine.execSub p w s
  | .mul p w => Sys2Proof.Machine.execMul p w s
  | .div p w => Sys2Proof.Machine.execDiv p w s
  | .min p w => Sys2Proof.Machine.execMin p w s
  | .max p w => Sys2Proof.Machine.execMax p w s
  | .neg p w => Sys2Proof.Machine.execNeg p w s
  | .addi p w => Sys2Proof.Machine.execAddi p w s
  | .andOp p w => Sys2Proof.Machine.execAndOp p w s
  | .orOp p w => Sys2Proof.Machine.execOrOp p w s
  | .xorOp p w => Sys2Proof.Machine.execXorOp p w s
  | .shl p w => Sys2Proof.Machine.execShl p w s
  | .shr p w => Sys2Proof.Machine.execShr p w s
  | .ceq p w => Sys2Proof.Machine.execCeq p w s
  | .clt p w => Sys2Proof.Machine.execClt p w s
  | .vceq p w => Sys2Proof.Machine.execVceq p w s
  | .vclt p w => Sys2Proof.Machine.execVclt p w s
  | .vand p w => Sys2Proof.Machine.execVand p w s
  | .vor p w => Sys2Proof.Machine.execVor p w s
  | .vnot p w => Sys2Proof.Machine.execVnot p w s
  | .vxor p w => Sys2Proof.Machine.execVxor p w s
  | .vtonb p w => Sys2Proof.Machine.execVtonb p w s
  | .vassert p w => Sys2Proof.Machine.execVassert p w s
  | .br p w => Sys2Proof.Machine.execBr p w s
  | .bt p w => Sys2Proof.Machine.execBt p w s
  | .bf p w => Sys2Proof.Machine.execBf p w s
  | .bnz p w => Sys2Proof.Machine.execBnz p w s
  | .bz p w => Sys2Proof.Machine.execBz p w s
  | .call p w => Sys2Proof.Machine.execCall p w s
  | .ret p w => Sys2Proof.Machine.execRet p w s
  | .loop p w => Sys2Proof.Machine.execLoop p w s
  | .tstart p w => Sys2Proof.Machine.execTstart p w s
  | .tstop p w => Sys2Proof.Machine.execTstop p w s
  | .tread p w => Sys2Proof.Machine.execTread p w s
  | .texp p w => Sys2Proof.Machine.execTexp p w s
  | .edge p w => Sys2Proof.Machine.execEdge p w s
  | .emitCmd p w => Sys2Proof.Machine.execEmitCmd p w s
  | .emitPoint p w => Sys2Proof.Machine.execEmitPoint p w s
  | .emitSignal p w => Sys2Proof.Machine.execEmitSignal p w s
  | .emitLock p w => Sys2Proof.Machine.execEmitLock p w s
  | .emitRelease p w => Sys2Proof.Machine.execEmitRelease p w s
  | .emitHres p w => Sys2Proof.Machine.execEmitHres p w s
  | .endOp p w => Sys2Proof.Machine.execEndOp p w s
  | .trap p w => Sys2Proof.Machine.execTrap p w s
  | .exchangeCycle => Sys2Proof.Machine.execExchangeCycle s
  | .migrationEnd p => Sys2Proof.Machine.execMigrationEnd p s
  | .stagedImageVerified p x => Sys2Proof.Machine.execStagedImageVerified p x s
  | .xreadyTimeout => Sys2Proof.Machine.execXreadyTimeout s
  | .openSession m nonce => Sys2Proof.Machine.execOpenSession m nonce s
  | .closeSession m => Sys2Proof.Machine.execCloseSession m s
  | .keep m => Sys2Proof.Machine.execKeep m s
  | .regRead m addr words => Sys2Proof.Machine.execRegRead m addr words s
  | .regWrite m addr words data => Sys2Proof.Machine.execRegWrite m addr words data s
  | .postedWriteOutcome conflict => Sys2Proof.Machine.execPostedWriteOutcome conflict s
  | .fence m => Sys2Proof.Machine.execFence m s
  | .fenceAnswer lane => Sys2Proof.Machine.execFenceAnswer lane s
  | .programRequest m kind params => Sys2Proof.Machine.execProgramRequest m kind params s
  | .forceSet m sym elem value => Sys2Proof.Machine.execForceSet m sym elem value s
  | .forceClear m sym elem => Sys2Proof.Machine.execForceClear m sym elem s
  | .forceClearAll m => Sys2Proof.Machine.execForceClearAll m s
  | .exchangeArm m flags time build => Sys2Proof.Machine.execExchangeArm m flags time build s
  | .exchangeCancel m => Sys2Proof.Machine.execExchangeCancel m s
  | .swapRequestArm m time => Sys2Proof.Machine.execSwapRequestArm m time s
  | .swapRequestCancel m => Sys2Proof.Machine.execSwapRequestCancel m s
  | .safeRequest m target => Sys2Proof.Machine.execSafeRequest m target s
  | .restartRequest m target => Sys2Proof.Machine.execRestartRequest m target s
  | .restrictEnd m => Sys2Proof.Machine.execRestrictEnd m s
  | .rvwrite m addr mask value => Sys2Proof.Machine.execRvwrite m addr mask value s
  | .recClear m => Sys2Proof.Machine.execRecClear m s
  | .activate m slot time => Sys2Proof.Machine.execActivate m slot time s
  | .timeset m time => Sys2Proof.Machine.execTimeset m time s
  | .qread m queue index => Sys2Proof.Machine.execQread m queue index s
  | .qconsume m queue seq => Sys2Proof.Machine.execQconsume m queue seq s
  | .queConsumeWrite c q seq => Sys2Proof.Machine.execQueConsumeWrite c q seq s
  | .jread m num x => Sys2Proof.Machine.execJread m num x s
  | .wake m serial => Sys2Proof.Machine.execWake m serial s
  | .resultTimeout num => Sys2Proof.Machine.execResultTimeout num s
  | .sessionIdleTimeout lane => Sys2Proof.Machine.execSessionIdleTimeout lane s
  | .sessionUnblock lane => Sys2Proof.Machine.execSessionUnblock lane s
  | .sessionPurge lane => Sys2Proof.Machine.execSessionPurge lane s
  | .coalesceWindowEnd => Sys2Proof.Machine.execCoalesceWindowEnd s
  | .hostLinkChange x up fdx => Sys2Proof.Machine.execHostLinkChange x up fdx s
  | .arpRequest x target => Sys2Proof.Machine.execArpRequest x target s
  | .icmpEchoRequest x dst src data => Sys2Proof.Machine.execIcmpEchoRequest x dst src data s
  | .neighbourSolicitation x target => Sys2Proof.Machine.execNeighbourSolicitation x target s
  | .mldQuery x => Sys2Proof.Machine.execMldQuery x s
  | .duplicateAddressDetection x linkLocal duplicate => Sys2Proof.Machine.execDuplicateAddressDetection x linkLocal duplicate s
  | .ignoredFrame x f => Sys2Proof.Machine.execIgnoredFrame x f s
  | .syncFrame h n offset time rc => Sys2Proof.Machine.execSyncFrame h n offset time rc s
  | .probeFrame h n => Sys2Proof.Machine.execProbeFrame h n s
  | .echoFrame h n turnaround => Sys2Proof.Machine.execEchoFrame h n turnaround s
  | .probeInterval => Sys2Proof.Machine.execProbeInterval s
  | .readyStart h letter id1 compat => Sys2Proof.Machine.execReadyStart h letter id1 compat s
  | .xferReq h imgId tblId => Sys2Proof.Machine.execXferReq h imgId tblId s
  | .xferAccept h cycle => Sys2Proof.Machine.execXferAccept h cycle s
  | .xferRefuse h cause => Sys2Proof.Machine.execXferRefuse h cause s
  | .xferNeed h cycle blocks => Sys2Proof.Machine.execXferNeed h cycle blocks s
  | .xarm h x build => Sys2Proof.Machine.execXarm h x build s
  | .xready h build => Sys2Proof.Machine.execXready h build s
  | .xgo h x => Sys2Proof.Machine.execXgo h x s
  | .xabort h x code => Sys2Proof.Machine.execXabort h x code s
  | .swapArm h cycle epoch => Sys2Proof.Machine.execSwapArm h cycle epoch s
  | .swapAck h cycle => Sys2Proof.Machine.execSwapAck h cycle s
  | .swapGo h cycle => Sys2Proof.Machine.execSwapGo h cycle s
  | .swapAbort h cycle code => Sys2Proof.Machine.execSwapAbort h cycle code s
  | .sched h cycle kind => Sys2Proof.Machine.execSched h cycle kind s
  | .swapAckTimeout => Sys2Proof.Machine.execSwapAckTimeout s
  | .swapCycle => Sys2Proof.Machine.execSwapCycle s
  | .imageFrame h x => Sys2Proof.Machine.execImageFrame h x s
  | .orderFrame h o => Sys2Proof.Machine.execOrderFrame h o s
  | .fwdFrame h f => Sys2Proof.Machine.execFwdFrame h f s
  | .statusFrame h n claim st tflags dig sdig => Sys2Proof.Machine.execStatusFrame h n claim st tflags dig sdig s
  | .bdigFrame h n x => Sys2Proof.Machine.execBdigFrame h n x s
  | .stateFrame h number cycle words => Sys2Proof.Machine.execStateFrame h number cycle words s
  | .padFrame h => Sys2Proof.Machine.execPadFrame h s
  | .linkDownTimeout => Sys2Proof.Machine.execLinkDownTimeout s
  | .firstRoleEvaluation => Sys2Proof.Machine.execFirstRoleEvaluation s
  | .xferRetry => Sys2Proof.Machine.execXferRetry s
  | .xferConvergenceTimeout => Sys2Proof.Machine.execXferConvergenceTimeout s
  | .activationCycle => Sys2Proof.Machine.execActivationCycle s
  | .activationSwap => Sys2Proof.Machine.execActivationSwap s
  | .trialTimeout => Sys2Proof.Machine.execTrialTimeout s
  | .updateBegin u kind length => Sys2Proof.Machine.execUpdateBegin u kind length s
  | .updateData u data => Sys2Proof.Machine.execUpdateData u data s
  | .updateEnd u sigOk gtagOk content => Sys2Proof.Machine.execUpdateEnd u sigOk gtagOk content s
  | .updateAbort u => Sys2Proof.Machine.execUpdateAbort u s
  | .updateQuery u => Sys2Proof.Machine.execUpdateQuery u s
  | .updateInfo u => Sys2Proof.Machine.execUpdateInfo u s
  | .updateReboot u => Sys2Proof.Machine.execUpdateReboot u s
  | .updateTimeout => Sys2Proof.Machine.execUpdateTimeout s
  | .fieldRefresh downErr upErr act grp meas => Sys2Proof.Machine.execFieldRefresh downErr upErr act grp meas s
  | .uplinkTimeout => Sys2Proof.Machine.execUplinkTimeout s
  | .downlinkTimeout => Sys2Proof.Machine.execDownlinkTimeout s
  | .readbackFault c => Sys2Proof.Machine.execReadbackFault c s
  | .stuckOn x => Sys2Proof.Machine.execStuckOn x s
  | .offPulse c falls => Sys2Proof.Machine.execOffPulse c falls s
  | .overloadLatch c => Sys2Proof.Machine.execOverloadLatch c s
  | .thermalTrip c => Sys2Proof.Machine.execThermalTrip c s
  | .groupTrip => Sys2Proof.Machine.execGroupTrip s
  | .grprst => Sys2Proof.Machine.execGrprst s
  | .chfaultClear mask => Sys2Proof.Machine.execChfaultClear mask s
  | .vfChange ok => Sys2Proof.Machine.execVfChange ok s
  | .tpsFoldback k => Sys2Proof.Machine.execTpsFoldback k s
  | .testPulse k low sfbLow => Sys2Proof.Machine.execTestPulse k low sfbLow s
  | .sfbDemand f x => Sys2Proof.Machine.execSfbDemand f x s
  | .sfbDemandEnd f => Sys2Proof.Machine.execSfbDemandEnd f s
  | .sfbReset f => Sys2Proof.Machine.execSfbReset f s
  | .sfbDiscFault f => Sys2Proof.Machine.execSfbDiscFault f s
  | .sfbChdiff => Sys2Proof.Machine.execSfbChdiff s
  | .lorChannelEdge chB active => Sys2Proof.Machine.execLorChannelEdge chB active s
  | .lorStuck chB => Sys2Proof.Machine.execLorStuck chB s
  | .safeAutoRestart => Sys2Proof.Machine.execSafeAutoRestart s
  | .feedFail feedB => Sys2Proof.Machine.execFeedFail feedB s
  | .feedOvervoltage feedB => Sys2Proof.Machine.execFeedOvervoltage feedB s
  | .feedReturn feedB => Sys2Proof.Machine.execFeedReturn feedB s
  | .holdupSequenceEnd => Sys2Proof.Machine.execHoldupSequenceEnd s
  | .holdupCharged => Sys2Proof.Machine.execHoldupCharged s
  | .externalReset a b => Sys2Proof.Machine.execExternalReset a b s
  | .resetRelease svcBreak => Sys2Proof.Machine.execResetRelease svcBreak s
  | .startStepComplete f => Sys2Proof.Machine.execStartStepComplete f s
  | .bistSliceEnd pass detail noSpare repairs => Sys2Proof.Machine.execBistSliceEnd pass detail noSpare repairs s
  | .strapChange straps => Sys2Proof.Machine.execStrapChange straps s
  | .tamper mesh => Sys2Proof.Machine.execTamper mesh s
  | .wakeInput active => Sys2Proof.Machine.execWakeInput active s
  | .timeAlarm => Sys2Proof.Machine.execTimeAlarm s
  | .ppsEdge => Sys2Proof.Machine.execPpsEdge s
  | .ppsTimeout => Sys2Proof.Machine.execPpsTimeout s
  | .timekeeperAlign => Sys2Proof.Machine.execTimekeeperAlign s
  | .timeFloorSave => Sys2Proof.Machine.execTimeFloorSave s
  | .bridgePathReset => Sys2Proof.Machine.execBridgePathReset s
  | .recorderWrite n => Sys2Proof.Machine.execRecorderWrite n s
  | .recordsLostReport => Sys2Proof.Machine.execRecordsLostReport s
  | .recorderEraseEnd => Sys2Proof.Machine.execRecorderEraseEnd s
  | .firmwareRecord core source body => Sys2Proof.Machine.execFirmwareRecord core source body s
  | .snap c => Sys2Proof.Machine.execSnap c s
  | .periodicSnapshot => Sys2Proof.Machine.execPeriodicSnapshot s
  | .sampleClose p => Sys2Proof.Machine.execSampleClose p s
  | .doorbellRing c source => Sys2Proof.Machine.execDoorbellRing c source s
  | .doorbellWithdraw c source => Sys2Proof.Machine.execDoorbellWithdraw c source s
  | .irqClaim c => Sys2Proof.Machine.execIrqClaim c s
  | .irqDone c source => Sys2Proof.Machine.execIrqDone c source s
  | .crcGo c e => Sys2Proof.Machine.execCrcGo c e s
  | .crcRunEnd e => Sys2Proof.Machine.execCrcRunEnd e s
  | .bankModeWrite c b mode => Sys2Proof.Machine.execBankModeWrite c b mode s
  | .calUserWrite c idx value => Sys2Proof.Machine.execCalUserWrite c idx value s
  | .calClear c => Sys2Proof.Machine.execCalClear c s
  | .evtClear c page mask hw => Sys2Proof.Machine.execEvtClear c page mask hw s
  | .evtenWrite c page value => Sys2Proof.Machine.execEvtenWrite c page value s
  | .evtsetWrite c page value => Sys2Proof.Machine.execEvtsetWrite c page value s
  | .statclr c page race => Sys2Proof.Machine.execStatclr c page race s
  | .pageLock c page value => Sys2Proof.Machine.execPageLock c page value s
  | .pageLockTimeout page => Sys2Proof.Machine.execPageLockTimeout page s
  | .registerWrite c addr value => Sys2Proof.Machine.execRegisterWrite c addr value s
  | .undefinedOpcode p w => Sys2Proof.Machine.execUndefinedOpcode p w s
  | .fieldInputSample raw => Sys2Proof.Machine.execFieldInputSample raw s
  | .lorPairTimeout => Sys2Proof.Machine.execLorPairTimeout s
  | .tpsFoldbackEnd k => Sys2Proof.Machine.execTpsFoldbackEnd k s
  | .feedReconnect feedB => Sys2Proof.Machine.execFeedReconnect feedB s
  | .timekeeperSupplyBreak => Sys2Proof.Machine.execTimekeeperSupplyBreak s
  | .twinFrameSent => Sys2Proof.Machine.execTwinFrameSent s
  | .peaSelfTestTimeout p => Sys2Proof.Machine.execPeaSelfTestTimeout p s

end Sys2Proof.Machine
end

