-- ==== Sys2Proof/Machine/Tick.lean ====
section
/-! DEFINITION. One timebase tick of 40 ns (R27), which passes while no command waits: station time and its slewing (R405, R406), the
tick counters and the level counters of the peas (R379), and the drain of the vital-to-service buffer (R352). -/

namespace Sys2Proof.Machine

namespace State

/-- The field of the low or the high word of a pea's tick counter. -/
def tickField (p : PeaId) (high : Bool) : Field := ⟨regAddr Page.PMON (0x100 + 0x80 * peaNum p + (if high then 4 else 0)), 31, 0⟩

/-- A pea that is not OFF counts the tick. -/
def tickPea (s : State) (p : PeaId) : State :=
  if s.peaState p = 0 then s else
  let lo := s.fld (tickField p false) + 1
  let s := s.setFld (tickField p false) lo
  if lo < 2 ^ 32 then s else s.setFld (tickField p true) (s.fld (tickField p true) + 1)

/-- A condition of R380 holds in a pea. -/
def peaHolds (s : State) (p : PeaId) (e : Nat) : Bool :=
  if e = 0x13 then decide (16 ≤ s.fld (Fld.PEA_x_DRFILL_NOW (peaNum p)))
  else e != 0 && stateEvent (s.peaState p) = e

/-- Counters in level mode add 1 for the tick in which their condition holds. -/
def tickLevels (s : State) (p : PeaId) : State :=
  let n := peaNum p
  if bitsOf n n (s.fld Fld.PMON_GATE_GATE) = 0 then s else
  (List.range 8).foldl (fun (s : State) i =>
    if s.flag (evsel n i 31 31) ∧ ¬ s.flag (evsel n i 29 29) ∧ s.flag (evsel n i 30 30) ∧ s.peaHolds p (s.fld (evsel n i 7 0))
    then s.cntAdd n 8 i 1 else s) s

/-- The station time rate trim in effect, in 0.01 ppm (R413 item 4, R63). -/
def rateTrim (s : State) : Int := (BitVec.ofNat 16 (s.fld (Fld.CAL_EFFi_VALUE 4))).toInt

/-- R63, R413: the rate trim corrects station time only. A tick of 40 ns gains 40 × trim / 10^8 ns, which add up to whole nanoseconds;
a positive trim makes station time run faster (DEDUCED, log entry 83). -/
def trimTime (s : State) : State :=
  let a := s.clock.trim + 4 * s.rateTrim
  let d : Int := Int.tdiv a 10000000
  { s.setClock { s.clock with trim := a - 10000000 * d } with now := ((s.now : Int) + d).toNat }

/-- Station time passes by 40 ns at the trimmed rate, and by 1 ns more or less where the tick falls on a slewing step. -/
def tickTime (s : State) : State :=
  let s : State := { s with now := s.now + 40, ticks := s.ticks + 1 }
  let s := s.trimTime
  let left := (s.reg Reg.TIME_SLEW).toInt
  let every := if s.clock.slewPpm = 100 then 250 else 25
  if left = 0 ∨ s.ticks % every ≠ 0 then s else
  let d : Int := if 0 < left then 1 else -1
  let s := { s with now := ((s.now : Int) + d).toNat }
  s.slewBy (left - d) s.clock.slewPpm

/-- One tick. -/
def tick (s : State) : State :=
  let s := s.tickTime
  let s := [PeaId.a, .b, .c].foldl (fun (s : State) p => (s.tickPea p).tickLevels p) s
  s.setFld Fld.BRG_VTS_NOW 0

end State

end Sys2Proof.Machine
end

