-- ==== Sys2Proof/Machine/Frames.lean ====
section
/-! DEFINITION. What raising an event, ringing an interrupt source, counting and recording may change: the relations in which
statements say that a command changes nothing else. -/

namespace Sys2Proof.Machine

/-- An address outside the pages IRQ, BRG, EVR and PMON and the pages between, and outside the events of a page: no event, interrupt,
count or record touches it. -/
def quiet (a : Nat) : Bool :=
  (decide (a < 0x40040000) || (decide (0x40049000 ≤ a) && a / 0x1000 != 0x4004A)) && a % 0x1000 != 0x14

namespace State

/-- What raising an event, ringing a source, counting and recording may change: registers that are not quiet, live routes and coalescing
windows, and, since a source may be recorded (R344, R363), the recorder's staging and its sequence number. -/
def noted (s t : State) : Prop :=
  t = { s with regs := t.regs, irqLive := t.irqLive, windows := t.windows, evr := t.evr,
               nv := { s.nv with recorder := t.nv.recorder } } ∧ ∀ a, quiet a = true → t.reg a = s.reg a

/-- What an instruction of a pea may change beside its effect: beside the above, the samples of the performance monitor. -/
def logged (s t : State) : Prop :=
  t = { s with regs := t.regs, irqLive := t.irqLive, windows := t.windows, evr := t.evr,
               nv := { s.nv with recorder := t.nv.recorder }, pmon := t.pmon } ∧ ∀ a, quiet a = true → t.reg a = s.reg a

end State

end Sys2Proof.Machine
end

