-- ==== Sys2Proof/WellFormed.lean ====
section
/-! DEFINITION. Well-formed commands: every operand lies in the range that its field or its place in the spec gives it. The machine gives a
meaning to ill-formed commands too; nothing rests on what it is. -/

namespace Sys2Proof

/-- A ring frame has a header of 32 bytes, windows of 32 bytes and a trailer of 6 bytes (R235). -/
def RingFrame.wf (f : RingFrame) : Bool :=
  f.header.length = 32 && f.windows.all (fun w => w.length = 32) && f.trailer.length = 6

/-- A received ring frame; a slip lies within its header and windows, and its drift within what 16 bits hold. -/
def RingRx.wf (f : RingRx) : Bool :=
  f.frame.wf && decide (f.drift.natAbs < 32768) &&
    (match f.slip with
      | some x => decide (x.pos < 64 * (1 + f.frame.windows.length))
      | none => true)

/-- The site of a code violation or a stall exists (R43). -/
def FaultSite.wf : FaultSite → Bool
  | .pea _ group => decide (group < 16)
  | .voter v => decide (1 ≤ v ∧ v ≤ 2)
  | .ive half => decide (half ≤ 3)
  | .bridge => true

/-- A finding of the IVE names half 1 or 2 (R166). -/
def IveCheck.wf : IveCheck → Bool
  | .agree _ _ | .differ => true
  | .badTable half | .badState half => decide (1 ≤ half ∧ half ≤ 2)

/-- A finding of the IVE's scrub names half 1 or 2 (R168). -/
def IveFinding.wf : IveFinding → Bool
  | .clean _ _ | .difference => true
  | .badTable half | .badState half => decide (1 ≤ half ∧ half ≤ 2)

/-- Addresses of a memory (R44): words of program MRAM, data SRAM, scratch, and registers of the context store. -/
def MemKind.words : MemKind → Nat
  | .mram => 2 ^ 21
  | .sram => 2 ^ 20
  | .scratch => 2 ^ 16
  | .ctx => 2 ^ 11

/-- A defect lies in a word of its memory, and a single-bit one in one of the 39 bits that R48 stores. -/
def strikeWf (x : MemKind × Nat × Option Nat) : Bool :=
  decide (x.2.1 < x.1.words) && (match x.2.2 with
    | some bit => decide (bit < 39)
    | none => true)

/-- A host message carries a session of R308 and no more than a datagram can (R304). -/
def OhpMsg.wf (m : OhpMsg) : Bool := decide (m.session.toNat < 16) && decide (m.tail.length ≤ 1472)

/-- An update datagram's session (R417). -/
def UpdMsg.wf (u : UpdMsg) : Bool := decide (u.session.toNat < 16)

/-- A block of a transfer: data SRAM blocks, then the blocks of the IVE's state store (R290). -/
def blockWf (b : Nat) : Bool := decide (b < 1024 ∨ (0x8000 ≤ b ∧ b < 0x8020))

/-- The status codes and marks of an image entry (R31, R32). -/
def CtrlEntry.wf (e : CtrlEntry) : Bool := decide (e.addr < 1024) && decide (e.age ≤ 7)

/-- A request record of an image (R317). -/
def ReqRec.wf (r : ReqRec) : Bool := decide (r.session < 16) && decide (r.params.length ≤ 7)

/-- An image as the twin link carries it: R317 bounds its requests. -/
def Image.wf (i : Image) : Bool :=
  i.entries.all CtrlEntry.wf && i.reqs.all ReqRec.wf && decide (i.reqs.length ≤ 64)

/-- What a page number of the register pages may be (R332). -/
def pageWf (page : Byte) : Bool := decide (page.toNat < 0x60)

/-- A command is well formed. -/
def Instr.wf : Instr → Bool
  | .frameReturn _ f => f.wf
  | .bypassOrder o | .cutNextOrder o | .joinOrder o => o.header.length = 32
  | .coldFrame _ f | .surveyFrame _ f | .runFrame _ f | .stopFrame _ f => f.wf
  | .codeViolation site | .stallTimeout site => site.wf
  | .peaScrubSlice _ words strikes => decide (words ≤ 1024) && strikes.all strikeWf
  | .iveScrub finding => finding.wf
  | .iveLock h | .ivePoint h | .iveSignal h | .iveReleaseNormal h | .iveReleaseCancel h | .iveReleaseEmergency h
  | .iveLightCheck h => h.wf
  | .openSession m _ | .closeSession m | .keep m | .regRead m _ _ | .regWrite m _ _ _ | .fence m | .programRequest m _ _
  | .forceSet m _ _ _ | .forceClear m _ _ | .forceClearAll m | .exchangeArm m _ _ _ | .exchangeCancel m | .swapRequestArm m _
  | .swapRequestCancel m | .safeRequest m _ | .restartRequest m _ | .restrictEnd m | .rvwrite m _ _ _ | .recClear m
  | .activate m _ _ | .timeset m _ | .qread m _ _ | .qconsume m _ _ | .jread m _ _ | .wake m _ => m.wf
  | .syncFrame _ _ _ time _ => decide (time < 2 ^ 64)
  | .readyStart _ letter id1 compat => decide (letter < 2) && decide (id1 < 2) && decide (compat < 2 ^ 16)
  | .xferRefuse _ cause => decide (cause < 16)
  | .xferNeed _ _ blocks => decide (blocks.length ≤ 12) && blocks.all blockWf
  | .xabort _ _ code | .swapAbort _ _ code => decide (code < 256)
  | .swapArm _ _ epoch => decide (epoch < 2 ^ 24)
  | .sched _ _ kind => decide (kind < 5)
  | .imageFrame _ x => x.image.wf
  | .statusFrame _ _ _ code tflags _ _ => decide (code < 256) && decide (tflags < 2 ^ 16)
  | .bdigFrame _ _ x => decide (x.digests.length = 1056)
  | .stateFrame _ number _ words => blockWf number && decide (words.length = 1024)
  | .updateBegin u _ _ | .updateEnd u _ _ _ | .updateAbort u | .updateQuery u | .updateInfo u | .updateReboot u => u.wf
  | .updateData u data => u.wf && decide (data.length ≤ 480)
  | .recorderWrite n => decide (n ≤ 2048)
  | .firmwareRecord _ _ body => decide (body.length ≤ 7)
  | .evtClear _ page _ _ | .evtenWrite _ page _ | .evtsetWrite _ page _ | .pageLock _ page _ | .pageLockTimeout page => pageWf page
  | .statclr _ page race => pageWf page && race.all (fun a => decide (0x40000000 ≤ a.1 ∧ a.1 < 0x40060000 ∧ a.1 % 4 = 0 ∧ a.2.2 ≤ a.2.1 ∧ a.2.1 < 32))
  | .vitalCycleBoundary _ _ | .taskDeadline | .commitPoint | .iveTimerExpiry | .ringCycleStart | .commandSectionCompose
  | .imageClose | .cutSignalDetected _ | .relayOperated _ | .listenTimeout _
  | .passTimeout _ | .backoffEnd _ | .coldToSurvey _ | .surveyEnd _ | .stopSequenceEnd _ | .halt _ | .readmit _ _
  | .ringHandback _ | .heartbeatTransition _ | .reservoirDischarged | .timebaseWindowEnd _ | .oscillatorStopped _
  | .coreRailOutOfWindow _ | .tokenCopyArrival _ _ _ | .skewTimerExpiry _ | .splitTimerExpiry _ | .heldRelease _
  | .pathRetestEnd _ _ | .peaSelfTestEnd _ _ _ | .rejoinWindow | .rejoinTimeout | .reseedCopy | .rotationTestDue
  | .rotationTestRetry | .rotReq => true
  | .mov _ _ | .ldi _ _ | .ldih _ _ | .vconst _ _ | .ld _ _ | .st _ _ | .symh _ _ | .ldx _ _ | .stx _ _ | .add _ _ | .sub _ _
  | .mul _ _ | .div _ _ | .min _ _ | .max _ _ | .neg _ _ | .addi _ _ | .andOp _ _ | .orOp _ _ | .xorOp _ _ | .shl _ _ | .shr _ _
  | .ceq _ _ | .clt _ _ | .vceq _ _ | .vclt _ _ | .vand _ _ | .vor _ _ | .vnot _ _ | .vxor _ _ | .vtonb _ _ | .vassert _ _
  | .br _ _ | .bt _ _ | .bf _ _ | .bnz _ _ | .bz _ _ | .call _ _ | .ret _ _ | .loop _ _ | .tstart _ _ | .tstop _ _ | .tread _ _
  | .texp _ _ | .edge _ _ | .emitCmd _ _ | .emitPoint _ _ | .emitSignal _ _ | .emitLock _ _ | .emitRelease _ _ | .emitHres _ _
  | .endOp _ _ | .trap _ _ | .undefinedOpcode _ _ => true
  | .stagedImageVerified _ x => (x.pea ++ x.ive1 ++ x.ive2).all fun x => decide (x.1 < 2 ^ 20)
  | .exchangeCycle | .migrationEnd _ | .xreadyTimeout | .postedWriteOutcome _ | .fenceAnswer _
  | .queConsumeWrite _ _ _ | .resultTimeout _ | .sessionIdleTimeout _ | .sessionUnblock _ | .sessionPurge _ | .coalesceWindowEnd
  | .hostLinkChange _ _ _ | .arpRequest _ _ | .icmpEchoRequest _ _ _ _ | .neighbourSolicitation _ _ | .mldQuery _
  | .duplicateAddressDetection _ _ _ | .ignoredFrame _ _ => true
  | .probeFrame _ _ | .echoFrame _ _ _ | .probeInterval | .xferReq _ _ _ | .xferAccept _ _ | .xarm _ _ _ | .xready _ _ | .xgo _ _
  | .swapAck _ _ | .swapGo _ _ | .swapAckTimeout | .swapCycle | .orderFrame _ _ | .fwdFrame _ _ | .padFrame _ | .linkDownTimeout
  | .firstRoleEvaluation | .xferRetry | .xferConvergenceTimeout | .activationCycle | .activationSwap | .trialTimeout
  | .updateTimeout => true
  | .fieldRefresh _ _ _ _ _ | .uplinkTimeout | .downlinkTimeout | .readbackFault _ | .stuckOn _ | .offPulse _ _ | .overloadLatch _
  | .thermalTrip _ | .groupTrip | .grprst | .chfaultClear _ | .vfChange _ | .tpsFoldback _ | .testPulse _ _ _ | .sfbDemand _ _
  | .sfbDemandEnd _ | .sfbReset _ | .sfbDiscFault _ | .sfbChdiff | .lorChannelEdge _ _ | .lorStuck _ | .safeAutoRestart => true
  | .feedFail _ | .feedOvervoltage _ | .feedReturn _ | .holdupSequenceEnd | .holdupCharged | .externalReset _ _ | .resetRelease _
  | .startStepComplete _ | .bistSliceEnd _ _ _ _ | .strapChange _ | .tamper _ | .wakeInput _ | .timeAlarm | .ppsEdge | .ppsTimeout
  | .timekeeperAlign | .timeFloorSave | .bridgePathReset | .recordsLostReport | .recorderEraseEnd | .snap _ | .periodicSnapshot
  | .sampleClose _ | .doorbellRing _ _ | .doorbellWithdraw _ _ | .irqClaim _ | .irqDone _ _ | .crcGo _ _ | .crcRunEnd _
  | .bankModeWrite _ _ _ | .calUserWrite _ _ _ | .calClear _ | .registerWrite _ _ _ | .fieldInputSample _ | .lorPairTimeout
  | .tpsFoldbackEnd _ | .feedReconnect _ | .timekeeperSupplyBreak | .twinFrameSent | .peaSelfTestTimeout _ => true

end Sys2Proof
end

