-- ==== Sys2Proof/Safety.lean ====
section
/-! DEFINITION. What every step keeps: the canonical form of the stores that are the block's memories and tables, the capacity of the queues
(R323), and the legal values of the two bank selectors (R126, R141). -/

namespace Sys2Proof.Machine

/-- The four memories of pea `p` (R44) are canonical: no listed word equals the raw encoding of 0. -/
def Pea.canonical (p : PeaId) (x : Pea) : Prop :=
  Store.wf (fun _ => rawWord p 0) x.mram = true ∧ Store.wf (fun _ => rawWord p 0) x.sram = true ∧
  Store.wf (fun _ => rawWord p 0) x.scratch = true ∧ Store.wf (fun _ => rawWord p 0) x.ctx = true

/-- The non-volatile tables are canonical. -/
def NonVol.canonical (n : NonVol) : Prop :=
  Store.wf (fun _ => (0 : Word)) n.userCal = true ∧ Store.wf (fun _ => emptySlot) n.slots = true ∧
  Store.wf (fun _ => ([] : List Byte)) n.keys = true ∧ Store.wf (fun _ => (0 : Nat)) n.wakes = true ∧
  Store.wf (fun _ => ([] : List (BitVec 64))) n.nonces = true ∧ Store.wf (fun _ => (0 : Word)) n.epochs = true

namespace State

/-- Every queue holds no more entries than its shape has places (R319, R323). -/
def queuesFit (s : State) : Prop := ∀ q, (s.queue q).entries.length ≤ (queueShape q).1

/-- What every step keeps. -/
structure Inv (s : State) : Prop where
  regs : Store.wf resetOf s.regs = true
  mem : Store.wf (fun _ => (0 : Byte)) s.mem = true
  queues : Store.wf (fun _ => emptyQueue) s.queues = true
  sessions : Store.wf (fun _ => freshSession) s.sessions = true
  rings : Store.wf (fun _ => freshPort) s.rings = true
  committed : Store.wf (fun _ => (0 : Word)) s.com.committed = true
  applied : Store.wf (fun _ => (0 : Word)) s.com.applied = true
  nv : s.nv.canonical
  a : s.pod.a.canonical .a
  b : s.pod.b.canonical .b
  c : s.pod.c.canonical .c
  fit : s.queuesFit
  bank : s.cyc.bank ≤ 1
  half : s.pod.half ≤ 1

end State

/-- In state `s` the command completes, and all that it does is to take the state to `u` and to raise events, ring sources, count and
record. -/
def State.does (s : State) (c : Instr) (u : State) : Prop := ∃ t, exec c s = .next t ∧ State.noted u t

/-- The kernel has stopped with a SAFE cause: no cycle runs, the fault is latched, and the module is in SAFE or SAFE_LOCKOUT. -/
def State.safeFor (t : State) (cause : Nat) : Prop :=
  t.cyc.running = false ∧ t.pod.kfault = true ∧ (t.opState = 7 ∨ t.opState = 8) ∧ t.fld Fld.OUT_SAFE_CAUSE = cause

/-! ### Terms that statements about hosts use -/

/-- The host port of message `m` passes it, and the session that it names takes it from its source (R301, R304, R312). -/
structure State.LetsIn (s : State) (m : OhpMsg) : Prop where
  up : s.portUp m.port = true
  magic : m.magic = 0x4F48
  ver : m.ver = 1
  source : s.shutOut m = false

/-- Message `m`, with this payload and no envelope, is well formed and names the epoch under which its session is open (R305, R307, R312). -/
structure State.Plain (s : State) (m : OhpMsg) (payload : List Byte) : Prop where
  letIn : s.LetsIn m
  bare : m.env = none
  form : headerBad m payload false = false
  current : s.current m = true

/-- Message `m` brings the vital message `r` in an envelope that no row of R312 up to UNTIMELY refuses, to the unit that orders. -/
structure State.Vital (s : State) (m : OhpMsg) (r : HostReq) : Prop where
  letIn : s.LetsIn m
  form : headerBad m (reqPayload 0 r) true = false
  sealed : ∃ e, m.env = some e ∧ s.envelopeBad (sessionOf m) e = false ∧ s.macHolds m (reqType r) (reqPayload 0 r) e = true ∧
    s.timely (sessionOf m) e = true
  orders : s.orders = true
  free : s.holds = false

/-- Beside that, the epoch is current and SSEQ is new to the acceptance window (R307, R312). -/
structure State.Accepts (s : State) (m : OhpMsg) (r : HostReq) : Prop where
  vital : s.Vital m r
  current : s.current m = true
  fresh : ((s.session (sessionOf m)).accepted.find? fun a => a.sseq = m.sseq) = none
  window : (s.reg (Reg.SESS_SEQs (sessionOf m))).toNat < m.sseq.toNat + 64

/-- The state in which a session handles a message without an envelope: it is counted and heard (R304, R310). -/
def State.heard (s : State) (m : OhpMsg) : State := ((s.addSat (Fld.HSTx_RXCNT_RXCNT m.port) 1).podCount 52 1).hear m

/-- The reply to message `m`, without an envelope (R304 to R307). -/
def State.replyTo (s : State) (m : OhpMsg) (type : Byte) (code detail : Nat) (payload : List Byte) : OutMsg :=
  .ohp ⟨m.port, m.src, m.srcPort, type, sessionOf m, (s.session (sessionOf m)).txSeq + 1, s.reg (Reg.SESS_EPOCHs (sessionOf m)), m.tag,
    BitVec.ofNat 8 code, s.unitByte, BitVec.ofNat 16 detail, payload, none⟩

/-- Between `s` and `t` a message of this type has been sent to the session of `m`, with STATUS OK and this payload; at most the request for
its neighbour's link address goes before it (R303), and at most further messages follow it. -/
def State.answered (s t : State) (m : OhpMsg) (type : Byte) (payload : List Byte) : Prop :=
  ∃ (o : OhpOut) (after : List OutMsg), t.out = after ++ OutMsg.ohp o :: (s.resolve m.port m.src).out ∧ o.session = sessionOf m ∧
    o.type = type ∧ o.status = 0 ∧ o.tag = m.tag ∧ o.payload = payload

/-- In `t` the response entry of request `num` of session `i` is READY with this status and this result (R318, R319). -/
def State.resolved (t : State) (i : Nat) (num : Word) (status : Byte) (result : Nat) : Prop :=
  ∃ e ∈ (t.queue (2 * i + 1)).entries, e.ready = true ∧
    ∃ r, e.body = .resp r ∧ r.reqnum = num ∧ r.status = status ∧ r.result = w32 result

/-! ### Terms that statements about the twin link use -/

/-- Frame `k` of the body `b` arrives valid, from the unit of the other letter and as the next of its sequence, and the unit is part of a
twin installation (R277, R281). -/
structure State.Receives (s : State) (h : TwinHdr) (b : TwinBody) (k : Nat) : Prop where
  twin : s.isTwin = true
  valid : h.ok b k = true
  other : h.dir ≠ s.letter
  next : s.twin.rxSeq = some (h.seq - 1)

/-- The state in which such a frame is used: it is counted, and its sequence number and its sender's serial number are noted. -/
def State.received (s : State) (h : TwinHdr) : State :=
  ((s.setTwin { s.twin with rxSeq := some h.seq, gotFrame := true }).setReg Reg.TWIN_PSERIAL h.serial).podCount 49 1

/-! ### Terms that statements about updates use -/

/-- An update datagram is taken (R417, R420, R421): in SPROUT from the update tool, elsewhere from a configured source of a session that
holds UPDATE. -/
structure State.UpdTakes (s : State) (u : UpdMsg) (len : Nat) : Prop where
  form : u.ver = 1 ∧ u.flags = 0 ∧ u.len.toNat = len ∧ u.crcOk = true
  from_ : (s.opState = 1 ∧ u.port ≠ some 1 ∧ s.nv.lifecycle ≠ 3) ∨
    (s.opState ≠ 0 ∧ s.opState ≠ 1 ∧ s.opState ≠ 9 ∧ u.port ≠ none ∧ u.session.toNat < 16 ∧ s.peerOf u.session.toNat u.src = true ∧
      s.permits u.session.toNat 6 = true)

/-- The reply to an update datagram (R417). -/
def updAnswer (u : UpdMsg) (type : Byte) (payload : List Byte) : OutMsg := .update ⟨u.port, type, u.session, u.xid, payload⟩

/-- The payload of an ACK: status, step of a rejection, and the offset expected next (R417). -/
def ackBytes (status step : Nat) (off : Word) : List Byte := [BitVec.ofNat 8 status, BitVec.ofNat 8 step, 0, 0] ++ wordBytes off

/-! ### Terms that statements about UBC use -/

/-- Pea `p` runs the release `x`, of a slot in the table, from a legal code half and without an upset bit, and `ops` more operations fit its
task. -/
structure State.Runs (s : State) (p : PeaId) (x : Release) (ops : Nat) : Prop where
  cur : (s.pea p).cur = some x
  run : s.peaState p = 3
  half : s.pod.half ≤ 1
  slot : x.slot < 32
  clean : (s.pea p).upsets = []
  fits : x.ops + ops ≤ maxOps s x.slot

/-- The word at `x.pc` is not the last of its task's code range. -/
def State.notLast (s : State) (x : Release) : Prop := ∃ t, s.taskDef x.slot = some t ∧ t.last ≠ x.pc

/-- Working register `r` of the release `x` in pea `p` (R46). -/
def State.workReg (s : State) (p : PeaId) (x : Release) (r : Nat) : Word := peaGet p (s.pea p) .ctx (x.slot * 64 + r)

/-- A pea after an instruction of `ops` operations of the release `x`: the release goes on at `pc`, and the operations count. -/
def Pea.goesOn (y : Pea) (x : Release) (ops pc : Nat) : Pea :=
  { y with cur := some { x with pc := pc, ops := x.ops + ops }, opsCycle := y.opsCycle + ops }

end Sys2Proof.Machine
end

