-- ==== Sys2Proof/Certificates/Slice0/Obligations.lean ====
section
/-! DEFINITION. The statements for the provers. Each follows rules of the spec; where a clause rests on a choice of the model, its docstring
names the entry of the assumption log. -/

open Sys2Proof Sys2Proof.Machine

/-! ### The step, the invariant and reset -/

/-- The queue is served first in, first out: a step runs the front command on the state with the rest of the queue. (The queue is the
model's, log entry 2.) -/
def Obligations.StepRunsFront : Prop :=
  ∀ (s : State) (c : Instr) (rest : List Instr), s.pending = c :: rest →
    Sys2Proof.Machine.step s = Sys2Proof.Machine.exec c { s with pending := rest }

/-- The model's choice (log entry 2): on an empty queue a step is one timebase tick of 40 ns (R27), in which the vital-to-service buffer
drains. Station time passes by those 40 ns where nothing is slewed and no rate trim is in effect, by 1 ns more or less where only a slewing
step falls on the tick (R405, R406). Cycles, peas, commit values and memory stay, and of the non-volatile state all but the recorder. -/
def Obligations.IdleStepIsATick : Prop :=
  ∀ s : State, s.pending = [] → ∃ t, Sys2Proof.Machine.step s = .next t ∧ t.ticks = s.ticks + 1 ∧ t.fld Fld.BRG_VTS_NOW = 0 ∧
    (s.rateTrim = 0 → s.clock.trim = 0 → (s.reg Reg.TIME_SLEW = 0 → t.now = s.now + 40) ∧
      ((s.reg Reg.TIME_SLEW).msb = false → s.reg Reg.TIME_SLEW ≠ 0 → t.now = s.now + 40 + (if (s.ticks + 1) %
        (if s.clock.slewPpm = 100 then 250 else 25) = 0 then 1 else 0))) ∧
    t.cyc = s.cyc ∧ t.pod = s.pod ∧ t.com = s.com ∧ t.ive = s.ive ∧ t.mem = s.mem ∧ t.boot = s.boot ∧
    t.nv = { s.nv with recorder := t.nv.recorder } ∧ t.pending = []

/-- Every command completes in every state (the model's choice, log entry 1), and no command touches the queue of the commands that wait.
-/
def Obligations.EveryCommandCompletes : Prop :=
  ∀ (c : Instr) (s : State), ∃ t, Sys2Proof.Machine.exec c s = .next t ∧ (s.Inv → t.pending = s.pending)

/-- Every step keeps the invariant: canonical memories and tables, queues within their capacity, legal bank and half selectors. The
canonical form is the model's; the capacities are those of R319 and R323, the selectors those of R126 and R141. -/
def Obligations.StepKeepsInv : Prop :=
  ∀ s t : State, s.Inv → Sys2Proof.Machine.step s = .next t → t.Inv

/-- The invariant holds after reset. After reset every register holds the value that its Reset column spells (R16): the lanes, rings,
channels, queues and sessions of SYS_CAP, the memory sizes of a pea's PEA_CAP0, and so on; no cycle runs, no command waits, no memory byte
is written. Where the spec gives no reset value, the values are the model's (log entries 7 to 10). -/
def Obligations.ResetState : Prop :=
  (State.reset.Inv) ∧
  ((∀ a, State.reset.reg a = resetOf a) ∧ State.reset.reg 0x40000008 = 0x03042000 ∧ State.reset.reg 0x4000000C = 0x00401001 ∧
  State.reset.reg 0x40008008 = 0x08041020 ∧ State.reset.reg 0x4000000F = 0 ∧ State.reset.opState = 0 ∧
  State.reset.cyc.running = false ∧ State.reset.pending = [] ∧ State.reset.mem = [] ∧ ∀ p m a, peaGet p (State.reset.pea p) m a = 0)

/-- A pea's memories read back what was written, in whatever encoding the pea stores it (R52, R53): the same word gives the value written,
every other word of the four memories what it gave before; pea b stores the complement, pea c at the scrambled address, as the table of
R52 gives them. -/
def Obligations.PeaMemoryReads : Prop :=
  (∀ v : Word, rawWord .a v = v ∧ rawWord .b v = ~~~v ∧ rawWord .c v = v) ∧
  (∀ m w, w < 2 ^ memBits m → physAddr .a m w = w ∧ physAddr .b m w = w) ∧
  (∀ w : BitVec 21, physAddr .c .mram w.toNat = (w.rotateLeft 11 ^^^ 0x13A9C#21).toNat) ∧
  (∀ w : BitVec 20, physAddr .c .sram w.toNat = (w.rotateLeft 7 ^^^ 0xA5C36#20).toNat) ∧
  (∀ w : BitVec 16, physAddr .c .scratch w.toNat = (w.rotateLeft 5 ^^^ 0x6B2D#16).toNat) ∧
  (∀ w : BitVec 11, physAddr .c .ctx w.toNat = (w.rotateLeft 3 ^^^ 0x5A3#11).toNat) ∧
  ∀ (p : PeaId) (x : Pea) (m k : MemKind) (a b : Nat) (v : Word), a < 2 ^ memBits m → b < 2 ^ memBits k →
    peaGet p (peaPut p x m a v) k b = (if k = m ∧ b = a then v else peaGet p x k b) ∧
    Store.get (fun _ => rawWord p 0) (peaArray (peaPut p x m a v) m) (physAddr p m a) = rawWord p v ∧
    (peaPut p x m a v).cur = x.cur ∧ (peaPut p x m a v).dr = x.dr ∧ (peaPut p x m a v).dig = x.dig

/-! ### The UBC instructions (R104 to R122) -/

/-- The instructions of format R that write f(a, b) to d, with f and the operations they cost (R107, R115). -/
def Sys2Proof.Machine.binaryTable : List ((PeaId → BitVec 24 → Instr) × (Word → Word → Word) × Nat) :=
  [(.add, fun a b => sat32 (a.toInt + b.toInt), 1), (.sub, fun a b => sat32 (a.toInt - b.toInt), 1),
   (.mul, fun a b => sat32 (a.toInt * b.toInt), 2), (.min, fun a b => if b.toInt < a.toInt then b else a, 1),
   (.max, fun a b => if a.toInt < b.toInt then b else a, 1), (.andOp, fun a b => a &&& b, 1), (.orOp, fun a b => a ||| b, 1),
   (.xorOp, fun a b => a ^^^ b, 1), (.shl, fun a b => if 31 < b.toNat then 0 else a <<< b.toNat, 1),
   (.shr, fun a b => if 31 < b.toNat then 0 else a >>> b.toNat, 1), (.ceq, fun a b => if a = b then 1 else 0, 1),
   (.clt, fun a b => if a.toInt < b.toInt then 1 else 0, 1)]

/-- ADD, SUB, MUL, MIN, MAX, AND, OR, XOR, SHL, SHR, CEQ and CLT: each instruction of the table writes f(a, b) to working register d of the
running release and goes on with the next word; of the pea nothing else changes, and of the rest only events, counters, records and samples.
MOV, NEG, LDI, LDIH, VCONST, ADDI and SYMH (R107, R115): what they write to their destination. DIV with a divisor other than 0: the quotient
truncated toward 0, saturating (R107, R115). Saturation (R115): results, DIV by 0 and the one quotient that does not fit, int16 values as
they are stored and loaded. -/
def Obligations.ArithmeticInstructions : Prop :=
  (∀ e ∈ binaryTable, ∀ (s : State) (p : PeaId) (x : Release) (w : BitVec 24),
    s.Runs p x e.2.2 → s.notLast x → zero w 5 0 = true →
    ∃ t, exec (e.1 p w) s = .next t ∧
      State.logged (s.setPea p ((peaPut p (s.pea p) .ctx (x.slot * 64 + opD w)
        (e.2.1 (s.workReg p x (opA w)) (s.workReg p x (opB w)))).goesOn x e.2.2 (x.pc + 1))) t) ∧
  (∀ (s : State) (p : PeaId) (x : Release) (w : BitVec 24), s.Runs p x 1 → s.notLast x →
    let writes := fun (c : Instr) (r : Nat) (v : Word) => ∃ t, exec c s = .next t ∧
      State.logged (s.setPea p ((peaPut p (s.pea p) .ctx (x.slot * 64 + r) v).goesOn x 1 (x.pc + 1))) t
    (zero w 11 0 = true → writes (.mov p w) (opD w) (s.workReg p x (opA w))) ∧
    (zero w 11 0 = true → writes (.neg p w) (opD w) (sat32 (-(s.workReg p x (opA w)).toInt))) ∧
    (zero w 17 16 = true → writes (.ldi p w) (opD w) ((opImm w).signExtend 32)) ∧
    (zero w 17 16 = true → writes (.ldih p w) (opD w) (opImm w ++ (s.workReg p x (opD w)).extractLsb' 0 16)) ∧
    (zero w 17 16 = true → opImm w = 1 ∨ opImm w = 2 → writes (.vconst p w) (opD w) ((opImm w).zeroExtend 32)) ∧
    (zero w 17 16 = true → writes (.addi p w) (opD w) (sat32 ((s.workReg p x (opD w)).toInt + (opImm w).toInt))) ∧
    (opSym w < 0xFFF00 → (s.symbol (opSym w)).isSome → writes (.symh p w) (opQ w) (w32 (opSym w)))) ∧
  (∀ (s : State) (p : PeaId) (x : Release) (w : BitVec 24), s.Runs p x 8 → s.notLast x → zero w 5 0 = true →
    s.workReg p x (opB w) ≠ 0 →
    ∃ t, exec (.div p w) s = .next t ∧
      State.logged (s.setPea p ((peaPut p (s.pea p) .ctx (x.slot * 64 + opD w)
        (sat32 (Int.tdiv (s.workReg p x (opA w)).toInt (s.workReg p x (opB w)).toInt))).goesOn x 8 (x.pc + 1))) t) ∧
  ((∀ i : Int, (sat32 i).toInt = max (-2147483648) (min i 2147483647)) ∧
  (sat32 (Int.tdiv (-2147483648) (-1)) = 0x7FFFFFFF) ∧
  (∀ v : Word, (storeValue 3 v).toInt = max (-32768) (min v.toInt 32767)) ∧
  (∀ v : Word, scalarGet 3 v = (v.extractLsb' 0 16).signExtend 32) ∧
  (∀ (j : Nat) (v : Word), elemGet 3 j v = ((v >>> (16 * (j % 2))).extractLsb' 0 16).signExtend 32) ∧
  ∀ (s : State) (p : PeaId) (x : Release) (w : BitVec 24), s.Runs p x 8 → zero w 5 0 = true → s.workReg p x (opB w) = 0 →
    exec (.div p w) s = .next ((sampleTry s p x 0x23).trapPea p x.slot x.pc 7))

/-- The vital instructions (R113, R114): on vital Booleans the logic gives the vital code of the result; the comparisons never differ from
their complemented form, so that they always complete; VASSERT of true only goes on. -/
def Obligations.VitalInstructions : Prop :=
  ∀ (s : State) (p : PeaId) (x : Release) (w : BitVec 24) (a b : Bool), s.notLast x →
    let writes := fun (c : Instr) (n : Nat) (v : Word) => ∃ t, exec c s = .next t ∧
      State.logged (s.setPea p ((peaPut p (s.pea p) .ctx (x.slot * 64 + opD w) v).goesOn x n (x.pc + 1))) t
    let ra := s.workReg p x (opA w)
    let rb := s.workReg p x (opB w)
    (s.Runs p x 1 → zero w 5 0 = true → ra = vital a → rb = vital b →
      writes (.vand p w) 1 (vital (a && b)) ∧ writes (.vor p w) 1 (vital (a || b)) ∧ writes (.vxor p w) 1 (vital (a != b))) ∧
    (s.Runs p x 1 → zero w 11 0 = true → ra = vital a →
      writes (.vnot p w) 1 (vital (!a)) ∧ writes (.vtonb p w) 1 (if a then 1 else 0)) ∧
    (∀ c d : Word, (c = d ↔ ¬ ~~~c ≠ ~~~d) ∧ (c.toInt < d.toInt ↔ ¬ (~~~c).toInt ≤ (~~~d).toInt)) ∧
    (s.Runs p x 2 → zero w 5 0 = true →
      writes (.vceq p w) 2 (vital (decide (ra = rb))) ∧ writes (.vclt p w) 2 (vital (decide (ra.toInt < rb.toInt)))) ∧
    (s.Runs p x 1 → zero w 23 18 = true → zero w 11 0 = true → ra = vital true →
      ∃ t, exec (.vassert p w) s = .next t ∧ State.logged (s.setPea p ((s.pea p).goesOn x 1 (x.pc + 1))) t)

/-- A vital operand that is neither vital code traps with VBOOL, VASSERT of false with VASSERT, TRAP with 0x80 + imm, a word of no listed
opcode with OPC, and operations beyond the declared maximum with OPSMAX (R106, R107, R113, R122, R133). A UBC trap latches the slot, the
code half and the word address (R450), and takes the pea out of service (R54, R88). -/
def Obligations.UbcTraps : Prop :=
  (∀ (s : State) (p : PeaId) (x : Release) (w : BitVec 24),
    let traps := fun (c : Instr) (op cause : Nat) => exec c s = .next ((sampleTry s p x op).trapPea p x.slot x.pc cause)
    (s.Runs p x 1 → zero w 5 0 = true → vital? (s.workReg p x (opA w)) = none →
      traps (.vand p w) 0x38 3 ∧ traps (.vor p w) 0x39 3 ∧ traps (.vxor p w) 0x3B 3) ∧
    (s.Runs p x 1 → zero w 23 18 = true → zero w 11 0 = true → s.workReg p x (opA w) = vital false → traps (.vassert p w) 0x3D 0xE) ∧
    (s.Runs p x 1 → zero w 23 7 = true → traps (.trap p w) 0x7E (0x80 + (opImm w).toNat)) ∧
    (s.Runs p x 0 → maxOps s x.slot < x.ops + 1 → zero w 5 0 = true → traps (.add p w) 0x20 0x11) ∧
    (s.Runs p x 0 → ∀ v : Word, definedOpcode (v.toNat / 2 ^ 24) = false →
      exec (.undefinedOpcode p v) s = .next (s.trapPea p x.slot x.pc 1))) ∧
  (∀ (s : State) (p : PeaId) (slot pc cause : Nat), s.inService p = true →
    (s.trapPea p slot pc cause).reg (Reg.PEA_x_TRAPPC (peaNum p)) = w32 (slot * 2 ^ 27 + s.pod.half * 2 ^ 20 + pc % 2 ^ 20) ∧
    (s.trapPea p slot pc cause).inService p = false)

/-- LD and LDX read a symbol's value as its type says, LD of a system symbol its value (R110 to R112, R115). -/
def Obligations.LoadInstructions : Prop :=
  ∀ (s : State) (p : PeaId) (x : Release) (w : BitVec 24) (y : Symbol) (v : Word), s.notLast x →
    let writes := fun (c : Instr) (n r : Nat) (v : Word) => ∃ t, exec c s = .next t ∧
      State.logged (s.setPea p ((peaPut p (s.pea p) .ctx (x.slot * 64 + r) v).goesOn x n (x.pc + 1))) t
    (s.Runs p x 2 → opSym w < 0xFFF00 → s.symbol (opSym w) = some y → y.ty ≤ 4 → y.array = false →
      writes (.ld p w) 2 (opQ w) (scalarGet y.ty (peaGet p (s.pea p) (classMem y.cls) (s.symAddr y x.bank 0)))) ∧
    (s.Runs p x 2 → 0xFFF00 ≤ opSym w → systemSymbol x (opSym w) = some v → writes (.ld p w) 2 (opQ w) v) ∧
    (s.Runs p x 3 → zero w 5 0 = true → (s.workReg p x (opA w)).toNat < 0xFFF00 →
      s.symbol (s.workReg p x (opA w)).toNat = some y → y.ty ≤ 4 → y.array = true →
      (s.workReg p x (opB w)).msb = false → (s.workReg p x (opB w)).toNat < y.len →
      writes (.ldx p w) 3 (opD w) (elemGet y.ty (s.workReg p x (opB w)).toNat
        (peaGet p (s.pea p) (classMem y.cls) (elemWord s y x.bank (s.workReg p x (opB w)).toNat))))

/-- ST and STX store a value of the symbol's type where its class allows it, and leave a forced element as it is (R112, R115 to R117,
R159). -/
def Obligations.StoreInstructions : Prop :=
  ∀ (s : State) (p : PeaId) (x : Release) (w : BitVec 24) (y : Symbol) (v : Word), s.notLast x → y.ty ≤ 4 →
    boolOk y.ty v = true → vboolOk y.ty v = true → storeAllowed (s.taskVital x.slot) y = true →
    let leaves := fun (c : Instr) (n : Nat) (z : Pea) => ∃ t, exec c s = .next t ∧ State.logged (s.setPea p (z.goesOn x n (x.pc + 1))) t
    let i := (s.workReg p x (opB w)).toNat
    let word := elemWord s y x.bank i
    (s.Runs p x 2 → opSym w < 0xFFF00 → s.symbol (opSym w) = some y → y.array = false → v = s.workReg p x (opQ w) →
      (s.forceEntry y.id 0 = none → leaves (.st p w) 2
        (peaStore s.prog p (s.pea p) (classMem y.cls) (s.symAddr y x.bank 0) (storeValue y.ty v))) ∧
      ((s.forceEntry y.id 0).isSome → leaves (.st p w) 2 (s.pea p))) ∧
    (s.Runs p x 3 → zero w 5 0 = true → (s.workReg p x (opA w)).toNat < 0xFFF00 →
      s.symbol (s.workReg p x (opA w)).toNat = some y → y.array = true → (s.workReg p x (opB w)).msb = false → i < y.len →
      v = s.workReg p x (opD w) →
      (s.forceEntry y.id i = none → leaves (.stx p w) 3 (peaStore s.prog p (s.pea p) (classMem y.cls) word
        (elemPut y.ty i (peaGet p (s.pea p) (classMem y.cls) word) (storeValue y.ty v)))) ∧
      ((s.forceEntry y.id i).isSome → leaves (.stx p w) 3 (s.pea p)))

/-- The branches (R109): with a target in the task's code range the release goes on at the target where the condition holds, else at the
next word; CALL and LOOP write their register first. -/
def Obligations.BranchInstructions : Prop :=
  ∀ (s : State) (p : PeaId) (x : Release) (w : BitVec 24), s.Runs p x 1 → s.notLast x →
    let goes := fun (c : Instr) (z : Pea) (pc : Nat) => ∃ t, exec c s = .next t ∧ State.logged (s.setPea p (z.goesOn x 1 pc)) t
    let r := s.workReg p x (opD w)
    let put := fun (i : Nat) (v : Word) => peaPut p (s.pea p) .ctx (x.slot * 64 + i) v
    let dest := fun (b : Bool) => if b then (branchTarget x.pc w).toNat else x.pc + 1
    (targetOk s x w = true →
      (zero w 23 16 = true → goes (.br p w) (s.pea p) (dest true) ∧ goes (.call p w) (put 63 (w32 (x.pc + 1))) (dest true)) ∧
      (zero w 17 16 = true →
        (∀ b, r = vital b → goes (.bt p w) (s.pea p) (dest b) ∧ goes (.bf p w) (s.pea p) (dest !b)) ∧
        goes (.bnz p w) (s.pea p) (dest (r != 0)) ∧ goes (.bz p w) (s.pea p) (dest (r = 0)) ∧
        goes (.loop p w) (put (opD w) (sat32 (r.toInt - 1))) (dest (0 < (sat32 (r.toInt - 1)).toInt)))) ∧
    (zero w 23 0 = true → inCode s x.slot (s.workReg p x 63).toNat = true →
      goes (.ret p w) (s.pea p) (s.workReg p x 63).toNat)

/-- The timer instructions (R118): TSTART and TSTOP write the timer's state, TREAD and TEXP read its count and its expiry. EDGE (R120):
the first sample gives no edge, a later one the edge of the detector's type against the stored sample; the sample is stored. -/
def Obligations.TimerAndEdgeInstructions : Prop :=
  (∀ (s : State) (p : PeaId) (x : Release) (w : BitVec 24) (y : Symbol), s.Runs p x 2 → s.notLast x → opSym w < 0xFFF00 →
    s.symbol (opSym w) = some y → y.ty = 5 →
    let m := classMem y.cls
    let a := s.symAddr y x.bank 0
    let w0 := peaGet p (s.pea p) m a
    timerOk w0 (peaGet p (s.pea p) m (s.symAddr y x.bank 1)) = true →
    let leaves := fun (c : Instr) (z : Pea) => ∃ t, exec c s = .next t ∧ State.logged (s.setPea p (z.goesOn x 2 (x.pc + 1))) t
    let q := s.workReg p x (opQ w)
    (q.toNat < 2 ^ 24 → y.cls ≠ 0 ∨ s.taskVital x.slot = true → leaves (.tstart p w)
      (peaStore s.prog p (peaStore s.prog p (s.pea p) m a 0x69000000) m (a + 1) (if q = 0 then w32 (y.len % 2 ^ 24) else q))) ∧
    (zero w 23 20 = true → y.cls ≠ 0 ∨ s.taskVital x.slot = true → leaves (.tstop p w)
      (peaStore s.prog p (s.pea p) m a (w32 (0x3C000000 + bitsOf 23 0 w0.toNat)))) ∧
    leaves (.tread p w) (peaPut p (s.pea p) .ctx (x.slot * 64 + opQ w) (w32 (bitsOf 23 0 w0.toNat))) ∧
    leaves (.texp p w) (peaPut p (s.pea p) .ctx (x.slot * 64 + opQ w) (classBool y.cls (bitsOf 31 24 w0.toNat = 0x96)))) ∧
  (∀ (s : State) (p : PeaId) (x : Release) (w : BitVec 24) (y : Symbol) (cur prev : Bool), s.Runs p x 3 → s.notLast x →
    opSym w < 0xFFF00 → s.symbol (opSym w) = some y → y.ty = 6 → y.cls ≠ 0 ∨ s.taskVital x.slot = true →
    s.workReg p x (opQ w) = classBool y.cls cur →
    let m := classMem y.cls
    let a := s.symAddr y x.bank 0
    let d := peaGet p (s.pea p) m a
    let edge := if bitsOf 31 31 d.toNat = 0 then false else isEdge y.edge prev cur
    (bitsOf 31 31 d.toNat = 1 → w32 (bitsOf 1 0 d.toNat) = classBool y.cls prev) →
    ∃ t, exec (.edge p w) s = .next t ∧
      State.logged (s.setPea p ((peaPut p (peaStore s.prog p (s.pea p) m a (w32 (2 ^ 31 + (classBool y.cls cur).toNat))) .ctx
        (x.slot * 64 + opQ w) (classBool y.cls edge)).goesOn x 3 (x.pc + 1))) t)

/-- The EMIT instructions and the token kinds that they emit (R73, R121). -/
def Sys2Proof.Machine.emitTable : List ((PeaId → BitVec 24 → Instr) × Nat) :=
  [(.emitCmd, 0), (.emitPoint, 1), (.emitSignal, 2), (.emitLock, 3), (.emitRelease, 4), (.emitHres, 5)]

/-- EMIT_CMD, EMIT_POINT, EMIT_SIGNAL, EMIT_LOCK, EMIT_RELEASE and EMIT_HRES: an EMIT of a legal token puts it, with its check word, at the
end of the delay register, and the release counts it; the pea goes on where the register stays below the held level (R71 to R77, R121). END
(R74): the END token of the release goes into the delay register with its cycle and its operations, and the pea takes the next release of
its queue, with its working registers 0, or becomes idle. -/
def Obligations.EmitAndEnd : Prop :=
  (∀ e ∈ emitTable, ∀ (s : State) (p : PeaId) (x : Release) (w : BitVec 24) (d : TaskDef), s.Runs p x 4 → s.taskDef x.slot = some d →
    d.last ≠ x.pc → zero w 11 0 = true → e.2 = 5 ∨ s.taskVital x.slot = true →
    let p0 := s.workReg p x (opD w)
    let p1 := s.workReg p x (opA w)
    let tag := makeTag x.slot e.2 x.cycle x.idx
    let y := s.pea p
    tokenLegal s e.2 p0 p1 = true → x.idx < 16383 → x.idx + 1 < d.maxTok → y.dr.length < 23 →
    ∃ t, exec (e.1 p w) s = .next t ∧ (t.pea p) = Pea.goesOn { y with dr := y.dr ++ [⟨tag, p0, p1, tokenCheck p tag p0 p1⟩] }
        { x with idx := x.idx + 1 } 4 (x.pc + 1) ∧
      ∀ q, q ≠ p → t.pea q = s.pea q) ∧
  (∀ (s : State) (p : PeaId) (x r : Release) (rest : List Release), s.Runs p x 4 → s.inService p = true → (s.pea p).dr.length < 23 →
    (s.pea p).queue = r :: rest →
    let tag := makeTag x.slot 6 x.cycle x.idx
    let ops := w32 (Nat.min (x.ops + 4) 0xFFFFFFFF)
    ∃ t, exec (.endOp p 0) s = .next t ∧
      (t.pea p).dr = (s.pea p).dr ++ [⟨tag, x.cycle, ops, tokenCheck p tag x.cycle ops⟩] ∧
      (t.pea p).cur = some r ∧ (t.pea p).queue = rest ∧ t.peaState p = 3 ∧
      (∀ i, i < 64 → r.slot < 32 → t.workReg p r i = 0) ∧ ∀ q, q ≠ p → t.pea q = s.pea q)

/-! ### The vital cycle (R27 to R40, R127 to R132) -/

/-- VITAL_CYCLE_BOUNDARY: while cycles run, and no exchange is due, the next cycle begins at this tick, and in RUN the outputs take the
commit set of the cycle before (R30, R39), whose values stay but where a unit that was UNSYNCED takes ACTIVE (R296); LINK shows which
rings are dark; service memory and the waiting commands stay. TASK_DEADLINE (R36, R59, R129): every pea in service that has not become idle is marked as overrun with margin 0, the
slots whose releases of the cycle are unfinished stand in TASK_OVRVEC, and a vital one marks the cycle; nothing else of the cycle, the pod
or the commit buffer changes. That each row is a command of its own is the model's choice (log entries 4 to 6 and 24). -/
def Obligations.CycleEvents : Prop :=
  (∀ (s : State) (b : BoundarySight) (bad : List PeaId), s.cyc.running = true → s.exchangeDue s.nextCycle = false →
    ∃ t, exec (.vitalCycleBoundary b bad) s = .next t ∧ t.cyc.n = s.nextCycle ∧ t.cyc.tick0 = s.ticks ∧ t.ticks = s.ticks ∧
      t.mem = s.mem ∧ t.pending = s.pending ∧ (t.cyc.running = true → ∀ r : Fin 4, t.flag (Fld.RNG_x_STAT_LINK r) = !b.dark.contains r) ∧
      (s.opState = 5 ∨ s.opState = 6 → t.com.applied = s.com.committed ∧
        (s.twin.takeover = none ∨ s.role ≠ 2 → t.com.committed = s.com.committed))) ∧
  (∀ s : State, s.cyc.running = true → s.boot.running = true →
    let slots := (List.range 32).filter fun i => s.serving.any fun p => (s.unfinished p).contains i
    ∃ t, exec .taskDeadline s = .next t ∧ t.reg Reg.TASK_OVRVEC = State.slotVec slots ∧
      (∀ p ∈ s.serving, (s.pea p).cur.isSome → t.fld (Fld.PEA_x_STAT_OVERRUN (peaNum p)) = 1 ∧ t.reg (Reg.PEA_x_MARGIN (peaNum p)) = 0) ∧
      (∀ i ∈ slots, t.fld (Fld.TASK_STATs_OVRCNT i) = Nat.min (s.fld (Fld.TASK_STATs_OVRCNT i) + 1)
        (2 ^ ((Fld.TASK_STATs_OVRCNT i).hi - (Fld.TASK_STATs_OVRCNT i).lo + 1) - 1)) ∧
      t.cyc = { s.cyc with overran := s.cyc.overran || slots.any (· < 8) } ∧ t.pod = s.pod ∧ t.com = s.com ∧ t.ive = s.ive ∧ t.mem = s.mem)

/-- COMMIT_POINT (R37): the commit set of a cycle is formed once; the applied set stays until the next boundary (R39), and a second commit
point of the cycle changes nothing; state digests of the two halves of the IVE that differ are its kernel fault (R201). The commit set (R37,
R38): a task's tokens leave the buffer together with its END token, and those of a task whose END has not been voted stay; a token of kind
CMD, POINT or SIGNAL gives its object its word, and no other object's word changes. What is keyed by a release is the model's choice (log
entry 25). -/
def Obligations.CommitSet : Prop :=
  (∀ s : State, s.cyc.running = true → s.boot.running = true →
    (s.com.formed = false → ∃ t, exec .commitPoint s = .next t ∧ t.com.formed = true ∧ t.com.applied = s.com.applied ∧
      t.cyc.n = s.cyc.n ∧ t.ticks = s.ticks ∧ t.mem = s.mem ∧
      (s.inExchange = false → (∀ p, (s.pea p).lagging = false) →
        t.com.buffer = s.com.buffer.filter fun x => !(s.readyReleases.contains (releaseKey x))) ∧
      (s.ive.apart = true → s.opState = 4 ∨ s.opState = 5 ∨ s.opState = 6 → s.boot.holdup = none → t.safeFor 2)) ∧
    (s.com.formed = true → exec .commitPoint s = .next s)) ∧
  ((∀ s : State, s.formSet.com.buffer = s.com.buffer.filter fun t => !(s.readyReleases.contains (releaseKey t))) ∧
  ∀ (s : State) (t : Released) (o : Nat),
    Store.get (fun _ => (0 : Word)) (s.commitToken t).com.committed o =
      (if tagKind t.tag ≤ 2 ∧ o = bitsOf 31 16 t.p0.toNat then commitWord t else Store.get (fun _ => (0 : Word)) s.com.committed o))

/-- IMAGE_CLOSE in a ring cycle that is not the last of its vital cycle (R31): every entry takes the windows received since the last close
point, and no image is closed.  In the last ring cycle each entry ages too, and the image carries the local inputs of the same close point
(R32, R33).  Where no cycle runs, a frame that has not returned is lost and sets OPEN (R249). An entry (R31, R32): a valid window makes it
fresh, two that agree in their counter but not in their status give the restrictive default, none leaves it, and an entry without a window
in the vital cycle ages, is LOST beyond age 3 and restrictive then. Counters that differ by 128 give a free value (log entry 15). -/
def Obligations.ImageClose : Prop :=
  (∀ s : State, s.cyc.running = true → ∃ t, exec .imageClose s = .next t ∧ t.pod = s.pod ∧ t.com = s.com ∧ t.ive = s.ive ∧ t.mem = s.mem ∧
    (s.lastRing = false → t.cyc = { s.cyc with entries := s.cyc.entries.map closeEntry }) ∧
    (s.lastRing = true → t.cyc.entries = (s.cyc.entries.map closeEntry).map ageEntry ∧
      ∃ img, t.cyc.waiting = some img ∧ img.entries = t.cyc.entries ∧ img.localIn = s.reg Reg.FIO_IN ∧ img.localLost = s.reg Reg.FIO_LOST ∧
        img.reqs.length ≤ 64)) ∧
  (∀ s : State, s.cyc.running = false → ∃ t, exec .imageClose s = .next t ∧ t.cyc = s.cyc ∧ t.com = s.com ∧ t.pod = s.pod ∧
    ∀ r, r < 4 → s.masters r = true → (s.port r).launched ≠ none → (t.port r).launched = none ∧
      t.flag ⟨regAddr (Page.RNG r) 0x14, Evt.RNG_OPEN, Evt.RNG_OPEN⟩ = true) ∧
  (∀ e : CtrlEntry,
    (∀ a b, e.rxA = some a → e.rxB = some b → a.cnt = b.cnt → a.status ≠ b.status →
      (closeEntry e).status = BitVec.allOnes 64 ∧ (closeEntry e).cnt = a.cnt) ∧
    (∀ a b, e.rxA = some a → e.rxB = some b → later8 b.cnt a.cnt = true →
      (closeEntry e).status = b.status ∧ (closeEntry e).cnt = b.cnt) ∧
    ((e.rxA.isSome || e.rxB.isSome) = true → (closeEntry e).age = 0 ∧ (closeEntry e).lost = false ∧ (ageEntry (closeEntry e)).age = 0) ∧
    (e.rxA = none → e.rxB = none → closeEntry e = e) ∧
    (e.heard = false → e.age ≤ 7 → (ageEntry e).age = min (e.age + 1) 7 ∧
      (3 < e.age + 1 → (ageEntry e).lost = true ∧ (ageEntry e).status = BitVec.allOnes 64 ∧ (ageEntry e).cnt = e.cnt)))

/-- The core setpoint of the next cycle in loop mode (R60), by the margin in percent of the limiting pea; outside RUN nothing is decided
(R61). (The margin in percent is log entry 27.) -/
def Obligations.SetpointLoop : Prop :=
  ∀ s : State, (s.isRun = false → s.decideSupply = s) ∧
    ∀ p : PeaId, s.isRun = true → s.limitingPea = some p → s.flag Fld.PWR_DVSCTRL_MODE = false →
    let m := if s.taskWindow = 0 then 0 else min (s.peaMargin p * 100 / s.taskWindow) 100
    let t := s.decideSupply
    let now := s.fld Fld.PWR_VCORE_SET
    let tgt := s.fld Fld.PWR_DVSPARAM_TGT
    (s.cyc.overran = true ∨ m < s.fld Fld.PWR_DVSPARAM_FLOOR → t.cyc.dvsNext = some 36) ∧
    (s.cyc.overran = false → s.fld Fld.PWR_DVSPARAM_FLOOR ≤ m → m < tgt →
      t.cyc.dvsNext = some (min (now + s.fld Fld.PWR_DVSPARAM_UP_STEP) 36)) ∧
    (s.cyc.overran = false → s.fld Fld.PWR_DVSPARAM_FLOOR ≤ m → tgt ≤ m → m ≤ tgt + s.fld Fld.PWR_DVSPARAM_BAND →
      t.cyc.dvsNext = s.cyc.dvsNext ∧ t.cyc.dvsHold = 0) ∧
    (s.cyc.overran = false → s.fld Fld.PWR_DVSPARAM_FLOOR ≤ m → tgt + s.fld Fld.PWR_DVSPARAM_BAND < m →
      s.fld Fld.PWR_DVSPARAM_DOWN_HOLD ≤ s.cyc.dvsHold + 1 → t.cyc.dvsNext = some (now - 1))

/-! ### Program exchange (R137 to R152) -/

/-- EXCHANGE_CYCLE (R148): the exchange cycle begins at this tick, and the outputs hold. With the staged image verified in every pea that is
in service or in REJOIN, and nothing else due at the boundary that could stop the kernel, it runs the staged program: the peas fetch from
the other half, every pea in service migrates, and no task stands in the skip vector. (Log entry 26.) -/
def Obligations.ExchangeSwitches : Prop :=
  ∀ (s : State) (old new : Program), s.cyc.running = true → s.exchangeDue s.nextCycle = true → s.prog = some old →
    s.xch.staged = some new → s.opState = 5 ∨ s.opState = 6 →
    ∃ t, exec .exchangeCycle s = .next t ∧ t.cyc.n = s.nextCycle ∧ t.cyc.tick0 = s.ticks ∧ t.com.applied = s.com.committed ∧
      (s.isTwin = false → s.boot.safe9 = false → s.boot.sleep = none → s.upd.sched = none → s.pod.rejoin = none →
        s.pod.rotPending = false → (∀ p, s.inService p = true ∨ s.peaState p = 7 → p ∈ s.xch.ready) →
        t.cyc.running = true ∧ t.prog = some new ∧ t.xch.old = some old ∧ t.xch.staged = none ∧ t.xch.armed = none ∧
        t.pod.half = 1 - s.pod.half ∧ t.pod.skipVec = [] ∧ t.reg Reg.TASK_RELVEC = 0 ∧ t.xch.migrating = s.serving)

/-- STAGED_IMAGE_VERIFIED writes the staged words into the other half of the pea's program memory, and marks the pea where the CRC of what
it reads back is the image's (R142); a failed comparison leaves it unmarked.  XREADY_TIMEOUT, after 1 s, refuses the arming with
TWIN_NOT_READY, or goes on alone where ALONE is set (R145).  MIGRATION_END ends the walk of one pea and leaves the others (R150). -/
def Obligations.ExchangeEvents : Prop :=
  (∀ (s : State) (p : PeaId) (x : ReadBack) (new : Program), s.xch.staged = some new → s.peaState p ≠ 0 →
    s.peaState p ≠ 6 →
    ∃ t, exec (.stagedImageVerified p x) s = .next t ∧
      (x.pea = [] → t.pea p =
        new.code.foldl (fun x w => peaPut p x .mram ((1 - s.pod.half) * 2 ^ 20 + w.1 % 2 ^ 20) w.2) (s.pea p)) ∧
      (∀ q, q ≠ p → t.pea q = s.pea q) ∧ t.prog = s.prog ∧ t.com = s.com ∧ t.cyc = s.cyc ∧
      (t.halfVerified p new (1 - s.pod.half) = true → bitsOf (16 + peaNum p) (16 + peaNum p) (t.reg Reg.PROG_XSTAT).toNat = 1) ∧
      (t.halfVerified p new (1 - s.pod.half) = false → t.fld Fld.PROG_XSTAT_PEAS = s.fld Fld.PROG_XSTAT_PEAS)) ∧
  (∀ (s : State) (a : Armed), s.xch.armed = some a → a.waiting = true → a.byPartner = false → a.since + 25000000 ≤ s.ticks →
    ∃ t, exec .xreadyTimeout s = .next t ∧ t.xch.staged = s.xch.staged ∧ t.prog = s.prog ∧ t.pod = s.pod ∧
      (a.alone = false → t.xch.armed = none ∧ t.fld Fld.PROG_REFUSE_CODE = 0x27) ∧
      (a.alone = true → (∃ b, t.xch.armed = some b ∧ b.x = a.x ∧ b.waiting = false ∧ b.mirrored = false) ∧ t.reg Reg.PROG_XCYCLE = a.x)) ∧
  ∀ (s : State) (p : PeaId) (old new : Program), s.xch.old = some old → s.prog = some new → p ∈ s.xch.migrating → s.inService p = true →
    ∃ t, exec (.migrationEnd p) s = .next t ∧ t.xch.migrating = s.xch.migrating.filter (· != p) ∧ t.prog = some new ∧
      t.com.committed = s.com.committed ∧ t.com.applied = s.com.applied ∧ t.cyc.n = s.cyc.n

/-! ### The invariant engine (R165 to R203) -/

/-- Each accepted token leaves the IVE's input and enters the commit buffer, and what the voters held back follows it (R165, R197). Its
decision takes effect on the IVE's state: LOCK locks the route, POINT commands the point, CANCEL frees the route or starts the approach
timer, EMERGENCY starts its timer, and a SIGNAL token and the light check take no other effect (R183 to R188). -/
def Obligations.IveAccepts : Prop :=
  ∀ (s : State) (x : Released) (rest : List Released), s.com.iveIn = x :: rest → s.pod.kfault = false → s.com.buffer.length < 16384 →
    let takes := fun (c : IveCheck → Instr) (v : Ive → Prop) => ∀ k apart, ∃ t later more, exec (c (.agree k apart)) s = .next t ∧
      t.com = { s.com with iveIn := rest ++ later, buffer := s.com.buffer ++ x :: more } ∧ v t.ive ∧
      t.ive.apart = (s.ive.apart || apart) ∧ t.ive.signals = s.ive.signals ∧ t.ive.status = s.ive.status ∧ t.cyc.n = s.cyc.n ∧ t.prog = s.prog
    let o := tokObj x
    let waits := s.proceedWaits (rEntry s.ive.tables o)
    (tagKind x.tag = 3 → s.ive.lockCode o (tokArg x) = 0 → takes .iveLock fun v =>
      v.route o = ⟨2, tokArg x, x.p1, false, true, none⟩ ∧ ∀ q, q ≠ o → v.route q = s.ive.route q) ∧
    (tagKind x.tag = 1 → s.lightToken x = false → s.ive.pointCode o (tokArg x) (tokRoute x) = 0 → takes .ivePoint fun v =>
      v.point o = { s.ive.point o with commanded := tokArg x } ∧ (∀ q, q ≠ o → v.point q = s.ive.point q) ∧ v.routes = s.ive.routes) ∧
    (tagKind x.tag = 2 → s.lightToken x = false → s.ive.signalCode o (tokArg x) (tokRoute x) = 0 → takes .iveSignal fun v =>
      v.routes = s.ive.routes ∧ v.points = s.ive.points ∧ v.sections = s.ive.sections) ∧
    (s.lightToken x = true → takes .iveLightCheck fun v => v.routes = s.ive.routes ∧ v.sections = s.ive.sections) ∧
    (tagKind x.tag = 4 → s.ive.releaseCode o waits = 0 →
      (tokArg x = 0 → s.ive.normalCode o (bitsOf 7 0 x.p0.toNat) = 0 → takes .iveReleaseNormal fun v =>
        (v.section_ (rElem s.ive.tables o (8 + bitsOf 7 0 x.p0.toNat)).obj).path = none ∧ ∀ q, q ≠ o → v.route q = s.ive.route q) ∧
      (tokArg x = 1 → (s.ive.route o).state = 2 → takes .iveReleaseCancel fun v =>
        if s.ive.cancelFree o then v.route o = freeRoute else (v.route o).state = 4 ∧ (v.route o).timer = some (s.vcyc,
          s.vcyc + w32 (Ive.presetCycles (rApproach s.ive.tables o) s.tvMs))) ∧
      (tokArg x = 2 → x.p1 ≠ 0 → takes .iveReleaseEmergency fun v => (v.route o).state = 6 ∧ (v.route o).timer = some (s.vcyc,
        s.vcyc + w32 (Ive.presetCycles (rApproach s.ive.tables o) s.tvMs))))

/-- A refused token is discarded: it changes no hold, route, point or commanded position, and no committed value; its code stands in
IVE_LASTREF (R165, R193). -/
def Obligations.IveRefuses : Prop :=
  ∀ (s : State) (x : Released) (rest : List Released), s.com.iveIn = x :: rest → s.pod.kfault = false →
    let refuses := fun (c : IveCheck → Instr) (code : Nat) => ∀ k apart, ∃ t later, exec (c (.agree k apart)) s = .next t ∧ t.com.iveIn = rest ++ later ∧
      t.com.committed = s.com.committed ∧ t.ive.routes = s.ive.routes ∧ t.ive.sections = s.ive.sections ∧ t.ive.points = s.ive.points ∧
      t.ive.signals = s.ive.signals ∧ bitsOf 23 16 (t.reg Reg.IVE_LASTREF).toNat = code % 256 ∧ t.reg Reg.IVE_LASTREQ = x.p1
    let o := tokObj x
    let waits := s.proceedWaits (rEntry s.ive.tables o)
    (tagKind x.tag = 3 → s.ive.lockCode o (tokArg x) ≠ 0 → refuses .iveLock (s.ive.lockCode o (tokArg x))) ∧
    (tagKind x.tag = 1 → s.lightToken x = false → s.ive.pointCode o (tokArg x) (tokRoute x) ≠ 0 →
      refuses .ivePoint (s.ive.pointCode o (tokArg x) (tokRoute x))) ∧
    (tagKind x.tag = 2 → s.lightToken x = false → s.ive.signalCode o (tokArg x) (tokRoute x) ≠ 0 →
      refuses .iveSignal (s.ive.signalCode o (tokArg x) (tokRoute x))) ∧
    (tagKind x.tag = 4 → s.ive.releaseCode o waits = 0 →
      (tokArg x = 1 → (s.ive.route o).state ≠ 2 → refuses .iveReleaseCancel 2) ∧ (tokArg x = 2 → x.p1 = 0 → refuses .iveReleaseEmergency 0x12) ∧
      (tokArg x ≠ 0 → tokArg x ≠ 1 → tokArg x ≠ 2 → refuses .iveReleaseNormal 0x10)) ∧
    (tagKind x.tag = 4 → s.ive.releaseCode o waits ≠ 0 →
      (tokArg x = 1 → refuses .iveReleaseCancel (s.ive.releaseCode o waits)) ∧
      (tokArg x = 2 → refuses .iveReleaseEmergency (s.ive.releaseCode o waits)) ∧
      (tokArg x ≠ 1 → tokArg x ≠ 2 → refuses .iveReleaseNormal (s.ive.releaseCode o waits)))

/-- A preset of p units of 100 ms at a cycle of tv ms gives the cycles of R189, and the time from the decision, `x` ms into its cycle, to
the expiry lies between the preset and two cycles more.  IVE_TIMER_EXPIRY (R189, R190): of the timers due at the next boundary, eight at
most expire, and each makes its route FREE; a second expiry in the cycle changes nothing.  IVE_SCRUB without a finding only counts (R168).
-/
def Obligations.IveTimersAndScrub : Prop :=
  (∀ p tv : Nat, 0 < tv → let c := Ive.presetCycles p tv
    1 ≤ c ∧ p * 100 ≤ (c - 1) * tv ∧ (c - 1) * tv < p * 100 + tv ∧
    ∀ x, x ≤ tv → p * 100 ≤ c * tv - x ∧ c * tv - x < p * 100 + 2 * tv) ∧
  (∀ (v : Ive) r st n c, ((Ive.startTimer v r st n c).route r).timer = some (n, n + w32 c)) ∧
  (∀ s : State, s.ive.expired = false →
    let due := (s.ive.routes.filter fun e => match e.2.timer with
      | some x => !later x.2 (s.vcyc + 1)
      | none => false).map Prod.fst
    ∃ t, exec .iveTimerExpiry s = .next t ∧ (∀ r ∈ due.take 8, t.ive.route r = freeRoute) ∧
      (∀ r, r ∉ due.take 8 → t.ive.route r = s.ive.route r) ∧ t.ive.expired = true ∧ t.com = s.com ∧ t.pod = s.pod ∧ t.cyc = s.cyc) ∧
  (∀ s : State, s.ive.expired = true → exec .iveTimerExpiry s = .next s) ∧
  ∀ (s : State) (passes corrected : Nat), s.flag Fld.IVE_CTRL_SCRUB_EN = true →
    ∃ t, exec (.iveScrub (.clean passes corrected)) s = .next t ∧
      State.noted ((s.addSat Fld.IVE_SCRUB_PASSES passes).addSat Fld.IVE_SCRUB_CORR corrected) t

/-! ### The voters and the pod (R71 to R102) -/

/-- A token copy reaches the voters (R79 to R81, R84): the first valid copy opens its position; in a triplex pod an equal second copy of the
next position releases the token, a POINT, SIGNAL, LOCK or RELEASE to the IVE (R86), and a differing one splits the position; in a duplex
pod a differing copy is a kernel fault, and so is a difference of the two voters (R78). (Which peas take part in a position is log entry
45.) A copy that fails its check is dropped, and in a triplex pod its pea is evicted; no position takes it (R80, R88). -/
def Obligations.TokenCopies : Prop :=
  (∀ (s : State) (p : PeaId) (x : Token) (rest : List Token), (s.pea p).dr = x :: rest → s.inService p = true →
    x.check = tokenCheck p x.tag x.p0 x.p1 → s.mayOpen (s.pea p).arrived = true → tagKind x.tag ≠ 7 →
    s.pod.a.lagging = false → s.pod.b.lagging = false → s.pod.c.lagging = false →
    let k := (s.pea p).arrived
    let tok : Released := ⟨x.tag, x.p0, x.p1⟩
    let open_ := s.pod.positions.find? fun q => q.index = k && q.st != .closed
    let gives := fun (post : State → Prop) => ∃ t, exec (.tokenCopyArrival p 0 false) s = .next t ∧ post t
    (open_ = none → s.closedToken k = none → gives fun t =>
      t.pod.positions = s.pod.positions ++ [⟨k, [⟨p, tok⟩], .one, none, s.ticks⟩] ∧ (t.pea p).dr = rest ∧ (t.pea p).arrived = k + 1 ∧
      t.com = s.com ∧ ∀ q, q ≠ p → t.pea q = s.pea q) ∧
    (∀ q y, open_ = some q → q.st = .one → q.copies = [y] →
      (s.fld Fld.POD_STAT_MODE = 1 → (otherPeas p).all (s.takesPart q) = true → y.tok = tok → k = s.pod.nextPass →
        1 ≤ tagKind x.tag → tagKind x.tag ≤ 4 → s.com.iveIn = [] → gives fun t =>
        t.com.iveIn = [tok] ∧ t.com.committed = s.com.committed) ∧
      (s.fld Fld.POD_STAT_MODE = 1 → (otherPeas p).all (s.takesPart q) = true → y.tok ≠ tok → gives fun t =>
        t.com = s.com ∧ (∃ z ∈ t.pod.positions, z.index = k ∧ z.st = .split ∧ z.copies = [y, ⟨p, tok⟩]) ∧ t.cyc = s.cyc) ∧
      (s.fld Fld.POD_STAT_MODE = 2 → y.tok ≠ tok → q.winner = none → s.opState = 5 → s.boot.holdup = none → gives fun t => t.safeFor 1 ∧
        t.com = s.com))) ∧
  (∀ (s : State) (p : PeaId) (x : Token) (rest : List Token) (mask : BitVec 128), (s.pea p).dr = x :: rest → s.inService p = true →
    s.mayOpen (s.pea p).arrived = true → s.opState = 5 ∨ s.opState = 6 → s.boot.holdup = none →
    ∃ t, exec (.tokenCopyArrival p mask true) s = .next t ∧ t.safeFor 1 ∧ t.com = s.com ∧ (t.pea p).dr = rest) ∧
  (∀ (s : State) (p : PeaId) (x : Token) (rest : List Token), (s.pea p).dr = x :: rest → s.inService p = true →
    x.check ≠ tokenCheck p x.tag x.p0 x.p1 → s.mayOpen (s.pea p).arrived = true → s.fld Fld.POD_STAT_MODE = 1 →
    ∃ t, exec (.tokenCopyArrival p 0 false) s = .next t ∧ t.inService p = false ∧ (t.pea p).dr = [] ∧
      bitsOf 27 24 (t.reg Reg.VOTE_FLAG).toNat = 1 ∧ t.reg Reg.VOTE_FLAGTAG = x.tag ∧ t.com.committed = s.com.committed)

/-- SKEW_TIMER_EXPIRY in a triplex pod: LATE is flagged against the one pea whose copy of the voted position is missing, which lags from
then on, and is evicted at its third cycle with LATE within 3,600 s (R81, R82, R88); with none missing nothing is flagged, and in a pod that
is not triplex no skew timer runs (R84).  HELD_RELEASE: a pea in HELD whose delay register has fallen to 16 tokens runs again (R77). A scrub
slice of `n` words in a pea without a defect moves the scrub on (R49), and one that ends the program memory counts the pass and shows its
check, which evicts the pea where it is not the image's (R51). (The length of a slice is log entry 45.) -/
def Obligations.VoterTimersAndScrub : Prop :=
  (∀ (s : State) (q : Position) (w : Released), s.pod.positions.find? (fun z => z.index = q.index && z.st = .voted) = some q →
    q.winner = some w →
    let copied := fun (p : PeaId) => ∃ c ∈ q.copies, c.pea = p
    (s.fld Fld.POD_STAT_MODE ≠ 1 → ∀ differ, exec (.skewTimerExpiry ⟨q.index, differ⟩) s = .next s) ∧
    (s.fld Fld.POD_STAT_MODE = 1 → (∀ p, s.takesPart q p = true → copied p) → ∃ t, exec (.skewTimerExpiry ⟨q.index, false⟩) s = .next t ∧
      t.com.committed = s.com.committed ∧ t.cyc.n = s.cyc.n ∧ t.reg Reg.VOTE_FLAG = s.reg Reg.VOTE_FLAG) ∧
    ∀ p, s.fld Fld.POD_STAT_MODE = 1 → s.takesPart q p = true → ¬ copied p → (∀ r, r ≠ p → s.takesPart q r = true → copied r) →
      let old := (s.pea p).lates.filter fun l => s.now < l.2 + 3600000000000
      let cycles := if old.any (fun l => l.1 = s.vcyc) then old.length else old.length + 1
      ∃ t, exec (.skewTimerExpiry ⟨q.index, false⟩) s = .next t ∧ t.com.committed = s.com.committed ∧ t.cyc.n = s.cyc.n ∧
        bitsOf 27 24 (t.reg Reg.VOTE_FLAG).toNat = 3 ∧ bitsOf 17 16 (t.reg Reg.VOTE_FLAG).toNat = peaNum p ∧
        t.reg Reg.VOTE_FLAGTAG = w.tag ∧
        (cycles < 3 → (t.pea p).lagging = true ∧ ∀ r, t.inService r = s.inService r) ∧ (3 ≤ cycles → t.inService p = false)) ∧
  (∀ (s : State) (p : PeaId), s.peaState p = 4 → (s.pea p).dr.length ≤ 16 →
    s.does (.heldRelease p) (s.setFld (Fld.PEA_x_STAT_STATE (peaNum p)) 3)) ∧
  (∀ (s : State) (p : PeaId) (n : Nat), s.inService p = true → s.peaState p = 2 → (s.pea p).scrubDone = false →
    s.flag (Fld.PEA_x_CTRL_SCRUB_EN (peaNum p)) = true → (s.pea p).upsets = [] → n ≤ 1024 →
    let moved := s.setPea p { s.pea p with scrubDone := n = 1024, scrubAt :=
      [(MemKind.mram, 0), (.sram, 1), (.scratch, 2), (.ctx, 3)].map fun m => ((s.pea p).scrubAt.getD m.2 0 + n) % 2 ^ memBits m.1 }
    ((s.pea p).scrubAt.getD 0 0 + n < 2 ^ 21 → s.does (.peaScrubSlice p n []) moved) ∧
    (2 ^ 21 ≤ (s.pea p).scrubAt.getD 0 0 + n → s.programCheck p = s.imageCheck → s.does (.peaScrubSlice p n [])
      ((moved.addSat (Fld.PEA_x_SCRUB_PASSES (peaNum p)) 1).setReg (Reg.PEA_x_PROGCHK (peaNum p)) s.imageCheck)) ∧
    (2 ^ 21 ≤ (s.pea p).scrubAt.getD 0 0 + n → s.programCheck p ≠ s.imageCheck → ∃ t, exec (.peaScrubSlice p n []) s = .next t ∧
      t.inService p = false ∧ t.reg (Reg.PEA_x_PROGCHK (peaNum p)) = s.programCheck p))

/-- The kernel faults of R88, R167, R57, R64 to R66, each with its SAFE cause of R217: the kernel stops in SAFE or SAFE_LOCKOUT, and the
commit buffer and the committed values stay.  They are the faults of the voters and of the IVE, those that a decision of the IVE meets, a
split position that stays split, voters that differ in a flag, the clocks and the core rail. After a declared supply loss no entry is made
(R437). (In which states the monitors act is log entry 51.) -/
def Obligations.KernelFaults : Prop :=
  ∀ s : State, s.opState = 2 ∨ s.opState = 4 ∨ s.opState = 5 ∨ s.opState = 6 → s.boot.holdup = none →
    let stops := fun (c : Instr) (cause : Nat) => ∃ t, exec c s = .next t ∧ t.safeFor cause ∧ t.com = s.com ∧ t.cyc.n = s.cyc.n ∧
      t.mem = s.mem
    let iveStops := fun (c : IveCheck → Instr) => stops (c .differ) 2 ∧ ∀ h, stops (c (.badTable h)) 2 ∧ stops (c (.badState h)) 2
    (∀ v, stops (.codeViolation (.voter v)) 1 ∧ stops (.stallTimeout (.voter v)) 1) ∧
    (∀ h, stops (.codeViolation (.ive h)) 2 ∧ stops (.stallTimeout (.ive h)) 2) ∧
    (∀ b, stops (.oscillatorStopped b) 4) ∧ (∀ b, stops (.coreRailOutOfWindow b) 5) ∧
    (∀ n, 1048629 ≤ n ∨ n ≤ 1048523 → stops (.timebaseWindowEnd n) 4) ∧
    (∀ k, (s.pod.positions.find? fun q => q.index = k && q.st = .split).isSome → ∀ differ, stops (.splitTimerExpiry ⟨k, differ⟩) 1) ∧
    (∀ k, (s.pod.positions.find? fun q => q.index = k && q.st = .voted).isSome → s.fld Fld.POD_STAT_MODE = 1 →
      stops (.skewTimerExpiry ⟨k, true⟩) 1) ∧
    (s.flag Fld.IVE_CTRL_SCRUB_EN = true → stops (.iveScrub .difference) 2 ∧ ∀ h, stops (.iveScrub (.badTable h)) 2 ∧
      stops (.iveScrub (.badState h)) 2) ∧
    ∀ x rest, s.com.iveIn = x :: rest → s.pod.kfault = false →
      (tagKind x.tag = 3 → iveStops .iveLock) ∧ (tagKind x.tag = 1 → s.lightToken x = false → iveStops .ivePoint) ∧
      (tagKind x.tag = 2 → s.lightToken x = false → iveStops .iveSignal) ∧ (s.lightToken x = true → iveStops .iveLightCheck) ∧
      (tagKind x.tag = 4 → (tokArg x = 1 → iveStops .iveReleaseCancel) ∧ (tokArg x = 2 → iveStops .iveReleaseEmergency) ∧
        (tokArg x ≠ 1 → tokArg x ≠ 2 → iveStops .iveReleaseNormal))

/-- A window of the timebase checker within its limit is only counted (R64, R67); a fault of a pea's stage takes that pea out of service
and no other, and stands in its fault register with its kind and its stage group unless an earlier one does (R43, R45, R54). -/
def Obligations.MonitorsPass : Prop :=
  (∀ (s : State) (n : Nat), s.monitored = true → 1048523 < n → n < 1048629 →
    ∃ t, exec (.timebaseWindowEnd n) s = .next t ∧ t.boot = { s.boot with windows := s.boot.windows + 1 } ∧ t.fld Fld.TIME_TBCHK_VALID = 1 ∧
      t.fld Fld.TIME_TBCHK_DIFF = ((n : Int) - 1048576).emod 65536 ∧ t.cyc = s.cyc ∧ t.pod = s.pod) ∧
  ∀ (s : State) (p : PeaId) (g : Nat), s.peaState p ≠ 0 → s.inService p = true →
    let outOfService := fun (c : Instr) (kind : Nat) => ∃ t, exec c s = .next t ∧ t.inService p = false ∧
      (∀ q, q ≠ p → t.inService q = s.inService q) ∧
      (s.flag (Fld.PEA_x_FAULT_VALID (peaNum p)) = false → bitsOf 27 24 (t.reg (Reg.PEA_x_FAULT (peaNum p))).toNat = kind ∧
        bitsOf 19 16 (t.reg (Reg.PEA_x_FAULT (peaNum p))).toNat = g % 16)
    outOfService (.codeViolation (.pea p g)) 1 ∧ outOfService (.stallTimeout (.pea p g)) 2

/-- Entry into SAFE (R217 to R219): the form is SAFE_LOCKOUT for causes 7 and 8, for cause 6 of a function that locks, and for the third
entry within 86,400 s, else SAFE; SAFE_LOCKOUT writes its record, and the entry counts. -/
def Obligations.SafeEntryForm : Prop :=
  ∀ (s : State) (cause detail : Nat) (locking : Bool), s.opState = 2 ∨ s.opState = 4 ∨ s.opState = 5 ∨ s.opState = 6 →
    s.boot.holdup = none → cause < 16 →
    let t := s.enterSafe cause detail locking
    let lock : Bool := decide (cause = 7 ∨ cause = 8 ∨ (cause = 6 ∧ locking = true) ∨
      3 ≤ 1 + (s.nv.safeTimes.filter fun x => s.now < x + 86400000000000).length)
    t.opState = (if lock then 8 else 7) ∧ (lock = true → t.nv.lockout = some ⟨cause, detail, s.cyc.n⟩) ∧
    (lock = false → t.nv.lockout = s.nv.lockout) ∧ t.nv.safeTotal = min (s.nv.safeTotal + 1) 65535 ∧
    t.fld Fld.OUT_SAFE_CAUSE = cause ∧ t.fld Fld.OUT_SAFE_DETAIL = detail % 65536 ∧ t.reg Reg.OUT_SAFECYC = s.cyc.n

/-- An evicted pea's way (R98, R99, R101): a passed path retest leads to TEST, a passed self-test with the program check of the active image
to REJOIN, and a failed one, one with another check, one that overruns 1,500 ms, or a re-join that has not converged 100 cycles after pass 1
leaves the pea OUT. A re-seed that fits into the idle window is carried out and done with (R96), and a window of pass 1 of a re-join copies
the blocks that fit, in their order (R100): the pea then reads as its donor does. (Log entry 45.) -/
def Obligations.EvictedPea : Prop :=
  (∀ (s : State) (p : PeaId),
    let goes := fun (c : Instr) (phase : EvictPhase) (state : Nat) => ∃ t, exec c s = .next t ∧ (t.pea p).phase = phase ∧
      t.peaState p = state ∧ t.com = s.com ∧ t.cyc = s.cyc ∧ ∀ q, q ≠ p → t.pea q = s.pea q
    ((s.pea p).phase = .path → goes (.pathRetestEnd p true) .test 6 ∧ goes (.pathRetestEnd p false) .stayOut 5) ∧
    ((s.pea p).phase = .test → s.peaState p = 6 → s.inService p = false → (s.pea p).behind = false →
      (∀ repairs, (s.programCheck p = s.imageCheck → goes (.peaSelfTestEnd p true repairs) .idle 7) ∧
        (s.programCheck p ≠ s.imageCheck → goes (.peaSelfTestEnd p true repairs) .stayOut 5) ∧
        goes (.peaSelfTestEnd p false repairs) .stayOut 5) ∧
      ((s.pea p).testAt + 37500000 ≤ s.ticks → goes (.peaSelfTestTimeout p) .stayOut 5)) ∧
    (∀ r, s.pod.rejoin = some r → r.pea = p → r.passEnded = true → r.joined = false → later (r.passCyc + 100) s.vcyc = false →
      goes .rejoinTimeout .stayOut 5)) ∧
  (∀ (s : State) (r : Reseed), s.pod.reseed = some r → s.allIdle = true → r.blocks.length ≤ s.copyRoom 0 → s.inService r.minor = true →
    s.inService r.major = true → (s.pea r.major).upsets = [] → r.minor ≠ r.major →
    ∃ t, exec .reseedCopy s = .next t ∧ t.pod.reseed = none ∧ t.com = s.com ∧ t.cyc = s.cyc ∧ (∀ q, q ≠ r.minor → t.pea q = s.pea q) ∧
      ∀ b ∈ r.blocks, b < 1024 → ∀ i, i < 1024 →
        peaGet r.minor (t.pea r.minor) .sram (b * 1024 + i) = peaGet r.major (s.pea r.major) .sram (b * 1024 + i)) ∧
  ∀ (s : State) (r : Rejoin) (d : PeaId) (ds : List PeaId), s.pod.rejoin = some r → s.serving = d :: ds → s.peaState d = 2 →
    r.joined = false → r.passEnded = false → r.wait = false → (s.pea d).upsets = [] → r.pea ≠ d →
    let left := r.left.drop (s.copyRoom 0)
    ∃ t, exec .rejoinWindow s = .next t ∧ t.com = s.com ∧ t.cyc = s.cyc ∧
      t.pod.rejoin = some { r with left := left, passEnded := left.isEmpty, passCyc := s.vcyc } ∧ (∀ q, q ≠ r.pea → t.pea q = s.pea q) ∧
      ∀ b ∈ r.left.take (s.copyRoom 0), b < 1024 → ∀ i, i < 1024 →
        peaGet r.pea (t.pea r.pea) .sram (b * 1024 + i) = peaGet d (s.pea d) .sram (b * 1024 + i)

/-- A rotation test that falls due while a program is loaded (R99): with ROT_EN 0 the order moves on, in a pod that is not triplex, or
otherwise blocked, the test is deferred, else it waits for the next boundary; a retry and a request make it due in the same way. (Log entry
45.) -/
def Obligations.RotationTests : Prop :=
  ∀ s : State, s.prog.isSome = true → s.pod.rotPending = false →
    let due := fun (c : Instr) =>
      (s.flag Fld.POD_ROTCTRL_ROT_EN = false → exec c s = .next s.advanceRotation) ∧
      (s.flag Fld.POD_ROTCTRL_ROT_EN = true → s.rotationBlocked = true →
        s.does c { s with pod := { s.pod with rotDeferred := true, rotPending := false } }) ∧
      (s.flag Fld.POD_ROTCTRL_ROT_EN = true → s.rotationBlocked = false →
        exec c s = .next { s with pod := { s.pod with rotPending := true, rotDeferred := false } })
    (s.pod.rotDeferred = false → due .rotationTestDue) ∧ (s.pod.rotDeferred = true → due .rotationTestRetry) ∧ due .rotReq

/-! ### The Snirin ring (R207, R231 to R273) -/

/-- A command section has 18 bytes; with energy it carries the unit's claim, the enable byte 0x5A in an even ring cycle and 0xA5 in an odd
one, and without energy nothing but a claim of rank 0 (R207). RING_CYCLE_START: every inserted port that masters its ring launches the frame
of its role, four STOP frames at most (R248, R258), none after a declared supply loss (R437), and no other port is left with a launched
frame.  COMMAND_SECTION_COMPOSE composes the sections of the mastered rings with the claim that holds when
they are sent (R207, R277, R289), and `OUT_RINGEN` shows their enable bytes. -/
def Obligations.RingCycle : Prop :=
  (∀ (s : State) (claim addr : Nat) (j : Word), (s.commandSection claim addr j).length = 18 ∧
    (s.energy = true → (s.commandSection claim addr j).take 4 = leBytes 4 claim ∧
      (s.commandSection claim addr j).getD 4 0 = (if j.toNat % 2 = 0 then 0x5A else 0xA5)) ∧
    (s.energy = true → s.flag Fld.TWIN_STAT_RESTRICT = true → ∀ i, 5 ≤ i → (s.commandSection claim addr j).getD i 0 = 0) ∧
    (s.energy = false → ∀ i, 3 ≤ i → (s.commandSection claim addr j).getD i 0 = 0)) ∧
  (∀ s : State, ∃ t, exec .ringCycleStart s = .next t ∧ t.com = s.com ∧ t.pod = s.pod ∧ t.ive = s.ive ∧
    t.cyc = (if s.cyc.ringOn then { s.cyc with i := s.cyc.i + 1 } else { s.cyc with ringOn := true }) ∧
    (s.boot.holdup.isSome = true → t.out = s.out) ∧
    ∀ r : Fin 4, t.flag (Fld.RNG_x_STAT_LINK r) = s.flag (Fld.RNG_x_STAT_LINK r) ∧
      (s.boot.holdup = none → s.masters r = true → s.inserted r = true → (s.ringRole r = 7 → (s.port r).frames < 4) →
        (t.port r).launched = some s.ticks ∧ (t.port r).frames = (s.port r).frames + 1 ∧
        ∃ f, OutMsg.ring r f ∈ t.out ∧ f.type = State.frameType (s.ringRole r)) ∧
      (s.boot.holdup.isSome = true ∨ s.masters r = false ∨ s.inserted r = false → (t.port r).launched = none)) ∧
  ∀ s : State, let u := s.settleRole
    ∃ t, exec .commandSectionCompose s = .next t ∧ t = { u with rings := t.rings, regs := t.regs } ∧
    (∀ a, a ≠ Reg.OUT_RINGEN → t.reg a = s.reg a) ∧
    ∀ r, r < 4 →
      t.fld (State.ringEnField r) = (if s.masters r ∧ s.energy then (if s.nextRing.toNat % 2 = 0 then 0x5A else 0xA5) else 0) ∧
      let sections := (List.range (s.branchWindows (State.ringBranch r))).map fun q =>
        s.commandSection u.composedClaim (State.ringBranch r * 512 + q) s.nextRing
      t.port r = if s.masters r then { s.port r with tx := sections } else s.port r

/-- An input entry with a window of ring `r` that has come since the last close point (R31). -/
def Sys2Proof.Machine.withWindow (r : Nat) (f : RingFrame) (cs : List WinClass) (e : CtrlEntry) : CtrlEntry :=
  if e.addr / 512 = r % 2 ∧ (cs.getD (e.addr % 512) .unwritten).counts then
    let w := f.window (e.addr % 512)
    let x : RxWindow := ⟨BitVec.ofNat 64 (rle w 18 8), byteAt w 26⟩
    if r < 2 then { e with rxA := some x } else { e with rxB := some x }
  else e

/-- COLD_FRAME, SURVEY_FRAME, RUN_FRAME and STOP_FRAME: a valid frame of another master that arrives at a port in use: its claim and serial
are shown, the timers of the port begin anew, a port in LISTEN passes to PASS, or stops under HALT (R254), and a master in COLD or RUN that
sees a COLD or RUN frame of higher (CLAIM, SERIAL) backs off (R255, R256). A port that is inserted and no master forwards it with HOPS one
higher and everything else but its own window as it came (R251); of a RUN frame of the same window table it takes the windows that count
(R31, R249). A frame that is not valid, or not of its type, is only forwarded, and an unused port obeys its orders alone (R266). The
master's own frame returns with a valid trailer in its ring cycle (R249, R263): the rotation time and the hops are shown, and the frame no
longer counts as launched. A COLD frame counts towards SURVEY (R255), a SURVEY frame brings its reports (R257), and a valid RUN frame the
windows that count (R31). A frame that is none of the unit's own in this ring cycle changes nothing. -/
def Obligations.RingFrames : Prop :=
  ∀ (s : State) (r : Fin 4) (x : RingRx),
    let f := x.frame
    let frames := [(Instr.coldFrame r x, 1), (.surveyFrame r x, 2), (.runFrame r x, 3), (.stopFrame r x, 4)]
    let heard := if s.ringRole r = 1 then (if s.flag (Fld.RNG_x_CTRL_HALT r) then 0 else 6) else s.ringRole r
    let role := if (f.type = 1 ∨ f.type = 3) ∧ (s.ringRole r = 2 ∨ s.ringRole r = 5) ∧ s.claim * 2 ^ 32 + s.nv.serial.toNat < f.precedence
      then 3 else heard
    let passes := s.inserted r && !([2, 4, 5, 7].contains role) && x.slip.isNone
    (∀ c ∈ frames,
      (s.ringRole r = 8 → exec c.1 s = .next (s.obey r f.header)) ∧
      (s.ringRole r ≠ 8 → f.ok r = false ∨ f.type ≠ c.2 → exec c.1 s = .next (((s.noteDrift r x).forward r x).obey r f.header)) ∧
      (s.ringRole r ≠ 8 → f.ok r = true → f.type = c.2 → ∃ t, exec c.1 s = .next t ∧ t.ringRole r = role ∧
        t.reg (Reg.RNG_x_MCLAIM r) = w32 f.claim ∧ t.reg (Reg.RNG_x_MSERIAL r) = w32 f.serial ∧
        (t.port r).quiet = 0 ∧ (t.port r).foreign = some 0 ∧ (t.port r).lastRx = some f.rcyc ∧
        (t.port r).sinceStop = (if f.type = 4 then some 0 else none) ∧ (∀ q, q ≠ r.val → t.port q = s.port q) ∧
        t.pod = s.pod ∧ t.com = s.com ∧ t.ive = s.ive ∧
        t.cyc = (if f.type = 3 ∧ [2, 4, 5, 7].contains role = false ∧ f.schedid = (s.reg Reg.RSCH_SCHEDID).toNat then
          { s.cyc with entries := s.cyc.entries.map (withWindow r f (State.passingClasses r f)) } else s.cyc) ∧
        (passes = true → t.reg (Reg.RNG_x_CYCLE r) = f.rcyc ∧ t.flag (Fld.RNG_x_STAT_JOINOK r) = f.joinok ∧
          ∃ g, OutMsg.ring r g ∈ t.out ∧ g.header = f.header ∧ g.hops = (f.hops + 1) % 65536 ∧ g.firstslip = f.firstslip ∧
            g.windows.length = f.windows.length ∧ ∀ i, i ≠ 1 ∨ s.isTwin = false → g.windows[i]? = f.windows[i]?))) ∧
    ((s.port r).launched = none ∨ f.trailerOk = false ∨ (f.headerOk r = true ∧ f.rcyc ≠ s.ringCycle) ∨ s.masters r = false →
      exec (.frameReturn r x) s = .next s) ∧
    ∀ t0, (s.port r).launched = some t0 → f.trailerOk = true → f.headerOk r = false ∨ f.rcyc = s.ringCycle → s.masters r = true →
      ∃ t, exec (.frameReturn r x) s = .next t ∧ t.fld (Fld.RNG_x_ROT_LAST r) = min ((s.ticks - t0) / 25) 65535 ∧
        t.flag (Fld.RNG_x_STAT_LINK r) = true ∧ (t.port r).launched = none ∧ t.com = s.com ∧ t.pod = s.pod ∧
        (∀ q, q ≠ r.val → t.port q = s.port q) ∧
        t.fld (Fld.RNG_x_HOPS_SEEN r) = f.hops % 2 ^ ((Fld.RNG_x_HOPS_SEEN r).hi - (Fld.RNG_x_HOPS_SEEN r).lo + 1) ∧
        (s.ringRole r = 2 → (t.port r).coldBack = (s.port r).coldBack + 1 ∧ (t.port r).coldRun = (s.port r).coldRun + 1 ∧ t.cyc = s.cyc) ∧
        (s.ringRole r = 4 → f.ok r = true → (t.port r).survey = State.mergeReports (s.port r).survey (State.surveyReports r f) ∧
          (f.type ≠ 3 → t.cyc = s.cyc)) ∧
        (s.ringRole r = 7 → t.cyc = s.cyc ∧ t.ringRole r = 7) ∧
        (s.ringRole r = 5 → f.ok r = true → f.type = 3 → (s.port r).sent.length ≤ 512 →
          t.cyc = { s.cyc with entries := s.cyc.entries.map (withWindow r f (s.windowClasses r f)) })

/-- BYPASS_ORDER, CUT_NEXT_ORDER and JOIN_ORDER (R266, R267): a guardian that is not the master's obeys the orders that a valid header
addresses to it: BYPASS and the cut signal exclude the port and move its relay to bypass, CUT_NEXT has an inserted port send the cut signal,
JOIN ends the exclusion. An order that is not addressed to it, or that its own unit sends as the master, has no effect. A readmission is
asked for in its register. -/
def Obligations.RingOrders : Prop :=
  ∀ (s : State) (r : Fin 4) (h : List Byte) (pos : BitVec 10),
    let excluded := s.setPort r { s.port r with excluded := true, relayGoal := some false }
    let obeys := fun (code : Nat) (c : Instr) (t : State) =>
      (s.masters r = false → code ∈ RingFrame.unitOrders r h → exec c s = .next t) ∧
      (s.masters r = true ∨ ¬ code ∈ RingFrame.unitOrders r h → exec c s = .next s)
    obeys 1 (.bypassOrder ⟨r, h⟩) excluded ∧
    obeys 2 (.cutNextOrder ⟨r, h⟩) (if s.inserted r then { s with out := .cut r :: s.out } else s) ∧
    obeys 3 (.joinOrder ⟨r, h⟩) (s.setPort r { s.port r with excluded := false }) ∧
    exec (.cutSignalDetected r) s = .next excluded ∧
    ∃ t, exec (.readmit r pos) s = .next t ∧ t.fld (Fld.RNG_x_READMIT_REQ r) = 1 ∧ t.fld (Fld.RNG_x_READMIT_POS r) = pos.toNat ∧
      t = { s with regs := t.regs } ∧ ∀ a, a ≠ Reg.RNG_x_READMIT r → t.reg a = s.reg a

/-- The roles of a port (R253 to R258, R280): what each timer, the relay, HALT and the hand-back make of them, in the ring concerned
alone. Where the table of LISTEN is entered, its first two rows are acted on at once: HALT stops the port, and a valid frame of another
master in the last 8 ring cycles takes it to PASS (R254). -/
def Obligations.RingRoles : Prop :=
  ∀ (s : State) (r : Fin 4),
    let moves := fun (c : Instr) (role : Nat) => ∃ t, exec c s = .next t ∧ t.ringRole r = role ∧
      t = { s with regs := t.regs, rings := t.rings, irqLive := t.irqLive, windows := t.windows, evr := t.evr,
                   nv := { s.nv with recorder := t.nv.recorder } } ∧ (∀ q, q ≠ r.val → t.port q = s.port q) ∧
      ∀ a, quiet a = true → a / 0x1000 ≠ Reg.RNG_x_STAT r / 0x1000 → a ≠ Reg.OUT_RINGEN → t.reg a = s.reg a
    let role := s.ringRole r
    let p := s.port r
    let halted := s.flag (Fld.RNG_x_CTRL_HALT r)
    let recent := p.foreign.any (· < 8)
    let listens := fun (c : Instr) => moves c (if halted then 0 else if recent then 6 else 1)
    (role = 1 → (halted = true → moves (.listenTimeout r) 0) ∧ (halted = false → recent = true → moves (.listenTimeout r) 6) ∧
      (halted = false → recent = false → s.inserted r = true → s.listenedOut r = true → moves (.listenTimeout r) 2)) ∧
    (role = 6 → 8 ≤ p.quiet → listens (.passTimeout r)) ∧ (role = 3 → p.backoffLeft = 0 → listens (.backoffEnd r)) ∧
    (role = 2 → (2 ≤ p.coldRun ∧ s.fld (Fld.RNG_x_HOPS_SEEN r) = s.fld (Fld.RNG_x_HOPS_EXPECT r)) ∨ 16 ≤ p.coldBack →
      moves (.coldToSurvey r) 4) ∧
    (role = 4 → 2 ≤ p.frames → (State.surveyBad (s.rotated r) p.survey = [] → moves (.surveyEnd r) 5) ∧
      ∃ t, exec (.surveyEnd r) s = .next t ∧ t.ringRole r = 5 ∧
        (t.port r).orders = p.orders ++ (State.surveyBad (s.rotated r) p.survey).map fun b => (1, b.1)) ∧
    (role = 7 → (s.inserted r = true → 4 ≤ p.frames) → p.after ≤ 9 →
      (p.after ≠ 1 → moves (.stopSequenceEnd r) p.after) ∧ (p.after = 1 → listens (.stopSequenceEnd r))) ∧
    (role = 2 ∨ role = 4 ∨ role = 5 → moves (.halt r) 7) ∧ (role = 1 → moves (.halt r) 0) ∧
    (¬ role ∈ [1, 2, 4, 5] → exec (.halt r) s = .next (s.setFld (Fld.RNG_x_CTRL_HALT r) 1)) ∧
    (s.isTwin = true → s.prefers r = false → role = 5 → 100 ≤ s.twin.standbyRun →
      (∀ q, q < r.val → s.ringUsed q = true → s.prefers q = false →
        s.ringRole q = 6 ∧ s.reg (Reg.RNG_x_MSERIAL q) = s.reg Reg.TWIN_PSERIAL ∧ (s.port q).heardType = 3) →
      moves (.ringHandback r) 7) ∧
    (∀ b, p.relayGoal = some b → (b = true ∨ role = 0 ∨ role = 8 ∨ role = 9 → moves (.relayOperated r) role) ∧
      (b = false → role ≠ 0 → role ≠ 8 → role ≠ 9 → listens (.relayOperated r)) ∧
      ∃ t, exec (.relayOperated r) s = .next t ∧ t.inserted r = b)

/-! ### Outputs, the field side and safety functions (R87, R204 to R230, R423 to R435) -/

/-- A heartbeat transition (R87, R204 to R206): with a fault it is withheld for good and the pump stops; without one the voter's level
turns, and once both voters have made theirs the levels show whether they alternate in antiphase. In a RUN state with antiphase the pump
runs and VRD switches unless it is cut, else both stop.  Without the pump the reservoir drains, and every output opens. (How
transitions pair is log entry 75.) -/
def Obligations.Heartbeats : Prop :=
  ∀ (s : State) (voter : Bool),
    let turned := if voter then { s.pod with level2 := !s.pod.level2 } else { s.pod with level1 := !s.pod.level1 }
    let pod : Pod := match s.pod.hbMark with
      | none => { turned with hbMark := some voter }
      | some v => if v = voter then { turned with hbGood := false }
        else { turned with hbMark := none, hbGood := turned.level1 != turned.level2 }
    let runs := s.isRun && pod.hbGood
    (s.pod.hbStopped = false → s.opState ∈ [2, 4, 5, 6, 7, 8] →
      (s.pod.kfault = true ∨ s.flag Fld.TIME_TBCHK_FAULT = true →
        s.does (.heartbeatTransition voter) ((((({ s with pod := { s.pod with hbStopped := true } } : State).setFld Fld.VOTE_STAT_HB 0).setFld
          Fld.OUT_STAT_PUMP 0).setFld Fld.OUT_STAT_VRD 0))) ∧
      (s.pod.kfault = false → s.flag Fld.TIME_TBCHK_FAULT = false → ∃ t, exec (.heartbeatTransition voter) s = .next t ∧
        t.pod = pod ∧ t.fld Fld.VOTE_STAT_HB = 1 ∧ t.com = s.com ∧ t.cyc = s.cyc ∧ t.flag Fld.OUT_STAT_PUMP = runs ∧
        t.flag Fld.OUT_STAT_VRD = (runs && !s.vrdCut) ∧ (runs = true → t.flag Fld.OUT_STAT_GROUP = s.groupCloses))) ∧
    (s.flag Fld.OUT_STAT_PUMP = false →
      s.does .reservoirDischarged ((s.setFld Fld.OUT_STAT_GROUP 0).setReg Reg.OUT_CMD 0))

/-- READBACK_FAULT marks the channel, STUCK_ON of an output and a dark-test pulse that does not fall take VF from every output and lock the
module out with cause 7, as a group switch or VRD that is found not to have opened does (R217), and CHFAULT_CLEAR clears the bits of its mask (R213, R214, R218). -/
def Obligations.OutputSupervision : Prop :=
  ∀ (s : State) (c : Fin 32) (mask : Word),
    (bit (s.reg Reg.OUT_CMD) c = true → s.flag Fld.OUT_STAT_PUMP = true → bit s.cutMask c = false → bit (s.reg Reg.OUT_CHFAULT) c = false →
      s.does (.readbackFault c) (s.setReg Reg.OUT_CHFAULT (s.reg Reg.OUT_CHFAULT ||| w32 (2 ^ c.val)))) ∧
    (s.opState = 5 ∨ s.opState = 6 → s.boot.holdup = none → s.isOutput c = true → s.shouldBeOff c = true → ∃ t,
      exec (.stuckOn (.channel c)) s = .next t ∧ t.opState = 8 ∧ t.fld Fld.OUT_SAFE_CAUSE = 7 ∧
      t.fld Fld.OUT_SAFE_DETAIL = c ∧ t.fld Fld.OUT_STAT_GROUP = 0 ∧ t.cyc.running = false ∧ t.com = s.com) ∧
    (s.isOutput c = false ∨ s.shouldBeOff c = false → exec (.stuckOn (.channel c)) s = .next s) ∧
    (∀ x, (x, s.flag Fld.OUT_STAT_GROUP) = (StuckAt.group, false) ∨ (x, s.flag Fld.OUT_STAT_VRD) = (StuckAt.vrd, false) →
      s.opState = 5 ∨ s.opState = 6 → s.boot.holdup = none → ∃ t, exec (.stuckOn x) s = .next t ∧ t.opState = 8 ∧
        t.fld Fld.OUT_SAFE_CAUSE = 7 ∧ t.fld Fld.OUT_SAFE_DETAIL = 0 ∧ t.cyc.running = false ∧ t.com = s.com) ∧
    (s.opState = 5 ∨ s.opState = 6 → s.boot.holdup = none → bit s.fio.dark c = true →
      (∃ t, exec (.offPulse c false) s = .next t ∧ t.opState = 8 ∧ t.fld Fld.OUT_SAFE_CAUSE = 7 ∧ t.com = s.com) ∧
      exec (.offPulse c true) s = .next s) ∧
    exec (.chfaultClear mask) s = .next (s.setReg Reg.OUT_CHFAULT (s.reg Reg.OUT_CHFAULT &&& ~~~mask))

/-- FIELD_REFRESH (R213, R432): the downlink carries the commanded, enabled, fault-free channels or 0, the uplink brings the filtered inputs
and the readback. A direction whose frame is not valid brings nothing, and its run of valid frames begins anew (R215, R433); a frame without
errors behind the last good one of its direction is valid and brings what was sent. The downlink's word (R213): without energy, or
restricted, no channel is commanded; with both, only channels that the applied commit set commands, that are outputs and have no fault.
(Which frame a SEQ is compared with is log entry 82.) -/
def Obligations.FieldRefresh : Prop :=
  (∀ (s : State) (downErr upErr : List Byte) (act : Word) (grp : Nat) (meas : List (Nat × Nat × Nat)), s.flag Fld.FIO_STAT_CFGOK = true →
    let seq := s.fio.downSeq + 1
    let down := State.withErrors (State.downlinkFrame seq s.downlinkCmd (s.darkPulses s.downlinkCmd)) downErr
    let downOk := State.refreshOk 0x46490044 s.fio.downRef down
    let u := s.downlink downErr
    let up := State.withErrors (u.uplinkFrame act) upErr
    let upOk := State.refreshOk 0x46490055 s.fio.upRef up
    ∃ t, exec (.fieldRefresh downErr upErr act grp meas) s = .next t ∧ t.reg Reg.OUT_CMD = s.downlinkCmd ∧ t.fio.downSeq = seq ∧
      t.fio.state = s.fio.state ∧ t.com = s.com ∧ t.cyc = s.cyc ∧ t.pod = s.pod ∧ t.sfb = s.sfb ∧
      t.reg Reg.FIO_IN = (if upOk then w32 (State.frameField up 2 4) else s.reg Reg.FIO_IN) ∧
      t.reg Reg.OUT_ACT = (if upOk then w32 (State.frameField up 6 4) else s.reg Reg.OUT_ACT) ∧ (upOk = false → t.fio.upGood = 0) ∧
      (downOk = false → t.fio.latch = s.fio.latch ∧ t.fio.downGood = 0 ∧ t.fio.dark = 0) ∧
      (downOk = true → t.fio.latch = s.fio.latch &&& w32 (State.frameField down 2 4)) ∧
      (downErr = [] → s.fio.downRef = none ∨ s.fio.downRef = some s.fio.downSeq → downOk = true ∧
        t.fio.latch = s.fio.latch &&& s.downlinkCmd) ∧
      (upErr = [] → s.fio.upRef = none ∨ s.fio.upRef = some (u.fio.downGot - 1) → t.reg Reg.FIO_IN = s.fio.state ∧ t.reg Reg.OUT_ACT = act)) ∧
  (∀ s : State, (s.energy = false ∨ s.flag Fld.TWIN_STAT_RESTRICT = true → s.downlinkCmd = 0) ∧
    ∀ c, c < 32 → bit s.downlinkCmd c = true → bit s.commandedChannels c = true ∧ s.isOutput c = true ∧ bit (s.reg Reg.OUT_CHFAULT) c = false)

/-- The link timeouts, latches, group switch and supplies of the field side (R215, R428 to R435): what each of them sets, and that the
commit values, the pod and the cycle stay. -/
def Obligations.FieldEvents : Prop :=
  ∀ s : State,
    let gives := fun (c : Instr) (post : State → Prop) => ∃ t, exec c s = .next t ∧ post t ∧ t.com = s.com ∧ t.cyc = s.cyc ∧ t.pod = s.pod ∧
      t.nv.journal = s.nv.journal
    (s.fio.upLost = false → gives .uplinkTimeout fun t => t.fio = { s.fio with upLost := true, upGood := 0 } ∧ t.fld Fld.FIO_STAT_UPOK = 0) ∧
    (s.fio.downLost = false → gives .downlinkTimeout fun t =>
      t.fio = { s.fio with downLost := true, downGood := 0, energised := [] } ∧ t.fld Fld.FIO_STAT_DNOK = 0) ∧
    (∀ c : Fin 32, s.isOutput c = true → bit s.fio.latch c = false →
      (gives (.overloadLatch c) fun t => bit t.fio.latch c = true ∧ t.fld (Fld.FIO_CHc_STATUS c) = 3) ∧
      gives (.thermalTrip c) fun t => bit t.fio.latch c = true ∧ t.fld (Fld.FIO_CHc_STATUS c) = 4) ∧
    (s.does .groupTrip ((s.setFld Fld.FIO_STAT_GRPTRIP 1).setFld Fld.OUT_STAT_GROUP 0)) ∧
    (s.flag Fld.FIO_STAT_VF_OK = true → gives .grprst fun t => t.fld Fld.FIO_STAT_GRPTRIP = 0 ∧ t.fio = s.fio ∧
      t.flag Fld.OUT_STAT_GROUP = (s.flag Fld.OUT_STAT_PUMP && !s.flag Fld.OUT_STAT_STUCK)) ∧
    (s.flag Fld.FIO_STAT_VF_OK = false → exec .grprst s = .next (s.errAddr Page.FIO 5 0x20)) ∧
    (s.flag Fld.FIO_STAT_VF_OK = true → gives (.vfChange false) fun t => t.flag Fld.FIO_STAT_VF_OK = false ∧ t.fld Fld.OUT_STAT_GROUP = 0) ∧
    (s.flag Fld.FIO_STAT_VF_OK = false → gives (.vfChange true) fun t => t.flag Fld.FIO_STAT_VF_OK = true) ∧
    (∀ k : Fin 4, exec (.tpsFoldback k) s = .next (s.setReg Reg.SFB_TPS (s.reg Reg.SFB_TPS ||| w32 (2 ^ k.val))) ∧
      exec (.tpsFoldbackEnd k) s = .next (s.setReg Reg.SFB_TPS (s.reg Reg.SFB_TPS &&& ~~~(w32 (2 ^ k.val)))))

/-- FIELD_INPUT_SAMPLE (R425, R426): the comparators read energised only for inputs of a configured field side whose supply lives, and a
channel's filtered state changes only when its count reaches an end.  TEST_PULSE marks the pulse's start for the masked windows (R427). -/
def Obligations.FieldInputs : Prop :=
  (∀ (s : State) (raw : Word), ∃ t, exec (.fieldInputSample raw) s = .next t ∧
    (∀ c, c < 32 → bit (t.reg Reg.FIO_RAW) c =
      (bit raw c && s.isInput c && s.flag Fld.FIO_STAT_CFGOK && !s.tpsDead (s.fld (Fld.FIO_CFGc_TPS c)))) ∧
    (∀ c, c < 32 → s.isInput c = false → bit t.fio.state c = bit s.fio.state c) ∧
    (∀ c, c < 32 → s.masked c = true → bit t.fio.state c = bit s.fio.state c) ∧
    t = { s with regs := t.regs, fio := t.fio } ∧ ∀ a, a ≠ Reg.FIO_RAW → t.reg a = s.reg a) ∧
  ∀ (s : State) (k : Fin 4) (low sfbLow : Word), ∃ t, exec (.testPulse k low sfbLow) s = .next t ∧ (k.val, s.ticks) ∈ t.fio.tpsAt ∧
    t.fio.state = s.fio.state ∧ t.com = s.com ∧ t.prog = s.prog

/-- A safety function (R223, R225, R226): in demand each channel of the SFB that sees it withdraws its own lines, and the demand ends with a
fault where one input never showed it; a function that restarts resets after its wait, a discrepancy faults it, and a difference of the two
channels faults every function. (Log entry 59.) -/
def Obligations.SafetyFunctions : Prop :=
  ∀ (s : State) (f : Fin 8) (onB : Bool), s.flag (Fld.SFB_CFGf_EN f) = true → s.flag (Fld.SFB_CFGf_KSAFE f) = false →
    let gives := fun (c : Instr) (post : State → Prop) => ∃ t, exec c s = .next t ∧ post t ∧ t.com = s.com ∧ t.cyc = s.cyc ∧ t.pod = s.pod
    let bothShown := bit s.sfb.shown f && bit s.sfb.shown (8 + f.val)
    (s.flag (Fld.SFB_STATf_DEMAND f) = false → ∀ c, gives (.sfbDemand f ⟨onB, c⟩) fun t => t.flag (Fld.SFB_STATf_DEMAND f) = true ∧
      t.cuts f = true ∧ (c ≠ .sfb2 → t.withdraws false f = true) ∧ (c ≠ .sfb1 → t.withdraws true f = true) ∧
      (s.flag (Fld.SFB_CFGf_VRDCUT f) = true → t.fld Fld.OUT_STAT_VRD = 0)) ∧
    (s.flag (Fld.SFB_STATf_DEMAND f) = true → ∀ c, gives (.sfbDemand f ⟨onB, c⟩) fun t => t.flag (Fld.SFB_STATf_DEMAND f) = true ∧
      (c ≠ .sfb2 → t.withdraws false f = true) ∧ (c ≠ .sfb1 → t.withdraws true f = true) ∧
      bit t.sfb.shown (if onB then 8 + f.val else f.val) = true) ∧
    (s.flag (Fld.SFB_STATf_DEMAND f) = true → gives (.sfbDemandEnd f) fun t => t.flag (Fld.SFB_STATf_DEMAND f) = false ∧ t.cuts f = true ∧
      (bothShown = true → t.flag (Fld.SFB_STATf_FAULT f) = s.flag (Fld.SFB_STATf_FAULT f)) ∧
      (bothShown = false → s.flag (Fld.SFB_STATf_FAULT f) = false → t.flag (Fld.SFB_STATf_FAULT f) = true ∧
        t.fld (Fld.SFB_STATf_FCAUSE f) = 2)) ∧
    (bit s.sfb.wait f = true → s.does (.sfbReset f) { s with sfb := { s.sfb with wait := s.sfb.wait &&& ~~~(w32 (2 ^ f.val)) } }) ∧
    (s.flag (Fld.SFB_STATf_FAULT f) = false → gives (.sfbDiscFault f) fun t => t.flag (Fld.SFB_STATf_FAULT f) = true ∧
      t.fld (Fld.SFB_STATf_FCAUSE f) = 1 ∧ t.flag (Fld.SFB_STATf_LOCKED f) = true ∧ t.cuts f = true) ∧
    ((∀ g : Fin 8, s.flag (Fld.SFB_CFGf_KSAFE g) = false) → gives .sfbChdiff fun t => t.flag Fld.SFB_STAT_CHDIFF = true ∧
      t.flag (Fld.SFB_STATf_FAULT f) = true ∧ t.flag (Fld.SFB_STATf_DEMAND f) = true ∧ t.cuts f = true)

/-- The lock-out reset key (R220 to R222): with both channels inactive for 1 s the first to become active starts a sequence, a second that
comes in time completes the pair, one that does not within 0.5 s, or a channel that is active for more than 10 s, voids it; the release of
both in order is valid and leaves SAFE or SAFE_LOCKOUT through reset.  A plain SAFE with AUTO leaves by itself after HOLD. (Log entries 51
and 73.) -/
def Obligations.LockOutReset : Prop :=
  ∀ (s : State) (b : Bool), s.opState ≠ 0 → s.opState ≠ 9 →
    let t := 40 * s.ticks
    let level := if b then s.lor.levelB else s.lor.levelA
    let changed := if b then s.lor.changedB else s.lor.changedA
    let moved := fun (on : Bool) => if b then { s.lor with levelB := on, changedB := t } else { s.lor with levelA := on, changedA := t }
    let voids := fun (c : Instr) (code : Nat) => ∃ u, exec c s = .next u ∧ u.fld Fld.SFB_LOR_LAST = code ∧ u.com = s.com ∧ u.pod = s.pod ∧
      u.nv.lockout = s.nv.lockout
    let leaves := fun (c : Instr) (row : Nat) => ∃ u, exec c s = .next u ∧ u.opState = 0 ∧ u.boot.off = true ∧ u.boot.cause = 3 ∧
      u.nv.leave = some (row, false) ∧ u.pending = s.pending ∧ u.cyc.running = false
    (s.lor.levelA = false → s.lor.levelB = false → s.lor.phase = 0 → s.lor.changedA + 1000000000 ≤ t → s.lor.changedB + 1000000000 ≤ t →
      exec (.lorChannelEdge b true) s = .next (({ s with lor := { moved true with phase := 1, onset := t } } : State).setFld Fld.SFB_LOR_STUCK 0)) ∧
    (level = false → s.lor.phase = 1 → t ≤ s.lor.onset + 500000000 →
      exec (.lorChannelEdge b true) s = .next { s with lor := { moved true with phase := 2, both := t } }) ∧
    (level = true → s.lor.phase = 2 → s.lor.both + 200000000 ≤ t →
      exec (.lorChannelEdge b false) s = .next { s with lor := { moved false with phase := 3, release := t } }) ∧
    (level = true → s.lor.phase = 3 → t ≤ s.lor.release + 500000000 →
      (s.opState = 8 → leaves (.lorChannelEdge b false) 2 ∧ ∃ u, exec (.lorChannelEdge b false) s = .next u ∧ u.nv.lockout = none ∧
        u.nv.safeTimes = []) ∧
      (s.opState = 7 → s.causeNow = none → leaves (.lorChannelEdge b false) 2)) ∧
    (level = true → s.lor.phase = 1 ∨ s.lor.phase = 2 ∨ s.lor.phase = 3 → changed + 10000000000 < t → voids (.lorStuck b) 4) ∧
    (s.lor.phase = 1 → s.lor.onset + 500000000 < t → voids .lorPairTimeout 2) ∧
    (s.lor.phase = 3 → s.lor.release + 500000000 < t → voids .lorPairTimeout 5) ∧
    (s.opState = 7 → s.flag Fld.OUT_SAFECFG_AUTO = true → s.boot.safeAt + s.fld Fld.OUT_SAFECFG_HOLD * 25000000 ≤ s.ticks →
      s.causeNow = none → leaves .safeAutoRestart 5)

/-! ### Supply, reset, start and time (R389 to R438) -/

/-- The feeds (R436 to R438): a failed, an overloaded and a returning feed are judged; the loss of the second feed stops the kernel and
takes energy from every output, the STATUS contact opens (R388), and the sequence that follows ends in OFF with the time floor saved. -/
def Obligations.Feeds : Prop :=
  ∀ (s : State) (b : Bool), s.opState ≠ 0 →
    let judged := fun (v : Nat) => if b then { s.pins with feedB := v } else { s.pins with feedA := v }
    (s.feed b = 0 → s.feed (!b) = 0 → s.does (.feedFail b) { s with pins := judged 1 } ∧ s.does (.feedOvervoltage b) { s with pins := judged 2 }) ∧
    (s.feed b = 0 → s.feed (!b) ≠ 0 → s.boot.holdup = none → ∀ c ∈ [Instr.feedFail b, .feedOvervoltage b], ∃ t, exec c s = .next t ∧
      t.boot.holdup = some s.ticks ∧ t.cyc.running = false ∧ t.pod.hbStopped = true ∧ t.fld Fld.OUT_STAT_PUMP = 0 ∧
      t.fld Fld.OUT_STAT_GROUP = 0 ∧ t.reg Reg.OUT_CMD = 0 ∧ t.statusContact = false ∧ t.com = s.com) ∧
    (s.feed b = 1 → s.does (.feedReturn b) { s with pins := judged 0 }) ∧
    (s.feed b = 2 → s.does (.feedReconnect b) { s with pins := judged 0 }) ∧
    exec .holdupCharged s = .next (s.setFld Fld.PWR_HOLD_READY 1) ∧
    (s.boot.holdup.isSome → ∃ t, exec .holdupSequenceEnd s = .next t ∧ t.opState = 0 ∧ t.boot.stay = false ∧ t.evr.staging = [] ∧
      t.nv.timeFloor = (if s.flag Fld.TIME_STAT_SET then s.now else s.nv.timeFloor) ∧ t.pending = s.pending)

/-- nRST on both channels resets the module, and what is non-volatile stays (R389); on one alone it only raises an event.  RESET_RELEASE
with supply counts a start and begins it (R390).  A strap change, a tamper, and the wake input are recorded (R9, R408, R412). (What reset
leaves of each part is log entry 53.) -/
def Obligations.ResetAndPins : Prop :=
  ∀ s : State,
    (∃ t, exec (.externalReset true true) s = .next t ∧ t.opState = 0 ∧ t.nv.journal = s.nv.journal ∧ t.nv.keys = s.nv.keys ∧
      t.nv.lockout = s.nv.lockout ∧ t.now = s.now ∧ t.ticks = s.ticks ∧ t.cyc.running = false ∧ t.pending = s.pending) ∧
    (s.opState ≠ 0 → s.does (.externalReset true false) s ∧ s.does (.externalReset false true) s) ∧
    (s.boot.off = true → s.boot.stay = false → s.pins.feedA = 0 ∨ s.pins.feedB = 0 → ∀ b, ∃ t, exec (.resetRelease b) s = .next t ∧
      t.nv.starts = min (s.nv.starts + 1) 0xFFFFFFFF ∧ t.boot.off = false ∧ t.com = s.com) ∧
    (∀ x : BitVec 4, s.does (.strapChange x) { s with pins := { s.pins with straps := x.toNat } }) ∧
    (∀ m, ∃ t, exec (.tamper m) s = .next t ∧ t.nv.keys = [] ∧ t.nv.fwKey = none ∧ t.nv.pgKey = none ∧ t.com = s.com ∧ t.cyc = s.cyc ∧
      t.nv.tamper = some (if m then 2 else 1, s.now)) ∧
    exec (.wakeInput false) s = .next { s with pins := { s.pins with wake := false } } ∧
    (s.opState = 9 → s.flag Fld.PWR_WAKEEN_PIN = true → ∃ t, exec (.wakeInput true) s = .next t ∧ t.opState = 0 ∧ t.boot.cause = 4 ∧
      t.pins.wake = true)

/-- The steps of START (R9, R67, R390 to R393): step 1 takes the straps, step 2 needs the image keys, step 3 uses a valid seal or runs the
full self-test, step 4 needs a program image, step 5 stores the injection results and goes on to step 6, step 6 waits for two checker
windows, step 7 is blocked, leads to step 8 or back into a lock-out, and step 8 ends with the duration.  A slice of the self-test leads to
the next, at START or at shut-down; a failed slice at START that is no pea's stops it (R394, R396), and a wake source that has fired ends
the shut-down test (R389). (Log entry 50.) -/
def Obligations.StartSteps : Prop :=
  ∀ (s : State) (f : StartFinding),
    (s.opState = 2 → s.boot.step = 5 → f.energyOk = true → f.v1 = 0x7F → f.v2 = 0x7F → ∃ t, exec (.startStepComplete f) s = .next t ∧
      t.boot = { s.boot with step := 6 } ∧ t.fld Fld.VOTE_STAT_INJ_OK = 1 ∧ t.flag Fld.FIO_STAT_CFGOK = true ∧ t.nv = s.nv ∧ t.cyc = s.cyc) ∧
    (s.opState = 2 → s.boot.step = 6 → exec (.startStepComplete f) s =
      .next (if 2 ≤ s.boot.windows then { s with boot := { s.boot with step := 7 } } else s)) ∧
    (s.opState = 2 → s.boot.step = 1 → ∃ t, exec (.startStepComplete f) s = .next t ∧ t.boot.step = 2 ∧
      t.isTwin = decide (bitsOf 1 1 s.pins.straps = 0) ∧ t.fld Fld.RSCH_NUNIT_NUNIT = (if t.isTwin then 2 else 1)) ∧
    (s.opState = 2 → s.boot.step = 2 → s.nv.lcNext = none →
      (s.nv.fwKey.isSome = true → s.nv.pgKey.isSome = true → ∃ t, exec (.startStepComplete f) s = .next t ∧ t.boot.step = 3 ∧ t.opState = 2) ∧
      (s.nv.fwKey = none ∨ s.nv.pgKey = none → ∃ t, exec (.startStepComplete f) s = .next t ∧ t.opState = 1 ∧
        t.fld Fld.SYS_START_SPROUT = 4)) ∧
    (s.opState = 2 → s.boot.step = 3 →
      (s.sealOutcome f.sealBad = 1 → ∃ t, exec (.startStepComplete f) s = .next t ∧ t.boot.step = 4 ∧ t.opState = 2 ∧
        ∀ x, t.nv.sealed = some x → x.used = true) ∧
      (s.sealOutcome f.sealBad ≠ 1 → ∃ t, exec (.startStepComplete f) s = .next t ∧ t.opState = 3 ∧ t.fld Fld.BIST_STAT_SLICE = 1)) ∧
    (s.opState = 2 → s.boot.step = 4 → s.activeSlot 2 = none → ∃ t, exec (.startStepComplete f) s = .next t ∧ t.opState = 1 ∧
      t.fld Fld.SYS_START_SPROUT = 3) ∧
    (s.opState = 2 → s.boot.step = 7 →
      (s.blockCode ≠ 0 → ∃ t, exec (.startStepComplete f) s = .next t ∧ t.fld Fld.SYS_START_BLOCK = s.blockCode ∧ t.boot.step = 7 ∧
        t.opState = 2) ∧
      (s.blockCode = 0 → s.nv.lockout = none → ∃ t, exec (.startStepComplete f) s = .next t ∧ t.boot.step = 8 ∧
        t.twin.readyAt = some s.now) ∧
      (s.blockCode = 0 → s.nv.lockout.isSome = true → ∃ t, exec (.startStepComplete f) s = .next t ∧ t.opState = 8)) ∧
    (s.boot.step = 8 → s.boot.running = true → s.opState ≠ 0 → s.ringsRunning = true → ∃ t, exec (.startStepComplete f) s = .next t ∧
      t.boot = { s.boot with step := 0 } ∧ t.fld Fld.SYS_START_DUR_MS = min ((s.ticks - s.boot.released) * 40 / 1000000) 65535 ∧
      t = { s with regs := t.regs, boot := t.boot }) ∧
    ∀ (d : BitVec 16), let n := s.fld Fld.BIST_STAT_SLICE
      (s.opState = 3 → s.boot.bad = false → 0 < n → n < 34 → ∃ t, exec (.bistSliceEnd true d false []) s = .next t ∧
        t.fld Fld.BIST_STAT_SLICE = n + 1 ∧ t.opState = 3 ∧ t.boot = s.boot ∧ t.nv.sealed = s.nv.sealed) ∧
      (s.opState = 3 → s.boot.bad = false → 0 < n → slicePea n = none → ∃ t, exec (.bistSliceEnd false d false []) s = .next t ∧
        t.boot = { s.boot with bad := true } ∧ bitsOf 15 0 (t.reg Reg.BIST_FAIL).toNat = d.toNat) ∧
      (s.opState = 10 → 0 < n → n < 32 → s.boot.woke = 0 → ∃ t, exec (.bistSliceEnd true d false []) s = .next t ∧
        t.fld Fld.BIST_STAT_SLICE = n + 1 ∧ t.opState = 10 ∧ t.boot = s.boot) ∧
      (s.opState = 10 → n = 32 → s.boot.woke = 0 → s.boot.bad = false → s.boot.parkFor = 2 → ∃ t,
        exec (.bistSliceEnd true d false []) s = .next t ∧ t.opState = 9 ∧ t.nv.sealed.isSome = true) ∧
      (s.opState = 10 → 0 < n → n < 32 → s.boot.woke ≠ 0 → ∃ t, exec (.bistSliceEnd true d false []) s = .next t ∧ t.opState = 0 ∧
        t.boot.cause = 4)

/-- Station time (R28, R402, R403, R406, R408): the timekeeper and the floor take it while it is SET, a PPS edge out of its window is only
counted, and its loss, 3 s without one, ends PPS_OK; an alarm time that is reached raises its event, and where it is enabled ends PARKED.
Neither lengthens a vital cycle. With neither feed present and the backup store run out, in OFF, the timekeeper is no longer valid, and a
seal no longer counts as unbroken (R392, R402). (Log entry 54.) -/
def Obligations.StationTime : Prop :=
  (∀ s : State, s.opState ≠ 0 →
    (s.flag Fld.TIME_STAT_SET = true →
      exec .timekeeperAlign s = .next ({ s with nv := { s.nv with tkValid := true, tkSet := true } }.setFld Fld.TIME_STAT_TK_VALID 1) ∧
      exec .timeFloorSave s = .next { s with nv := { s.nv with timeFloor := s.now } }) ∧
    (∀ t0, s.flag Fld.TIME_CTRL_PPS_EN = true → s.isTwin = false ∨ s.isActive = true → s.clock.lastPps = some t0 → 1001000000 < (s.ticks - t0) * 40 →
      exec .ppsEdge s = .next (s.addSat Fld.TIME_PPS_IGNORED 1)) ∧
    (s.flag Fld.TIME_CTRL_PPS_EN = true → s.isTwin = false ∨ s.isActive = true → s.clock.lastPps = none → ∃ t, exec .ppsEdge s = .next t ∧
      t.clock.lastPps = some s.ticks ∧ t.flag Fld.TIME_STAT_PPS_OK = true ∧ t.cyc = s.cyc ∧ t.ticks = s.ticks ∧ t.com = s.com) ∧
    (s.flag Fld.TIME_STAT_PPS_OK = true → (∀ t0, s.clock.lastPps = some t0 → t0 + 75000000 ≤ s.ticks) →
      s.does .ppsTimeout ((s.setFld Fld.TIME_STAT_PPS_OK 0).setClock
      { s.clock with lastPps := none, ppsBad := 0 })) ∧
    (∀ alarm, alarm = (s.reg Reg.TIME_ALARMHI).toNat * 2 ^ 32 + (s.reg Reg.TIME_ALARMLO).toNat → alarm ≠ 0 → alarm ≤ s.now →
      (s.flag Fld.PWR_WAKEEN_ALARM = false → s.does .timeAlarm s) ∧
        (s.flag Fld.PWR_WAKEEN_ALARM = true → s.opState = 9 → ∃ t, exec .timeAlarm s = .next t ∧ t.opState = 0 ∧ t.boot.cause = 4))) ∧
  (∀ s : State, s.opState = 0 → s.pins.feedA ≠ 0 → s.pins.feedB ≠ 0 → exec .timekeeperSupplyBreak s =
    .next { s with nv := { s.nv with tkValid := false, tkSet := false, sealed := s.nv.sealed.map fun x => { x with broken := true } } })

/-! ### Hosts (R301 to R326, R338 to R350, R408, R452, R453) -/

/-- Messages without an envelope on an open session are answered at once (R304 to R307, R320, R326, R347, R452): KEEP with station time,
REG_READ with the words read, unless they lie where hosts read none, QREAD with the entry if it is READY, QCONSUME by the removal of a READY
head that has the number given, JREAD from entry 1, or from the entry after the one named, with up to the entries asked for, or from the
beginning with NOT_FOUND. (Log entries 38 and 44.) -/
def Obligations.PlainMessages : Prop :=
  ∀ (s : State) (m : OhpMsg),
    let j := sessionOf m
    let u := s.heard m
    let reply := fun (t : State) (type : Byte) (code detail : Nat) (payload : List Byte) =>
      t.out = s.replyTo m type code detail payload :: (s.resolve m.port m.src).out
    (s.Plain m [] → ∃ t, exec (.keep m) s = .next t ∧ reply t 0x04 0 0 (leBytes 8 s.now) ∧
      t = { u with out := t.out, sessions := t.sessions, hosts := t.hosts, twin := t.twin } ∧ (t.session j).lastHeard = s.now) ∧
    (∀ (a : Word) (n : BitVec 16), s.Plain m (wordBytes a ++ leBytes 2 n.toNat ++ [0, 0]) → 1 ≤ n.toNat → n.toNat ≤ 128 →
      a.toNat / 4096 = (a.toNat + 4 * n.toNat - 1) / 4096 →
      (State.unreadable a.toNat = true → ∃ t, exec (.regRead m a n) s = .next t ∧ reply t 0x13 6 0 []) ∧
      (State.unreadable a.toNat = false → (u.readWords a.toNat 0 n.toNat).2.2 = none →
        ∃ t, exec (.regRead m a n) s = .next t ∧ reply t 0x13 0 0 (wordsBytes (u.readWords a.toNat 0 n.toNat).2.1))) ∧
    (∀ q x : Byte, s.Plain m [q, x, 0, 0] → q.toNat ≤ 1 → x.toNat ≤ 31 → ∃ t, exec (.qread m q x) s = .next t ∧
      t = { u with out := t.out, sessions := t.sessions, hosts := t.hosts, twin := t.twin } ∧
      match (s.queue (hostQueue j q)).entries[x.toNat]? with
      | some e => if e.ready then reply t 0x32 0 0 (entryBytes e) else reply t 0x32 1 1 []
      | none => reply t 0x32 1 0 []) ∧
    (∀ (q : Byte) (seq : Word), s.Plain m ([q, 0, 0, 0] ++ wordBytes seq) → q.toNat ≤ 1 →
      ∀ e rest, (s.queue (hostQueue j q)).entries = e :: rest →
        (e.seq = seq → e.ready = true → ∃ t, exec (.qconsume m q seq) s = .next t ∧ reply t 0x32 0 0 [] ∧
          (t.queue (hostQueue j q)).entries = rest) ∧
        (e.seq ≠ seq ∨ e.ready = false → ∃ t, exec (.qconsume m q seq) s = .next t ∧
          reply t 0x32 (if e.seq ≠ seq then 0x0D else 1) 0 [] ∧ t.queues = s.queues)) ∧
    (∀ (num : Word) (n : Byte), s.Plain m (wordBytes num ++ [n, 0, 0, 0]) → 1 ≤ n.toNat → n.toNat ≤ 8 →
      let bytes := fun (found : Byte) (es : List JEntry) => [BitVec.ofNat 8 es.length, found, 0, 0] ++ es.flatMap journalBytes
      let js := s.nv.journal
      (num = 0 → ∃ t, exec (.jread m num ⟨n, []⟩) s = .next t ∧ reply t 0x41 0 0 (bytes 1 (js.take n.toNat)) ∧ t.nv.journal = js) ∧
      (∀ before e after, js = before ++ e :: after → e.reqnum = num → e.gap = false → (∀ y ∈ before, y.reqnum ≠ num) → num ≠ 0 →
        ∃ t, exec (.jread m num ⟨n, []⟩) s = .next t ∧ reply t 0x41 0 0 (bytes 1 (after.take n.toNat)) ∧ t.nv.journal = js) ∧
      (num ≠ 0 → (∀ e ∈ js, e.reqnum ≠ num) → ∃ t, exec (.jread m num ⟨n, []⟩) s = .next t ∧ t.nv.journal = js ∧
        reply t 0x41 0x0E 0 (bytes 0 (js.take n.toNat))))

/-- Posted writes and the FENCE (R338, R349, R350): a REG_WRITE waits without an answer; its outcome is counted for the session, and a
bank conflict that retries did not resolve is logged with cause 7; a FENCE is held until the writes before it have their outcomes, and
then answered with what they came to. (Log entry 43.) -/
def Obligations.PostedWrites : Prop :=
  ∀ s : State,
    (∀ (m : OhpMsg) (a : Word) (n : BitVec 16) (data : List Word), s.LetsIn m → m.env = none → 1 ≤ n.toNat → n.toNat ≤ 128 →
      data.length = n.toNat → headerBad m (List.replicate (8 + 4 * n.toNat) 0) false = false → ∃ t, exec (.regWrite m a n data) s = .next t ∧
        t.posted = s.posted ++ [⟨.host (sessionOf m), m.tag, a.toNat, data⟩] ∧ t.out = s.out ∧ t.cyc = s.cyc ∧ t.com = s.com) ∧
    (∀ i tag a v rest, i < 16 → s.posted = ⟨.host i, tag, a, [v]⟩ :: rest → (∀ f ∈ (s.session i).fences, f.left = 0) →
      let w := ({ s with posted := rest } : State).hostWrite i a v.toNat
      (w.2 = 0 → w.1.session i = s.session i → ∃ t, exec (.postedWriteOutcome false) s = .next t ∧ t.posted = w.1.posted ∧
        (∀ x, t.reg x = w.1.reg x) ∧ (t.session i).agg = { (s.session i).agg with posted := (s.session i).agg.posted + 1 }) ∧
      ∃ t, exec (.postedWriteOutcome true) s = .next t ∧ t.posted = rest ∧
        t.reg (Reg.BRG_ERRLOG0i (s.fld Fld.BRG_LOGHEAD_NEXT)) = w32 a ∧
        bitsOf 31 28 (t.reg (Reg.BRG_ERRLOG1i (s.fld Fld.BRG_LOGHEAD_NEXT))).toNat = 7 ∧
        t.reg (Reg.BRG_ERRLOG2i (s.fld Fld.BRG_LOGHEAD_NEXT)) = tag ∧ (t.session i).agg.failed = (s.session i).agg.failed + 1) ∧
    (∀ m : OhpMsg, s.Plain m [] → let x := s.session (sessionOf m)
      ∃ t f, exec (.fence m) s = .next t ∧ t.out = s.out ∧ t.posted = s.posted ∧ (t.session (sessionOf m)).fences = x.fences ++ [f] ∧
        f.tag = m.tag ∧ f.agg = x.agg ∧ (t.session (sessionOf m)).agg = ⟨0, 0, 0, 0, 0⟩) ∧
    ∀ (i : Fin 16) f rest p, (s.session i).fences = f :: rest → (s.session i).peer = some p → f.left = 0 → f.sseq = none →
      ∃ t, exec (.fenceAnswer i) s = .next t ∧ (t.session i).fences = rest ∧
        t = { s with sessions := t.sessions, out := t.out, hosts := t.hosts, twin := t.twin } ∧
        t.out = .ohp ⟨p.port, p.addr, p.udp, 0x13, i, (s.session i).txSeq + 1, s.reg (Reg.SESS_EPOCHs i), f.tag,
          if f.agg.failed = 0 then 0 else 0x0F, s.unitByte, 0, State.aggBytes f.agg, none⟩ :: (s.resolve p.port p.addr).out

/-- OPEN and CLOSE at the unit that orders (R310, R315, R322): an OPEN with a nonce that the session has not used gets the next request
number, opens the session under the next epoch with an empty acceptance window, and is answered with the nonce, the epoch and the last
number journalled; a CLOSE is answered with KEEP and closes the session, and its queues stay. (Log entry 38.) -/
def Obligations.SessionsOpenAndClose : Prop :=
  ∀ (s : State) (m : OhpMsg),
    let j := sessionOf m
    (∀ nonce : BitVec 64, s.Vital m (.opening nonce) → ¬ nonce ∈ Store.get (fun _ => []) s.nv.nonces j → s.numHalted = false →
      let e := Store.get (fun _ => 0) s.nv.epochs j + 1
      ∃ t, exec (.openSession m nonce) s = .next t ∧ t.isOpen j = true ∧ t.reg (Reg.SESS_EPOCHs j) = e ∧ t.reg (Reg.SESS_SEQs j) = 0 ∧
        Store.get (fun _ => 0) t.nv.epochs j = e ∧ (t.session j).accepted = [] ∧ (t.session j).txSeq = 1 ∧
        t.reg Reg.SESS_REQNUM = s.nextNum ∧ s.answered t m 0x02 (leBytes 8 nonce.toNat ++ wordBytes e ++ wordBytes (s.lastJournalled j)) ∧
        t.com = s.com ∧ t.pod = s.pod ∧ t.cyc = s.cyc ∧ t.xch = s.xch ∧ t.pending = s.pending) ∧
    (s.Accepts m .closing → ∃ t, exec (.closeSession m) s = .next t ∧ t.isOpen j = false ∧ t.queues = s.queues ∧
      (t.session j).closedAt = some s.now ∧ s.answered t m 0x04 (leBytes 8 s.now) ∧ t.com = s.com ∧ t.pod = s.pod ∧ t.cyc = s.cyc)

/-- A REQUEST of a kind that enters an image (R314 to R317, R324), accepted and not refused by R313: it gets the next number and an
arrival stamp above every stamp before it, is journalled, has a PENDING response entry, is answered with number, stamp and the image
expected to take it, and waits for the image.  The force commands, RESTRICT_END and RVWRITE are such requests of their kinds (R158, R296,
R339). -/
def Obligations.ImageRequests : Prop :=
  ∀ (s : State) (m : OhpMsg),
    (∀ a b v, exec (.forceSet m a b v) s = exec (.programRequest m 0x81 [1, a, b, v]) s) ∧
    (∀ a b, exec (.forceClear m a b) s = exec (.programRequest m 0x81 [2, a, b, 0]) s) ∧
    exec (.forceClearAll m) s = exec (.programRequest m 0x81 [3, 0, 0, 0]) s ∧
    exec (.restrictEnd m) s = exec (.programRequest m 0x86 []) s ∧
    (∀ a k v, exec (.rvwrite m a k v) s = exec (.programRequest m 0x87 [a, k, v]) s) ∧
    ∀ (kind : Byte) (ps : List Word), imageKind kind = true → ps.length ≤ 7 → s.Accepts m (.request kind ps) →
      s.requestCode (sessionOf m) kind = 0 →
      let q := 2 * sessionOf m + 1
      ∃ t, exec (.programRequest m kind ps) s = .next t ∧ t.reg Reg.SESS_REQNUM = s.nextNum ∧
        t.hosts.reqs = s.hosts.reqs ++ [⟨s.nextNum, sessionOf m, kind, ps, s.nextStamp⟩] ∧ s.hosts.lastStamp < s.nextStamp ∧
        (t.queue q).entries = (s.queue q).entries ++
          [⟨(s.queue q).next, false, .resp ⟨kind, 0, 0, s.nextNum, m.sseq, 0, 0, s.nextStamp, 0, m.tag⟩⟩] ∧
        (∃ y, t.nv.journal.getLast? = some y ∧ y.reqnum = s.nextNum ∧ y.kind = kind ∧ y.session = sessionOf m ∧ y.params = ps ∧
          y.complete = false ∧ y.jix = s.nv.jix + 1) ∧
        s.answered t m 0x21 (wordBytes s.nextNum ++ leBytes 8 s.nextStamp ++ wordBytes s.nextImageRc) ∧
        t.com = s.com ∧ t.pod = s.pod ∧ t.cyc = s.cyc ∧ t.xch = s.xch ∧ t.ive = s.ive

/-- A REQUEST of a kind that is decided on ordering (R144, R158, R298, R314, R375, R405, R418, R453), accepted and not refused by R313, is
answered with its number and has its response at once, unless an arming waits for the partner: SAFE takes its unit to SAFE at the next
boundary, RESTART takes it out of SAFE, REC_CLEAR begins the clear, TIMESET waits for the boundary while cycles run, and in a single
installation EXCHANGE arms or disarms; a cancelled swap is disarmed, and an arming sends SWAP_ARM; ACTIVATE is scheduled. (Log entries 40
and 56.) -/
def Obligations.DecidedRequests : Prop :=
  ∀ (s : State) (m : OhpMsg),
    let j := sessionOf m
    let n := s.nextNum
    let taken := fun (kind : Byte) (ps : List Word) => s.Accepts m (.request kind ps) ∧ s.requestCode j kind = 0
    let said := fun (t : State) => s.answered t m 0x21 (wordBytes n ++ leBytes 8 s.nextStamp ++ wordBytes 0)
    let kept := fun (t : State) => t.com = s.com ∧ t.pod = s.pod ∧ t.cyc = s.cyc ∧ t.ive = s.ive
    (taken 0x84 [s.nv.serial] → s.opState = 5 ∨ s.opState = 6 → ∃ t, exec (.safeRequest m s.nv.serial) s = .next t ∧
      t.boot = { s.boot with safe9 := true } ∧ t.resolved j n 0 0 ∧ said t ∧ kept t ∧ t.reg Reg.SESS_REQNUM = n) ∧
    (taken 0x85 [s.nv.serial] → s.opState = 7 → s.causeNow = none → ∃ t, exec (.restartRequest m s.nv.serial) s = .next t ∧ t.opState = 0 ∧
      t.boot.cause = 3 ∧
      t.nv.leave = some (3, false) ∧ said t) ∧
    (taken 0x88 [] → s.recClearCode = 0 → ∃ t, exec (.recClear m) s = .next t ∧
      (∃ r ∈ t.evr.staging, r.code = 0x0901 ∧ r.source = w32 j ∧ t.evr.clearing = some r.rseq) ∧ t.flag Fld.EVR_STAT_CLEARING = true ∧
        t.resolved j n 0 0 ∧ said t ∧ kept t) ∧
    (taken 0x88 [] → s.recClearCode ≠ 0 → ∃ t, exec (.recClear m) s = .next t ∧ t.evr.clearing = s.evr.clearing ∧ t.resolved j n 0x0F s.recClearCode ∧
      said t) ∧
    (∀ x : BitVec 64, taken 0x8A [w32 x.toNat, w32 (x.toNat / 2 ^ 32)] →
      (x ≠ 0 → s.cyc.running = true → ∃ t, exec (.timeset m x) s = .next t ∧ t.clock = { s.clock with timeset := some x.toNat } ∧
        t.now = s.now ∧ t.resolved j n 0 0 ∧ said t ∧ kept t) ∧
      (x = 0 → ∃ t, exec (.timeset m x) s = .next t ∧ t.clock = s.clock ∧ t.now = s.now ∧ t.resolved j n 0x0F 0x70 ∧ said t)) ∧
    (∀ (f : Word) (x : BitVec 64) (build : Word), s.isTwin = false → taken 0x82 [1, f, w32 x.toNat, w32 (x.toNat / 2 ^ 32), build] →
      (s.armRefusal f.toNat x.toNat build = none → ∃ t a, exec (.exchangeArm m f x build) s = .next t ∧ t.xch.armed = some a ∧
        a.x = s.cycleAt x.toNat ∧ a.build = build ∧ a.waiting = false ∧ a.go = false ∧ a.dropForces = decide (f.toNat % 2 = 1) ∧
        t.reg Reg.PROG_XCYCLE = s.cycleAt x.toNat ∧ t.resolved j n 0 0 ∧ said t ∧ kept t) ∧
      ∀ c, s.armRefusal f.toNat x.toNat build = some c → ∃ t, exec (.exchangeArm m f x build) s = .next t ∧ t.xch = s.xch ∧
        t.resolved j n 0x0F c ∧ said t ∧ kept t) ∧
    (taken 0x82 [2, 0, 0, 0, 0] → ∀ a, s.xch.armed = some a → a.go = false → ∃ t, exec (.exchangeCancel m) s = .next t ∧
      t.xch = { s.xch with armed := none } ∧ t.resolved j n 0 0 ∧ said t ∧ kept t) ∧
    (∀ x : BitVec 64, taken 0x83 [1, w32 x.toNat, w32 (x.toNat / 2 ^ 32)] → s.swapCode (s.cycleAt x.toNat) false = 0 →
      s.now + 2000000000 ≤ x.toNat → s.flag Fld.TWIN_SWAP_ARMED = false → ∃ t, exec (.swapRequestArm m x) s = .next t ∧
        t.flag Fld.TWIN_SWAP_ARMED = true ∧ t.reg Reg.TWIN_SWAPCYC = s.cycleAt x.toNat ∧ t.twin.swapInit = true ∧ t.twin.swapNum = n ∧
        t.twin.swapAcked = false ∧ t.fld Fld.TWIN_SWAP_NEWEPOCH = (State.nextEpoch s.knownEpoch (1 - s.letter)).getD 0 % 2 ^ 24 ∧ said t ∧ kept t) ∧
    (taken 0x83 [2, 0, 0] → s.flag Fld.TWIN_SWAP_ARMED = true → s.twin.swapInit = true → s.twin.swapGo = false → s.twin.swapNum = 0 →
      ∃ t, exec (.swapRequestCancel m) s = .next t ∧ t.flag Fld.TWIN_SWAP_ARMED = false ∧ t.fld Fld.TWIN_SWAP_REF = 6 ∧
        t.resolved j n 0 0 ∧ said t ∧ kept t) ∧
    ∀ (k : Word) (x : BitVec 64), taken 0x89 [k, w32 x.toNat, w32 (x.toNat / 2 ^ 32)] → x ≠ 0 →
      let c := s.activateCode k.toNat x.toNat s.nextStamp
      (c = 0 → ∃ t, exec (.activate m k x) s = .next t ∧ t.upd.sched = some ⟨k.toNat, s.cycleAt x.toNat, x.toNat, j, n, 1, 0, s.ticks⟩ ∧
        t.reg Reg.UPD_ACTCYC = s.cycleAt x.toNat ∧ t.resolved j n 0 0 ∧ said t ∧ kept t) ∧
      (c ≠ 0 → ∃ t, exec (.activate m k x) s = .next t ∧ t.upd = s.upd ∧ t.resolved j n 0x0F c ∧ said t ∧ kept t)

/-- The timers of sessions (R310, R312, R318, R322, R374) and the WAKE message (R408): 16 cycles without HRES make a program request's
response READY with NO_RESULT; 30 s of silence close a session; 60 s end its block; 300 s after it closed its READY responses and its event
ring are emptied; a coalescing window that ends, 100 ms after it opened, writes its entry; a WAKE message for this module's serial number,
later than any before it, from a session that R408 enables, takes a parked module to START. (The restrictions of WAKE to PARKED's port are
R408's; log entry 42.) -/
def Obligations.HostTimers : Prop :=
  ∀ (s : State) (i : Fin 16),
    (∀ num e, s.journalOf num = some e → programKind e.kind = true → s.awaits e.session num = true → e.imgRc ≠ 0 →
      17 ≤ (s.vcyc - s.cycleOfImage e.imgRc).toInt → ∃ t, exec (.resultTimeout num) s = .next t ∧ t.resolved e.session num 0x10 0 ∧
        t.com = s.com ∧ t.cyc = s.cyc) ∧
    (s.isOpen i = true → (s.session i).lastHeard + 30000000000 ≤ s.now → s.followsPartner = false →
      ∃ t, exec (.sessionIdleTimeout i) s = .next t ∧ t.isOpen i = false ∧ t.queues = s.queues ∧
      (t.session i).closedAt = some s.now ∧ t.posted = s.posted) ∧
    (∀ t0, (s.session i).blockedAt = some t0 → t0 + 60000000000 ≤ s.now → ∃ t, exec (.sessionUnblock i) s = .next t ∧
      t.flag (Fld.SESS_STATEs_BLOCKED i) = false ∧ (t.session i).blockedAt = none ∧
      t = { s with regs := t.regs, sessions := t.sessions }) ∧
    (∀ t0, s.isOpen i = false → (s.session i).closedAt = some t0 → t0 + 300000000000 ≤ s.now → ∃ t, exec (.sessionPurge i) s = .next t ∧
      (t.queue (2 * i + 1)).entries = (s.queue (2 * i + 1)).entries.filter (fun y => !y.ready) ∧ (t.queue (32 + i)).entries = [] ∧
      t.fld (Fld.SESS_LOSSs_LOST i) =
        Nat.min (s.fld (Fld.SESS_LOSSs_LOST i) + (s.queue (32 + i)).entries.length) (2 ^ 32 - 1)) ∧
    (∀ w rest, s.windows = w :: rest → w.session < 16 → s.used (32 + w.session) < 192 → w.opened + 100000000 ≤ s.now →
      ∃ t, exec .coalesceWindowEnd s = .next t ∧
      (t.queue (32 + w.session)).entries = (s.queue (32 + w.session)).entries ++ [⟨(s.queue (32 + w.session)).next, true, .event w.entry⟩] ∧
      t.com = s.com ∧ t.cyc = s.cyc) ∧
    ∀ (m : OhpMsg) (e : Envelope), s.opState = 9 → s.fld Fld.PWR_PARKPORT_PORT = m.port → m.magic = 0x4F48 → m.ver = 1 →
      s.shutOut m = false → m.env = some e → headerBad m (wordBytes s.nv.serial) true = false → s.envelopeBad (sessionOf m) e = false →
      s.macHolds m 0x60 (wordBytes s.nv.serial) e = true → s.timely (sessionOf m) e = true → s.classOf (sessionOf m) ≠ 0 →
      Store.get (fun _ => 0) s.nv.wakes (sessionOf m) < e.tsend.toNat → s.flag Fld.PWR_WAKEEN_OHP = true →
      ∃ t, exec (.wake m s.nv.serial) s = .next t ∧ t.opState = 0 ∧ t.boot.cause = 4 ∧
        Store.get (fun _ => 0) t.nv.wakes (sessionOf m) = e.tsend.toNat ∧ t.out = s.out

/-- The host network (R301 to R303): a link that goes up makes the addresses that need no test usable and announces them; ARP requests,
echo requests and neighbour solicitations for the port's own addresses, and MLD queries, are answered; an address that its test finds free
is in use; other frames are discarded and counted, and a message of a reserved type is refused with BAD_FORMAT. (Log entry 44.) -/
def Obligations.HostNetwork : Prop :=
  ∀ (s : State) (x : Fin 2), s.linkOn x = true → s.opState ≠ 9 →
    (∃ t, exec (.hostLinkChange x false false) s = .next t ∧ t.flag (Fld.HSTx_STAT_LINK x) = false ∧ t.out = s.out ∧
      t.hosts = { s.hosts with linkLocal := s.hosts.linkLocal.filter (· != (x : Nat)) } ∧ t.com = s.com) ∧
    (∃ t, exec (.hostLinkChange x true true) s = .next t ∧ t.flag (Fld.HSTx_STAT_LINK x) = true ∧
      t.out = .mldReport x :: ((if s.ip4 x = 0 then [] else [.gratuitousArp x (s.ip4 x)]) ++ s.out) ∧ t.com = s.com) ∧
    (∃ t, exec (.hostLinkChange x true false) s = .next t ∧ t.flag (Fld.HSTx_STAT_LINK x) = false) ∧
    (∀ a : Word, exec (.arpRequest x a) s = .next (if a ≠ 0 ∧ a = s.ip4 x then { s with out := .arpReply x a :: s.out } else s.dropOhp x)) ∧
    (∀ (d src : IpAddr) (bs : List Byte), s.ownAddr x d = true → bs.length ≤ 64 → s.hosts.echoes = [] → ∃ t,
      exec (.icmpEchoRequest x d src bs) s = .next t ∧ t.out = .echoReply x src bs :: s.out ∧
      t = { s with out := t.out, hosts := { s.hosts with echoes := [((x : Nat), s.now)] } }) ∧
    (∀ a : BitVec 128, s.ownAddr x (.v6 a) = true → exec (.neighbourSolicitation x a) s =
      .next { s with out := .neighbourAdvertisement x a :: s.out }) ∧
    exec (.mldQuery x) s = .next { s with out := .mldReport x :: s.out } ∧
    (s.ip6 x ≠ 0 → ∃ t, exec (.duplicateAddressDetection x false false) s = .next t ∧ t.flag (Fld.HSTx_STAT_V6 x) = true ∧
      t = { s with regs := t.regs }) ∧
    (∃ t, exec (.duplicateAddressDetection x true false) s = .next t ∧ (x : Nat) ∈ t.hosts.linkLocal) ∧
    (∃ t, exec (.duplicateAddressDetection x true true) s = .next t ∧ ¬ (x : Nat) ∈ t.hosts.linkLocal) ∧
    (∃ t, exec (.ignoredFrame x .frame) s = .next t ∧ t.fld (Fld.HSTx_DROP_DROP x) = min (s.fld (Fld.HSTx_DROP_DROP x) + 1) (2 ^ 32 - 1) ∧
      t.out = s.out ∧ t.queues = s.queues) ∧
    ∀ (m : OhpMsg) (ty : Byte), s.LetsIn m → ∃ t o rest, exec (.ignoredFrame x (.reservedType m ty)) s = .next t ∧
      t.out = .ohp o :: rest ∧ o.session = sessionOf m ∧ o.status = 0x0B ∧ o.tag = m.tag ∧ t.queues = s.queues ∧ t.nv.journal = s.nv.journal

/-! ### The twin link (R274 to R299) -/

/-- Time and the transmitter on the twin link (R281 to R283, R285): a SYNC takes station time over, and gives the alignment error of the own
boundary of its number, which steers the next cycle by 8 ticks at most, beyond 2; a number that the distance of the two boundaries does not
explain is adopted; a unit on entry to JOINING takes number and phase directly. The active unit answers a PROBE, and half the time to the
ECHO less half the turnaround is the link delay; a condition of R283 takes the link down; a free transmitter sends the frame of the best
priority that waits, sealed, a SYNC with the offset of the moment, or a PAD. (Log entries 54 and 55.) -/
def Obligations.TwinClock : Prop :=
  ∀ (s : State) (h : TwinHdr),
    let u := s.received h
    let d := s.fld Fld.TWIN_LINKDLY_DELAY
    let sent := fun (t : State) (b : TwinBody) (k : Nat) =>
      t.out = .twin (TwinHdr.form s.letter (s.twin.txSeq + 1) s.vcyc s.nv.serial b k) (b.part k) :: s.out
    (∀ (n off : Word) (time : Nat) (rc : Word), s.Receives h (.sync n off time rc) 0 → s.isActive = false → s.role ≠ 0 →
      let ago := off.toNat + d / 40
      ∃ t, exec (.syncFrame h n off time rc) s = .next t ∧ t.now = time + off.toNat * 40 + d ∧ t.flag Fld.TIME_STAT_SET = true ∧
        (s.role ≠ 1 → s.cyc.running = true →
          let dn := (n - s.vcyc).toInt
          let e := (s.cyc.tick0 : Int) + dn * (s.cycleTicks : Int) - ((s.ticks : Int) - (ago : Int))
          (dn.natAbs ≤ 1 → 2 * e.natAbs ≤ s.cycleTicks → t.cyc = s.cyc ∧ t.twin.alignErr = e ∧
            t.twin.steer.natAbs = if e.natAbs ≤ 2 then 0 else Nat.min e.natAbs 8) ∧
          (1 < dn.natAbs → t.cyc = { s.cyc with n := n })) ∧
        (s.role = 1 → s.fld Fld.TWIN_XFER_PHASE ≤ 1 → t.vcyc = n ∧ t.cyc.running = true ∧ t.cyc.tick0 = s.ticks - ago)) ∧
    (∀ n, s.Receives h (.probe n) 0 → s.isActive = true → exec (.probeFrame h n) s = .next (u.twinSend (.echo n (w32 s.ticks)))) ∧
    (∀ n v t0, s.Receives h (.echo n v) 0 → s.isActive = false → s.twin.probe = some (n, t0) → exec (.echoFrame h n v) s =
      .next ((u.setFld Fld.TWIN_LINKDLY_DELAY (min ((s.ticks - t0 - v.toNat) * 40 / 2) 65535)).setTwin { u.twin with probe := none })) ∧
    (s.isTwin = true → s.isActive = false → exec .probeInterval s = .next { s with
      twin := { s.twin with probeNext := s.twin.probeNext + 1, txq := s.twin.txq ++ [(.probe s.twin.probeNext, 0)] } }) ∧
    (s.Receives h .pad 0 → exec (.padFrame h) s = .next u) ∧
    (s.isTwin = true → s.linkUp = true → ∃ t, exec .linkDownTimeout s = .next t ∧ t.linkUp = false ∧ t.twin.lastDown = some s.vcyc ∧
      t.twin.good = 0 ∧ t.xferring = false ∧ t.fld Fld.TWIN_LINKERR_DOWNS = min (s.fld Fld.TWIN_LINKERR_DOWNS + 1) 65535 ∧
      t.cyc = s.cyc ∧ (s.xferring = false → t.com = s.com ∧ t.opState = s.opState)) ∧
    (s.isTwin = true → s.twin.txq = [] → s.twin.xferBlocks = [] → ∃ t, exec .twinFrameSent s = .next t ∧ sent t .pad 0 ∧
      t.twin = { s.twin with txSeq := s.twin.txSeq + 1 }) ∧
    (∀ n o time rc, s.isTwin = true → s.twin.txq = [(.sync n o time rc, 0)] → ∃ t, exec .twinFrameSent s = .next t ∧
      sent t (.sync n (w32 s.phase) time rc) 0 ∧ t.twin = { s.twin with txSeq := s.twin.txSeq + 1, txq := [] }) ∧
    (∀ b c k i, s.isTwin = true → 1 < framePriority b → framePriority b < framePriority c → framePriority c ≤ 5 →
      s.twin.txq = [(c, i), (b, k)] → ∃ t, exec .twinFrameSent s = .next t ∧ sent t b k ∧
        t.twin = { s.twin with txSeq := s.twin.txSeq + 1, txq := [(c, i)] })

/-- Roles and what the active unit sends (R276 to R279, R287, R288, R295, R310, R325): a unit keeps the image that it receives whole, in the
order of its frames, and the STATUS, and decides a takeover where the partner no longer runs as active, with an epoch above all it knows
that is stored at once; an ORDER is journalled and the next number is above its own; the reply to a forwarded request goes to the host, a
forwarded request is ordered; a session follows the active unit's; READY_START clashes for equal letters; the first role of a single unit
is ACTIVE from cycle 0 with the next epoch, and a unit whose partner is active joins. (Log entries 35, 40, 55 and 57.) -/
def Obligations.TwinRoles : Prop :=
  ∀ (s : State) (h : TwinHdr),
    let u := s.received h
    (∀ img k, s.Receives h (.image img) k → s.isActive = false → s.linkUp = true → k = 0 ∨ s.twin.rxParts = some (img, k) →
      exec (.imageFrame h ⟨img, k⟩) s = .next (u.setTwin (if k + 1 = (TwinBody.image img).parts
        then { u.twin with rxImage := some (Img.received img), rxParts := none } else { u.twin with rxParts := some (img, k + 1) }))) ∧
    (∀ n c st tf dig sdig, s.Receives h (.status n c st tf dig sdig) 0 → ∃ t, exec (.statusFrame h n c st tf dig sdig) s = .next t ∧
      t.reg Reg.TWIN_PCLAIM = c ∧ t.twin.status = some ⟨n, c, st, tf, dig, sdig⟩ ∧
      ∀ e, s.role = 3 → s.linkUp = true → n = s.vcyc → s.twin.swapGo = false → (st ≠ 5 ∨ c.toNat / 2 ^ 24 ≠ 2) → s.twin.takeover = none →
        State.nextEpoch (Nat.max s.knownEpoch (c.toNat % 2 ^ 24)) s.letter = some e →
        t.twin.takeover = some (2, e) ∧ t.nv.epoch = Nat.max s.nv.epoch e) ∧
    (∀ o : OrderRec, s.Receives h (.order o) 0 → s.isActive = false → s.hosts.gapDue = false → programKind o.kind = true → ∃ t,
      exec (.orderFrame h o) s = .next t ∧ t.reg Reg.SESS_REQNUM = o.num ∧ t.hosts.lastStamp = max s.hosts.lastStamp o.stamp ∧
      (∃ y, t.nv.journal.getLast? = some y ∧ y.reqnum = o.num ∧ y.order = true ∧ y.complete = false ∧ y.params = o.params ∧
        y.arrival = o.stamp ∧ y.claim = o.claim ∧ y.mac = o.mac) ∧ t.com = s.com ∧ t.pod = s.pod ∧ t.out = s.out) ∧
    (∀ o, s.Receives h (.fwd (.response o)) 0 → ∃ t, exec (.fwdFrame h (.response o)) s = .next t ∧
      t = { u with out := t.out, hosts := t.hosts } ∧ t.out = .ohp o :: (s.resolve o.port o.dst).out) ∧
    (∀ m r x, s.Receives h (.fwd (.request m r x)) 0 → s.isActive = true → s.twin.swapGo = false → s.holds = false →
      exec (.fwdFrame h (.request m r x)) s = .next (u.orderVital m r true x)) ∧
    (∀ n, s.Receives h (.fwd (.session n)) 0 → s.isActive = false → ∃ t, exec (.fwdFrame h (.session n)) s = .next t ∧
      t.isOpen (n.session % 16) = n.isOpen ∧ (n.isOpen = true → t.reg (Reg.SESS_EPOCHs (n.session % 16)) = n.sepoch)) ∧
    (∀ k c, s.Receives h (.readyStart k 1 c) 0 → k ≠ s.letter → exec (.readyStart h k 1 c) s =
      .next (u.setTwin { u.twin with partnerReady := true })) ∧
    (∀ i c, s.Receives h (.readyStart s.letter i c) 0 → ∃ t, exec (.readyStart h s.letter i c) s = .next t ∧ t.twin.partnerReady = true ∧
      t.flag Fld.TWIN_STAT_ROLECLASH = true) ∧
    (∀ t0 e, s.isTwin = false → s.boot.off = false → s.twin.readyAt = some t0 → State.nextEpoch s.knownEpoch s.letter = some e → ∃ t,
      exec .firstRoleEvaluation s = .next t ∧ t.isActive = true ∧ t.opState = 5 ∧ t.cyc.running = true ∧ t.vcyc = 0 ∧ t.nv.epoch = e ∧
      t.twin.readyAt = none) ∧
    (∀ t0, s.isTwin = true → s.boot.off = false → s.twin.readyAt = some t0 → s.flag Fld.TWIN_STAT_ROLECLASH = false → s.linkUp = true →
      s.partnerActive 8 = true → ∃ t, exec .firstRoleEvaluation s = .next t ∧ t.role = 1 ∧ t.opState = 4 ∧ t.fld Fld.TWIN_XFER_PHASE = 1 ∧
      t.twin.txq = s.twin.txq ++ [(.xferReq (s.reg Reg.PROG_IMGID) (s.reg Reg.IVE_TBLID), 0)] ∧ t.twin.readyAt = none)

/-- State transfer (R290 to R293): the active unit accepts a request for its own image and tables and donates every block, and refuses while
it is not ACTIVE; the joiner that is accepted needs every block, writes those it receives, passes to CATCHUP with the last and to VERIFY
with equal digests, and is UNSYNCED where the transfer fails or does not converge within 500 cycles; the donor repeats the blocks that it is
asked for; the digests of the blocks come in three frames; 10 s after a failure a transfer may be tried again. (Log entries 14, 55 and 77.)
-/
def Obligations.StateTransfer : Prop :=
  ∀ (s : State) (h : TwinHdr),
    let u := s.received h
    let phase := fun (t : State) => t.fld Fld.TWIN_XFER_PHASE
    let tables := s.reg Reg.IVE_TBLID
    let image := s.reg Reg.PROG_IMGID
    (∀ pr, s.Receives h (.xferReq image tables) 0 → s.isActive = true → s.xch.armed = none → s.prog = some pr → ∃ t,
      exec (.xferReq h image tables) s = .next t ∧ phase t = 2 ∧ t.flag Fld.TWIN_XFER_DONOR = true ∧
      t.twin.xferBlocks = transferBlocks pr s.ive.tables ∧ t.twin.txq = s.twin.txq ++ [(.xferAccept (s.vcyc + 1), 0)]) ∧
    (∀ a b, s.Receives h (.xferReq a b) 0 → s.isActive = false → ∃ t, exec (.xferReq h a b) s = .next t ∧
      t.twin.txq = s.twin.txq ++ [(.xferRefuse 4, 0)] ∧ phase t = phase s) ∧
    (∀ pr n, s.Receives h (.xferAccept n) 0 → s.role = 1 → phase s = 1 → s.twin.xferStaged = false → s.prog = some pr → ∃ t,
      exec (.xferAccept h n) s = .next t ∧ phase t = 2 ∧ t.twin.xferNeed = transferBlocks pr s.ive.tables ∧ t.ive.routes = [] ∧
      t.ive.points = [] ∧ t.ive.signals = [] ∧ t.prog = s.prog) ∧
    (∀ c, s.Receives h (.xferRefuse c) 0 → s.role = 1 → phase s = 1 → c ≠ 2 → ∃ t, exec (.xferRefuse h c) s = .next t ∧ t.role = 2 ∧
      t.xferring = false ∧ t.fld Fld.TWIN_XFERLAST_CAUSE = c ∧ t.flag Fld.TWIN_XFERLAST_VALID = true ∧ t.twin.xferRetry = some s.now) ∧
    (∀ n bs, s.Receives h (.xferNeed n bs) 0 → s.isActive = true → s.flag Fld.TWIN_XFER_DONOR = true → later n s.vcyc = false → ∃ t,
      exec (.xferNeed h n bs) s = .next t ∧ t.twin.xferBlocks = bs.take 12 ∧ phase t = if bs.isEmpty then 4 else 3) ∧
    (∀ k n ws, s.Receives h (.block k n ws) 0 → s.role = 1 → phase s = 2 → k < 1024 → k ∈ s.twin.xferNeed → ∃ t,
      exec (.stateFrame h k n ws) s = .next t ∧ t.twin.xferNeed = s.twin.xferNeed.filter (· != k) ∧
      phase t = (if t.twin.xferNeed.isEmpty then 3 else 2) ∧
      ∀ p ∈ s.imagePeas, ∀ i, i < ws.length → peaGet p (t.pea p) .sram (k * 1024 + i) = ws.getD i 0) ∧
    (∀ n ds k, s.Receives h (.bdig n ds) k → k + 1 ≠ (TwinBody.bdig n ds).parts → k = 0 ∨ s.twin.rxDig = some (n, ds, k) →
      exec (.bdigFrame h n ⟨ds, k⟩) s = .next (u.setTwin { u.twin with rxDig := some (n, ds, k + 1) })) ∧
    (∀ n ds k, s.Receives h (.bdig n ds) k → k + 1 = (TwinBody.bdig n ds).parts → s.twin.rxDig = some (n, ds, k) → s.role = 1 →
      phase s = 3 →
      (s.twin.xferLatch = [] → exec (.bdigFrame h n ⟨ds, k⟩) s =
        .next (u.setTwin { u.twin with rxDig := none, xferBdig := some (n, ds) })) ∧
      (s.twin.xferLatch ≠ [] → n + 1 = s.vcyc → s.differing ds = [] → ∃ t, exec (.bdigFrame h n ⟨ds, k⟩) s = .next t ∧ phase t = 4 ∧
        t.twin.xferNeed = [] ∧ t.twin.txq = s.twin.txq ++ [(.xferNeed n [], 0)])) ∧
    (∀ t0, s.twin.xferRetry = some t0 → t0 + 10000000000 ≤ s.now → exec .xferRetry s = .next (s.setTwin { s.twin with xferRetry := none })) ∧
    (s.role = 1 → phase s = 3 → 500 ≤ s.twin.xferRun → ∃ t, exec .xferConvergenceTimeout s = .next t ∧ t.role = 2 ∧ t.xferring = false ∧
      t.fld Fld.TWIN_XFERLAST_CAUSE = 3)

/-- Exchange and swap between twin units (R145, R146, R298, R299): XARM arms a unit that holds the staged image, XREADY completes the
arming, XGO lets it exchange, XABORT disarms; SWAP_ARM, SWAP_ACK, SWAP_GO and SWAP_ABORT do the same for a swap, and SWAP_GO has the new
epoch stored; at cycle S the partner that has its GO takes ACTIVE with the epoch that SWAP_ARM gave it, and without SWAP_ACK in 1 s the swap
is aborted with code 5. (Log entry 56.) -/
def Obligations.TwinExchangeAndSwap : Prop :=
  ∀ (s : State) (h : TwinHdr),
    let u := s.received h
    let armedFor := fun (t : State) => t.flag Fld.TWIN_SWAP_ARMED
    let cycle := s.reg Reg.TWIN_SWAPCYC
    (∀ x b, s.Receives h (.xarm x b) 0 → s.isActive = false → s.stagedBuild = some b → s.flag Fld.TWIN_STAT_SYNCED = true → ∃ t,
      exec (.xarm h x b) s = .next t ∧ t.xch.armed = some ⟨x, b, false, false, 0, 0, false, true, false, true, s.ticks⟩ ∧
      t.reg Reg.PROG_XCYCLE = x ∧ t.twin.txq = s.twin.txq ++ [(.xready b, 0)]) ∧
    (∀ a, s.Receives h (.xready a.build) 0 → s.xch.armed = some a → a.waiting = true → a.byPartner = false → ∃ t,
      exec (.xready h a.build) s = .next t ∧ t.xch.armed = some { a with waiting := false } ∧ t.reg Reg.PROG_XCYCLE = a.x ∧
      (s.awaits a.session a.num = true → t.resolved a.session a.num 0 0)) ∧
    (∀ a, s.Receives h (.xgo a.x) 0 → s.xch.armed = some a → a.byPartner = true → a.x = s.vcyc + 1 → s.phase + 2500 ≤ s.cycleTicks →
      s.stagedBuild = some a.build →
      ∃ t, exec (.xgo h a.x) s = .next t ∧ t.xch = { s.xch with armed := some { a with go := true, waiting := false } } ∧ t.cyc = s.cyc) ∧
    (∀ a c, s.Receives h (.xabort a.x c) 0 → s.xch.armed = some a → a.byPartner = true → c < 256 → ∃ t,
      exec (.xabort h a.x c) s = .next t ∧ t.xch = { s.xch with armed := none } ∧ bitsOf 7 0 (t.reg Reg.PROG_REFUSE).toNat = c) ∧
    (∀ x e, s.Receives h (.swapArm x e) 0 → s.role = 3 → ∃ t, exec (.swapArm h x e) s = .next t ∧ armedFor t = true ∧
      t.reg Reg.TWIN_SWAPCYC = x ∧ t.fld Fld.TWIN_SWAP_NEWEPOCH = e ∧ t.twin.swapInit = false ∧
      t.twin.txq = s.twin.txq ++ [(.swapAck x, 0)]) ∧
    (s.Receives h (.swapAck cycle) 0 → armedFor s = true → s.twin.swapInit = true → ∃ t, exec (.swapAck h cycle) s = .next t ∧
      t.twin.swapAcked = true ∧ armedFor t = true ∧ t.twin.swapNum = 0 ∧
      (s.twin.swapNum ≠ 0 → s.awaits s.twin.swapSession s.twin.swapNum = true → t.resolved s.twin.swapSession s.twin.swapNum 0 0)) ∧
    (s.Receives h (.swapGo (s.vcyc + 1)) 0 → armedFor s = true → s.twin.swapInit = false → s.role = 3 → cycle = s.vcyc + 1 →
      s.phase + 2500 ≤ s.cycleTicks → exec (.swapGo h (s.vcyc + 1)) s =
        .next ((u.storeEpoch (s.fld Fld.TWIN_SWAP_NEWEPOCH)).setTwin { u.twin with swapGo := true })) ∧
    (∀ c, s.Receives h (.swapAbort cycle c) 0 → armedFor s = true → s.twin.swapInit = false → c < 16 → ∃ t,
      exec (.swapAbort h cycle c) s = .next t ∧ armedFor t = false ∧ t.fld Fld.TWIN_SWAP_REF = c ∧ t.twin.held = [] ∧ t.role = s.role) ∧
    (armedFor s = true → s.isTwin = true → s.twin.swapInit = true → s.twin.swapAcked = false → s.twin.swapAt + 25000000 ≤ s.ticks → ∃ t,
      exec .swapAckTimeout s = .next t ∧ armedFor t = false ∧ t.fld Fld.TWIN_SWAP_REF = 5 ∧
      t.twin.txq = s.twin.txq ++ [(.swapAbort cycle 5, 0)]) ∧
    (s.swapComing = true → armedFor s = true → cycle = s.vcyc → s.twin.held = [] → s.boot.off = false → ∃ t,
      exec .swapCycle s = .next t ∧ t.isActive = true ∧ t.opState = 5 ∧ armedFor t = false ∧
      t.reg Reg.TWIN_CLAIM = w32 (2 * 2 ^ 24 + s.fld Fld.TWIN_SWAP_NEWEPOCH) ∧ t.nv.epoch = max s.nv.epoch (s.fld Fld.TWIN_SWAP_NEWEPOCH))

/-! ### Updates, registers, interrupts and the recorder (R14 to R19, R329 to R386, R401, R410 to R422) -/

/-- Update transfers (R416, R417, R420): BEGIN of a kind that fits starts a transfer into the inactive slot, which is invalidated; DATA at
the offset expected is stored there; END with every check passed makes the slot VALID, and with a check failed names the step; ABORT and
30 s of silence end the transfer; QUERY and INFO change nothing but the count of datagrams; REBOOT leaves SPROUT through reset. A key
package that passes every check (R410, R411, R416) puts its key into the session's slot, and no other slot changes. Activation (R418,
R419): the partner follows a SCHED frame; at its cycle a scheduled slot restarts its unit through SHUTDOWN_BIST, a program as the active
slot and firmware on trial; the active unit of a twin waits for the restarted partner, then arms a swap for the tenth boundary; after 120
s a unit on trial that has not confirmed is reset, and a unit that waits gives the sequence up. (Log entries 22, 48 and 49.) -/
def Obligations.UpdatesAndActivation : Prop :=
  (∀ (s : State) (u : UpdMsg),
    let x := s.queue 55
    let base := s.setQueue 55 { x with next := x.next + 1 }
    let off := s.reg Reg.UPD_XOFF
    let heard := fun (tr : Transfer) => { s.upd with xfer := some { tr with heard := s.ticks } }
    (∀ (kind : Byte) (len : Word), s.UpdTakes u 8 → s.upd.xfer = none → 1 ≤ kind.toNat → kind.toNat ≤ 3 →
      (kind.toNat ≠ 3 → len.toNat ≤ slotSize (s.inactiveSlot kind.toNat)) → ∃ t tr, exec (.updateBegin u kind len) s = .next t ∧
        t.upd.xfer = some tr ∧ tr.xid = u.xid ∧ tr.kind = kind.toNat ∧ tr.length = len.toNat ∧
        tr.slot = (if kind.toNat = 3 then none else some (s.inactiveSlot kind.toNat)) ∧ t.reg Reg.UPD_XID = u.xid ∧ t.reg Reg.UPD_XOFF = 0 ∧
        (kind.toNat ≠ 3 → t.slot (s.inactiveSlot kind.toNat) = emptySlot) ∧ t.flag Fld.UPD_STAT_XFER = true ∧
        t.out = updAnswer u 0x81 (ackBytes 0 0 0) :: s.out ∧ t.com = s.com ∧ t.pod = s.pod) ∧
    (∀ (bs : List Byte) tr k, s.UpdTakes u bs.length → s.upd.xfer = some tr → tr.xid = u.xid → tr.slot = some k → bs.length ≤ 480 →
      u.offset = off → off.toNat + bs.length ≤ tr.length → ∃ t, exec (.updateData u bs) s = .next t ∧
        t.reg Reg.UPD_XOFF = w32 (off.toNat + bs.length) ∧ t.upd = heard tr ∧ t.nv = s.nv ∧
        t.out = updAnswer u 0x81 (ackBytes 0 0 (w32 (off.toNat + bs.length))) :: s.out ∧
        ∀ a, Store.get (fun _ => 0) t.mem a = if slotBase k + off.toNat ≤ a ∧ a < slotBase k + off.toNat + bs.length then
          bs.getD (a - (slotBase k + off.toNat)) 0 else Store.get (fun _ => 0) s.mem a) ∧
    (∀ (bs : List Byte) tr, s.UpdTakes u bs.length → s.upd.xfer = some tr → tr.xid = u.xid → bs.length ≤ 480 → u.offset ≠ off →
      exec (.updateData u bs) s = .next { base with upd := heard tr, out := updAnswer u 0x81 (ackBytes 5 0 off) :: s.out }) ∧
    (∀ tr sg gt c, s.UpdTakes u 0 → s.upd.xfer = some tr → tr.xid = u.xid → off.toNat = tr.length →
      (∀ k, s.imageError tr sg gt c = none → tr.slot = some k → ∃ t, exec (.updateEnd u sg gt c) s = .next t ∧ t.upd.xfer = none ∧
        t.flag Fld.UPD_STAT_XFER = false ∧ (t.slot k).valid = true ∧ (t.slot k).build = w32 (s.hdr tr 0x0C 4) ∧
        t.out = updAnswer u 0x81 (ackBytes 0 0 off) :: s.out) ∧
      (∀ step, s.imageError tr sg gt c = some step → ∃ t, exec (.updateEnd u sg gt c) s = .next t ∧ t.upd.xfer = none ∧
        t.reg Reg.UPD_REJECT = w32 (2 ^ 31 + step * 2 ^ 16 + 6) ∧ t.nv.slots = s.nv.slots ∧ t.nv.keys = s.nv.keys ∧
        t.out = updAnswer u 0x81 (ackBytes 6 step off) :: s.out)) ∧
    (∀ tr, s.UpdTakes u 0 → s.upd.xfer = some tr → tr.xid = u.xid →
      (∃ t, exec (.updateAbort u) s = .next t ∧ t.upd.xfer = none ∧ t.flag Fld.UPD_STAT_XFER = false ∧ t.nv = s.nv ∧
        t.out = updAnswer u 0x81 (ackBytes 7 0 off) :: s.out) ∧
      exec (.updateQuery u) s = .next { base with upd := heard tr, out := updAnswer u 0x81 (ackBytes 0 0 off) :: s.out }) ∧
    (s.UpdTakes u 0 → exec (.updateInfo u) s = .next { base with out := updAnswer u 0x86 s.infoBytes :: s.out }) ∧
    (s.UpdTakes u 0 → s.opState = 1 → ∃ t, exec (.updateReboot u) s = .next t ∧ t.opState = 0 ∧ t.boot.cause = 6 ∧ t.nv = s.saveFloor.nv) ∧
    (∀ tr, s.upd.xfer = some tr → tr.heard + 750000000 ≤ s.ticks → ∃ t, exec .updateTimeout s = .next t ∧ t.upd.xfer = none ∧
      t.flag Fld.UPD_STAT_XFER = false ∧
      t.reg Reg.UPD_REJECT = w32 (2 ^ 31 + 7) ∧ t.out = s.out)) ∧
  (∀ (s : State) (u : UpdMsg) (tr : Transfer) (sg gt : Bool) (i k : Nat) (key : List Byte), s.UpdTakes u 0 → s.upd.xfer = some tr →
    tr.xid = u.xid → tr.kind = 3 → tr.slot = none → (s.reg Reg.UPD_XOFF).toNat = tr.length → i < 16 → k < 2 →
    s.imageError tr sg gt (.keys [.sessionKey i k key]) = none →
    ∃ t, exec (.updateEnd u sg gt (.keys [.sessionKey i k key])) s = .next t ∧ key.length = 16 ∧
      (∀ j l, j < 16 → l < 2 → t.sessionKey j l = if j = i ∧ l = k then key else s.sessionKey j l) ∧ t.nv.slots = s.nv.slots ∧
      t.upd.xfer = none) ∧
  (∀ s : State,
    (∀ (h : TwinHdr) n k, s.Receives h (.sched n k) 0 → s.isActive = false → k < 4 → ∃ t, exec (.sched h n k) s = .next t ∧
      t.upd.sched = some ⟨k, n, 0, 0, 0, 1, 0, s.ticks⟩ ∧ t.reg Reg.UPD_ACTCYC = n ∧ t.fld Fld.UPD_ACT_PHASE = 1 ∧ t.fld Fld.UPD_ACT_SLOT = k) ∧
    (∀ (h : TwinHdr) n a, s.Receives h (.sched n 4) 0 → s.isActive = false → s.upd.sched = some a → ∃ t, exec (.sched h n 4) s = .next t ∧
      t.upd = { s.upd with sched := none }) ∧
    (∀ a, s.upd.sched = some a → a.phase = 1 → a.cycle = s.vcyc → s.isRun = true → a.slot < 4 →
      (2 ≤ a.slot → ∃ t, exec .activationCycle s = .next t ∧ t.opState = 10 ∧ t.boot.parkFor = 3 ∧ (t.slot a.slot).active = true ∧
        (t.slot (State.otherSlot a.slot)).active = false ∧ t.cyc.running = false) ∧
      (a.slot < 2 → s.isTwin = false ∨ s.role = 3 → ∃ t, exec .activationCycle s = .next t ∧ t.opState = 10 ∧ t.boot.parkFor = 3 ∧
        (t.slot a.slot).trial = true ∧ (t.slot a.slot).strikes = 0) ∧
      (a.slot < 2 → s.isTwin = true → s.isActive = true → ∃ t, exec .activationCycle s = .next t ∧
        t.upd = { s.upd with sched := some { a with phase := 2, count := 0, since := s.ticks } } ∧ t.fld Fld.UPD_ACT_PHASE = 2 ∧
          t.opState = s.opState)) ∧
    (∀ a, s.upd.sched = some a → a.phase = 2 → s.isActive = true → 100 ≤ s.twin.standbyRun → s.ringsShared = true → s.isTwin = true →
      (s.swapCode (s.vcyc + 10) true = 0 → ∃ t, exec .activationSwap s = .next t ∧
        t.upd.sched = some { a with phase := 3, count := 0, since := s.ticks } ∧ t.flag Fld.TWIN_SWAP_ARMED = true ∧ t.reg Reg.TWIN_SWAPCYC = s.vcyc + 10) ∧
      (s.swapCode (s.vcyc + 10) true ≠ 0 → ∃ t, exec .activationSwap s = .next t ∧ t.upd.sched = none ∧
        t.fld Fld.TWIN_SWAP_REF = s.swapCode (s.vcyc + 10) true)) ∧
    (s.opState ≠ 0 → s.trialSlot.isSome = true → s.boot.released + 3000000000 ≤ s.ticks → ∃ t, exec .trialTimeout s = .next t ∧
      t.opState = 0 ∧ t.boot.cause = 5 ∧
      t.nv.slots = s.nv.slots) ∧
    ∀ a, s.opState ≠ 0 → s.trialSlot = none → s.upd.sched = some a → a.phase = 2 → s.isActive = true → s.partnerStandby = false →
      a.since + 3000000000 ≤ s.ticks → ∃ t, exec .trialTimeout s = .next t ∧ t.upd = { s.upd with sched := none } ∧ t.opState = s.opState)

/-- What service firmware writes (R14, R17, R331, R334 to R337, R413): a word of a memory is stored, a performance counter, one RW field,
takes the value, a register whose lock is closed keeps its own and the page names the error, an offset without a register is an error; a 1
clears an event, a set by hardware in the same update wins; EVTEN and EVTSET; STATCLR returns the statistics of a page to reset, but a field
that hardware updates at once keeps its value and sets AGAIN; the key opens a page's lock, and 100 ms close it. Bank modes and queues as
service firmware writes them (R320, R329, R401): RET and OFF are honoured for a bank of a pea that stays OUT, whose data SRAM is lost with
OFF, and nowhere else; the READY head of a queue is consumed by its number. (Log entry 47.) -/
def Obligations.RegisterWrites : Prop :=
  (∀ (s : State) (c : Fin 4), s.firmwareRuns = true →
    let evt := fun (t : State) (p : Byte) (b : Nat) => t.flag ⟨regAddr p.toNat 0x14, b, b⟩
    let own := fun (p : Byte) (b : Nat) => b < eventBits p.toNat ∧ (p.toNat ≠ Page.EVR ∨ b ≠ Evt.EVR_DROP)
    (∀ (a v : Word) b, State.memBank a.toNat = some b → s.fld (Fld.MEM_BANKb_MODE b) = 0 → ∃ t, exec (.registerWrite c a v) s = .next t ∧
      t = { s with mem := t.mem } ∧ ∀ x, Store.get (fun _ => 0) t.mem x = if x / 4 = a.toNat / 4 then
        BitVec.ofNat 8 (v.toNat / 2 ^ (8 * (x % 4))) else Store.get (fun _ => 0) s.mem x) ∧
    (∀ (p k : Nat) (v : Word), p < 3 → k < 8 → ∃ t, exec (.registerWrite c (w32 (State.cntField p k).addr) v) s = .next t ∧
      t.fld (State.cntField p k) = v.toNat ∧ t.mem = s.mem ∧ t.com = s.com ∧ t.pod = s.pod) ∧
    (∀ v : Word, v ≠ 0 → ∃ t, exec (.registerWrite c (w32 Reg.PMON_SEED) v) s = .next t ∧
      (s.lockOpen Page.PMON = true → t.reg Reg.PMON_SEED = v) ∧
      (s.lockOpen Page.PMON = false → t.reg Reg.PMON_SEED = s.reg Reg.PMON_SEED ∧ t.reg (regAddr Page.PMON 0x2C) = 0xB000004C)) ∧
    (∀ (a v : Word), inPages a.toNat = true → pageListed (pageOf a.toNat) = true → isReg a.toNat = false →
      vitalPage (pageOf a.toNat) = false → exec (.registerWrite c a v) s = .next (s.errAddr (pageOf a.toNat) 2 (offOf a.toNat))) ∧
    (∀ (p : Byte) (k hw : Word), pageListed p.toNat = true → ∃ t, exec (.evtClear c p k hw) s = .next t ∧ ∀ b, own p b →
      evt t p b = (hw.toNat.testBit b || (evt s p b && !k.toNat.testBit b))) ∧
    (∀ (p : Byte) (v : Word), pageListed p.toNat = true → ∃ t, exec (.evtsetWrite c p v) s = .next t ∧ ∀ b, own p b →
      evt t p b = (evt s p b || v.toNat.testBit b)) ∧
    (∀ (p : Byte) (v : Word), pageListed p.toNat = true → ∃ t, exec (.evtenWrite c p v) s = .next t ∧ ∀ b, b < eventBits p.toNat →
      t.flag ⟨regAddr p.toNat 0x18, b, b⟩ = v.toNat.testBit b) ∧
    (∀ p : Byte, ∃ t, exec (.statclr c p []) s = .next t ∧ t = { s with regs := t.regs, ive := t.ive } ∧
      (∀ f ∈ State.clearList p.toNat, t.fld f = bitsOf f.hi f.lo (resetOf f.addr).toNat) ∧
      (p.toNat = Page.IVE → t.ive = { s.ive with busyMax := 0, checkMax := 0, checkKind := 0 })) ∧
    (∀ (p : Byte), ∀ f ∈ State.clearList p.toNat, ∃ t, exec (.statclr c p [(f.addr, f.hi, f.lo)]) s = .next t ∧ t.fld f = s.fld f ∧
      t.flag ⟨regAddr p.toNat 0x10, 31, 31⟩ = true) ∧
    (∀ (p : Byte) (v : Word), pageListed p.toNat = true → ∃ t, exec (.pageLock c p v) s = .next t ∧
      t = { s with regs := t.regs, clock := t.clock } ∧ Store.get (fun _ => 0) t.clock.lockAt p.toNat = s.now ∧
      t.lockOpen p.toNat = (bitsOf 23 16 v.toNat = 0xA5 && bitsOf 7 0 v.toNat = p.toNat)) ∧
    (∀ p : Byte, pageListed p.toNat = true → Store.get (fun _ => 0) s.clock.lockAt p.toNat + 100000000 ≤ s.now →
      ∃ t, exec (.pageLockTimeout p) s = .next t ∧ t = { s with regs := t.regs } ∧
      t.lockOpen p.toNat = false) ∧
    (∀ (i : Fin 8) (v : Word), s.lockOpen Page.CAL = true → within16 v.toNat (calBound i) = true → ∃ t,
      exec (.calUserWrite c i v) s = .next t ∧ Store.get (fun _ => 0) t.nv.userCal i = w32 (v.toNat % 65536) ∧
      t.fld Fld.CAL_STAT_PENDING = 1 ∧ ∀ j, j ≠ (i : Nat) → Store.get (fun _ => 0) t.nv.userCal j = Store.get (fun _ => 0) s.nv.userCal j) ∧
    (∃ t, exec (.calClear c) s = .next t ∧ t.nv.userCal = [] ∧ t.fld Fld.CAL_STAT_PENDING = 1 ∧ ∀ i, i < 8 → t.reg (Reg.CAL_USERi i) = 0)) ∧
  (∀ (s : State) (c : Fin 4), s.firmwareRuns = true →
    (∀ (b : Fin 16) (m : BitVec 2), m.toNat = 1 ∨ m.toNat = 2 →
      let ok := 3 ≤ b.val ∧ b.val ≤ 8 ∧ (s.pea (State.bankPea b)).phase = .stayOut ∧ s.peaState (State.bankPea b) = 5
      ∃ t, exec (.bankModeWrite c b m) s = .next t ∧
        (ok → t.fld (Fld.MEM_BANKb_MODE b) = m.toNat ∧ (m.toNat = 2 → b.val ≤ 5 → (t.pea (State.bankPea b)).sram = [])) ∧
        (¬ ok → t = s.errAddr Page.MEM 5 (0x100 + 4 * b))) ∧
    ∀ (q : Fin 64) (seq : Word) e rest, (s.queue q).entries = e :: rest → e.seq = seq →
      (e.ready = true → ∃ t, exec (.queConsumeWrite c q seq) s = .next t ∧ (t.queue q).entries = rest ∧
        ∀ r, r ≠ (q : Nat) → t.queue r = s.queue r) ∧
      (e.ready = false → ∃ t, exec (.queConsumeWrite c q seq) s = .next t ∧ t.queues = s.queues ∧
        t.flag ⟨regAddr Page.QUE 0x14, Evt.QUE_STALE, Evt.QUE_STALE⟩ = true))

/-- Interrupt sources (R341 to R344, R346): a ring makes an IDLE source PENDING and a CLAIMED one CLAIMED_PENDING, one that is routed to an
event ring enters its entry there and stays IDLE; a withdrawal makes a PENDING one IDLE; a claim gives the best deliverable source, or is
spurious; a completion by its target returns a source to IDLE or PENDING, presented again at once if it is deliverable, and any other one
changes no source but that of its own event. -/
def Obligations.Interrupts : Prop :=
  ∀ (s : State) (c : Fin 4), s.firmwareRuns = true →
    let st := fun (t : State) (n : Nat) => t.fld (Fld.IRQ_SRCn_STATE n)
    (∀ n : BitVec 10, reservedSource n.toNat = false → (s.irqRoute n.toNat).1 < 4 → ∃ t, exec (.doorbellRing c n) s = .next t ∧
      (st s n.toNat = 0 → st t n.toNat = 1) ∧ (st s n.toNat = 2 → st t n.toNat = 3) ∧ (st s n.toNat = 1 → st t n.toNat = 1) ∧
      (∀ k, k ≠ n.toNat → k < 256 → st t k = st s k) ∧ t = { s with regs := t.regs, irqLive := t.irqLive }) ∧
    (∀ n : BitVec 10, reservedSource n.toNat = false → 4 ≤ (s.irqRoute n.toNat).1 → s.fld (Fld.IRQ_SRCn_MASK n.toNat) = 0 →
      st s n.toNat = 0 → ∃ t, exec (.doorbellRing c n) s = .next t ∧ st t n.toNat = 0 ∧
        ∃ w ∈ t.windows, w.session = (s.irqRoute n.toNat).1 - 4 ∧ w.kind = 1 ∧ w.source = w32 n.toNat) ∧
    (∀ n : BitVec 10, reservedSource n.toNat = false → ∃ t, exec (.doorbellWithdraw c n) s = .next t ∧
      (st s n.toNat = 1 → st t n.toNat = 0 ∧ t = { s with regs := t.regs, irqLive := t.irqLive }) ∧ (st s n.toNat ≠ 1 → t = s)) ∧
    (∀ n, s.bestSource c = some n → s.deliverable c n = true ∧ ∃ t, exec (.irqClaim c) s = .next t ∧ st t n = 2 ∧
      t.reg (Reg.IRQ_CLAIMEDc c) = w32 (2 ^ 31 + n)) ∧
    (s.bestSource c = none → ∃ t, exec (.irqClaim c) s = .next t ∧ t.reg (Reg.IRQ_CLAIMEDc c) = w32 (2 ^ 31 + 0x3FF) ∧
      t.fld Fld.IRQ_SPURCNT_SPUR = min (s.fld Fld.IRQ_SPURCNT_SPUR + 1) (2 ^ 32 - 1)) ∧
    ∀ n : BitVec 10,
      (n.toNat < 256 → (s.irqRoute n.toNat).1 = c → 2 ≤ st s n.toNat → ∃ t, exec (.irqDone c n) s = .next t ∧
        st t n.toNat = st s n.toNat - 2 ∧ (t.deliverable c n.toNat = true → (t.bestSource c).isSome = true) ∧
        t = { s with regs := t.regs, irqLive := t.irqLive }) ∧
      (255 < n.toNat ∨ (s.irqRoute n.toNat).1 ≠ c ∨ st s n.toNat < 2 → ∃ t, exec (.irqDone c n) s = .next t ∧
        bitsOf 31 28 (t.reg (regAddr Page.IRQ 0x2C)).toNat = 8 + 5 ∧
        t.flag ⟨regAddr Page.IRQ 0x14, Evt.IRQ_BADDONE, Evt.IRQ_BADDONE⟩ = true ∧
        ∀ k, k < 256 → k ≠ State.irqBase Page.IRQ + Evt.IRQ_BADDONE → st t k = st s k)

/-- The check-value engines and the performance monitor (R355, R356, R382 to R384): GO starts a run with the configuration of the moment,
which ends with the check value over memory as it then stands; SNAP copies the pod counters, and the periodic snapshot also fills Q59; a
sample that is done goes to its pea's queue. The recorder and the bridge (R354, R362, R364, R365, R368, R370, R376): the oldest staged
record is written to the circulating area; losses are reported once, in a record that is not dropped; the end of an erase leaves the
REC_CLEARED record and what follows it; service firmware raises records of its own code; a reset of the bridge's path drops the writes
that cross it, and a fault of the bridge is such a reset. (Log entries 33, 46, 47 and 53.) -/
def Obligations.EnginesRecorderAndBridge : Prop :=
  (∀ (s : State) (c e : Fin 4), s.firmwareRuns = true →
    (s.flag (Fld.CRC_RESSTe_BUSY e) = false → ∃ t r, exec (.crcGo c e) s = .next t ∧ t = { s with regs := t.regs, crcRuns := t.crcRuns } ∧
      t.flag (Fld.CRC_RESSTe_BUSY e) = true ∧ r ∈ t.crcRuns ∧ r.engine = e ∧ r.src = (s.reg (Reg.CRC_SRCe e)).toNat ∧
      r.len = s.fld (Fld.CRC_LENe_LEN e) ∧ r.width = s.fld (Fld.CRC_CFGe_WIDTH e)) ∧
    (∀ r, s.crcRuns = [r] → r.engine = e → ∃ t, exec (.crcRunEnd e) s = .next t ∧ t.crcRuns = [] ∧ t.flag (Fld.CRC_RESSTe_BUSY e) = false ∧
      t.mem = s.mem ∧
      (State.crcRange r.src r.len = true → t.reg (Reg.CRC_RESLOe e) = w32 (s.crcValue r) ∧
        t.reg (Reg.CRC_RESHIe e) = w32 (s.crcValue r / 2 ^ 32) ∧ t.reg (Reg.CRC_RESSTe e) = 0x80000000) ∧
      (State.crcRange r.src r.len = false → t.reg (Reg.CRC_RESSTe e) = 0x40000000)) ∧
    (∃ t, exec (.snap c) s = .next t ∧ t.reg Reg.PMON_SNAPCYC = s.vcyc ∧ t.queues = s.queues ∧
      ∀ i, i < 64 → t.reg (Reg.PMON_PODSNAPi i) = s.reg (Reg.PMON_PODi i)) ∧
    (s.fld Fld.PMON_SNAPPER_PERIOD ≠ 0 → s.fld Fld.PMON_SNAPPER_PERIOD ≤ (s.vcyc - s.pmon.snapAt).toNat → s.used 59 + 6 ≤ 1024 → ∃ t,
      exec .periodicSnapshot s = .next t ∧ t.used 59 = s.used 59 + 6 ∧
      t.reg Reg.PMON_SNAPCYC = s.vcyc ∧ ∀ i, i < 64 → t.reg (Reg.PMON_PODSNAPi i) = s.reg (Reg.PMON_PODi i)) ∧
    (∀ (p : PeaId) z, s.pmon.samples.getD (peaNum p) none = some z → State.sampleDone z = true → s.used (56 + peaNum p) < 1024 → ∃ t,
      exec (.sampleClose p) s = .next t ∧ t.used (56 + peaNum p) = s.used (56 + peaNum p) + 1 ∧
      t.pmon.samples.getD (peaNum p) none = none ∧ t.reg Reg.PMON_SAMPCNT = s.reg Reg.PMON_SAMPCNT + 1)) ∧
  (∀ s : State,
    (∀ x rest, s.evr.staging = x :: rest → x.rootFlag = false → x.code ≠ 0x0903 → x.code ≠ 0x0901 → ∃ t,
      exec (.recorderWrite 1) s = .next t ∧ (∃ more : List Rec, t.evr.staging = rest ++ more ∧ ∀ r ∈ more, r.code = 0x0F01) ∧
      t.nv = { s.nv with recorder := { State.circPut s.nv.recorder x with nextSeq := t.nv.recorder.nextSeq } } ∧
      t.com = s.com ∧ t.pod = s.pod) ∧
    (s.evr.loss = none → exec .recordsLostReport s = .next s) ∧
    (∀ l, s.evr.loss = some l → ∃ t r, exec .recordsLostReport s = .next t ∧ t.evr.loss = none ∧ t.evr.staging = s.evr.staging ++ [r] ∧
      r.code = 0x0902 ∧ r.count = w32 (l.c0 + l.c1 + l.c2 + l.c3) ∧ r.rseq = s.nv.recorder.nextSeq) ∧
    (∀ q, s.evr.clearing = some q → s.nv.recorder.circ.any (fun e => e.2.rseq = q) = true → ∃ t, exec .recorderEraseEnd s = .next t ∧
      t.evr.clearing = none ∧ t.flag Fld.EVR_STAT_CLEARING = false ∧ t.nv.recorder.root = s.nv.recorder.root ∧
      ∀ e, e ∈ t.nv.recorder.circ ↔ e ∈ s.nv.recorder.circ ∧ (e.2.rseq = q ∨ later e.2.rseq q = true)) ∧
    (∀ (c : Fin 4) src body, s.firmwareRuns = true → s.evr.staging.length < 1024 → ∃ t r, exec (.firmwareRecord c src body) s = .next t ∧
      t.evr.staging = s.evr.staging ++ [r] ∧ r.code = 0x0F02 ∧ r.source = src ∧ r.body = body.take 7 ∧ r.rseq = s.nv.recorder.nextSeq ∧
      t.nv.recorder.nextSeq = s.nv.recorder.nextSeq + 1) ∧
    (∃ t, exec .bridgePathReset s = .next t ∧ t.posted = s.posted.filter (fun w => !State.crosses w) ∧
      t.flag ⟨regAddr Page.BRG 0x14, Evt.BRG_PATHRESET, Evt.BRG_PATHRESET⟩ = true ∧ t.com = s.com ∧ t.pod = s.pod ∧
      exec (.codeViolation .bridge) s = .next t ∧ exec (.stallTimeout .bridge) s = .next t))
end

