-- ==== Sys2Proof/Laws/Store.lean ====
section
/-! SUPPORT. The laws of sparse stores: reading back a write, what a write leaves alone, and the canonical form. -/

namespace Sys2Proof.Machine.Store

variable {α : Type}

@[simp] theorem get_nil (d : Nat → α) (k : Nat) : get d [] k = d k := rfl

theorem get_insert (d : Nat → α) (m : Store α) (k : Nat) (v : α) (i : Nat) (h : ∀ e ∈ m, e.1 ≠ k) :
    get d (insert m k v) i = if i = k then v else get d m i := by
  induction m with
  | nil => simp [insert, get, eq_comm]
  | cons e rest ih =>
    obtain ⟨j, u⟩ := e
    have hj : j ≠ k := h (j, u) (by simp)
    have hr := ih fun e he => h e (by simp [he])
    by_cases hk : k < j
    · simp only [insert, hk, if_true, get]
      by_cases hi : i = k
      · simp [hi]
      · simp [hi, Ne.symm hi]
    · simp only [insert, hk, if_false, get, hr]
      by_cases hi : i = k
      · subst hi; simp [hj]
      · simp [hi]

theorem get_filter (d : Nat → α) (m : Store α) (k i : Nat) :
    get d (m.filter fun e => e.1 != k) i = if i = k then d k else get d m i := by
  induction m with
  | nil => by_cases h : i = k <;> simp [h]
  | cons e rest ih =>
    obtain ⟨j, u⟩ := e
    by_cases hj : j = k
    · subst hj
      simp only [bne_self_eq_false, Bool.false_eq_true, not_false_eq_true, List.filter_cons_of_neg, ih, get]
      by_cases hi : i = j
      · simp [hi]
      · simp [hi, Ne.symm hi]
    · have hb : (j != k) = true := by simp [hj]
      simp only [List.filter_cons_of_pos, hb, get, ih]
      by_cases hi : i = k
      · subst hi; simp [hj]
      · simp [hi]

/-- A write is read back, and every other key reads as before. -/
theorem get_set [DecidableEq α] (d : Nat → α) (m : Store α) (k : Nat) (v : α) (i : Nat) :
    get d (set d m k v) i = if i = k then v else get d m i := by
  unfold set
  by_cases hv : v = d k
  · simp only [hv, if_true, get_filter]
  · simp only [hv, if_false]
    rw [get_insert]
    · by_cases hi : i = k
      · simp [hi]
      · simp [hi, get_filter]
    · intro e he
      simpa using (List.mem_filter.mp he).2

@[simp] theorem get_set_same [DecidableEq α] (d : Nat → α) (m : Store α) (k : Nat) (v : α) : get d (set d m k v) k = v := by
  simp [get_set]

theorem get_set_ne [DecidableEq α] (d : Nat → α) (m : Store α) (k : Nat) (v : α) (i : Nat) (h : i ≠ k) :
    get d (set d m k v) i = get d m i := by
  simp [get_set, h]

/-! ### The canonical form -/

theorem wfFrom_mono [DecidableEq α] (d : Nat → α) (m : Store α) (a b : Nat) (hab : a ≤ b) (h : wfFrom d b m = true) :
    wfFrom d a m = true := by
  cases m with
  | nil => rfl
  | cons e rest =>
    obtain ⟨j, u⟩ := e
    simp only [wfFrom, Bool.and_eq_true, decide_eq_true_eq] at h ⊢
    exact ⟨⟨by omega, h.1.2⟩, h.2⟩

theorem wfFrom_filter [DecidableEq α] (d : Nat → α) (p : Nat × α → Bool) (m : Store α) (a : Nat) (h : wfFrom d a m = true) :
    wfFrom d a (m.filter p) = true := by
  induction m generalizing a with
  | nil => rfl
  | cons e rest ih =>
    obtain ⟨j, u⟩ := e
    simp only [wfFrom, Bool.and_eq_true, decide_eq_true_eq] at h
    by_cases hp : p (j, u) = true
    · simp only [List.filter_cons_of_pos hp, wfFrom, Bool.and_eq_true, decide_eq_true_eq]
      exact ⟨h.1, ih _ h.2⟩
    · rw [List.filter_cons_of_neg hp]
      exact wfFrom_mono d _ a (j + 1) (by omega) (ih _ h.2)

theorem wfFrom_insert [DecidableEq α] (d : Nat → α) (m : Store α) (k : Nat) (v : α) (a : Nat) (h : wfFrom d a m = true)
    (ha : a ≤ k) (hv : v ≠ d k) (hk : ∀ e ∈ m, e.1 ≠ k) : wfFrom d a (insert m k v) = true := by
  induction m generalizing a with
  | nil => simp [insert, wfFrom, ha, hv]
  | cons e rest ih =>
    obtain ⟨j, u⟩ := e
    have hj : j ≠ k := hk (j, u) (by simp)
    simp only [wfFrom, Bool.and_eq_true, decide_eq_true_eq] at h
    by_cases hlt : k < j
    · simp only [insert, hlt, if_true, wfFrom, Bool.and_eq_true, decide_eq_true_eq]
      exact ⟨⟨ha, hv⟩, ⟨by omega, h.1.2⟩, h.2⟩
    · simp only [insert, hlt, if_false, wfFrom, Bool.and_eq_true, decide_eq_true_eq]
      exact ⟨h.1, ih _ h.2 (by omega) fun e he => hk e (by simp [he])⟩

/-- A write keeps the canonical form. -/
theorem wf_set [DecidableEq α] (d : Nat → α) (m : Store α) (k : Nat) (v : α) (h : wf d m = true) : wf d (set d m k v) = true := by
  unfold set
  by_cases hv : v = d k
  · simp only [hv, if_true]
    exact wfFrom_filter d _ m 0 h
  · simp only [hv, if_false]
    refine wfFrom_insert d _ k v 0 (wfFrom_filter d _ m 0 h) (by omega) hv ?_
    intro e he
    simpa using (List.mem_filter.mp he).2

/-- Dropping entries keeps the canonical form. -/
theorem wf_filter [DecidableEq α] (d : Nat → α) (p : Nat × α → Bool) (m : Store α) (h : wf d m = true) :
    wf d (m.filter p) = true := wfFrom_filter d p m 0 h

end Sys2Proof.Machine.Store
end

