-- ==== Sys2Proof/Laws/Regs.lean ====
section
/-! SUPPORT. The laws of registers and fields, and what raising an event, ringing a source, counting and recording leave alone. -/

namespace Sys2Proof.Machine

/-! ### Bit fields -/

theorem putBits_eq (hi lo v x : Nat) (h : lo ≤ hi) :
    putBits hi lo v x = 2 ^ (hi + 1) * (v / 2 ^ (hi + 1)) + (2 ^ lo * (x % 2 ^ (hi - lo + 1)) + v % 2 ^ lo) := by
  unfold putBits bitsOf
  have e : 2 ^ (hi + 1) = 2 ^ lo * 2 ^ (hi - lo + 1) := by rw [← Nat.pow_add]; congr 1; omega
  have hv : v = 2 ^ lo * (2 ^ (hi - lo + 1) * (v / 2 ^ (hi + 1)) + v / 2 ^ lo % 2 ^ (hi - lo + 1)) + v % 2 ^ lo := by
    rw [e, ← Nat.div_div_eq_div_mul, Nat.div_add_mod, Nat.div_add_mod]
  rw [e] at hv ⊢
  generalize v / 2 ^ lo % 2 ^ (hi - lo + 1) = f at *
  generalize v / (2 ^ lo * 2 ^ (hi - lo + 1)) = a at *
  generalize v % 2 ^ lo = b at *
  generalize x % 2 ^ (hi - lo + 1) = y at *
  generalize 2 ^ lo = l at *
  generalize 2 ^ (hi - lo + 1) = m at *
  subst hv
  have : l * (m * a + f) + b - f * l = l * m * a + b := by
    rw [Nat.mul_add, Nat.mul_comm f l, ← Nat.mul_assoc]; omega
  rw [this, Nat.mul_comm y l]; omega

theorem testBit_putBits (hi lo v x i : Nat) (h : lo ≤ hi) :
    (putBits hi lo v x).testBit i = if lo ≤ i ∧ i ≤ hi then x.testBit (i - lo) else v.testBit i := by
  have hb : v % 2 ^ lo < 2 ^ lo := Nat.mod_lt _ (Nat.two_pow_pos lo)
  have hk : x % 2 ^ (hi - lo + 1) < 2 ^ (hi - lo + 1) := Nat.mod_lt _ (Nat.two_pow_pos _)
  have hl : 2 ^ lo * (x % 2 ^ (hi - lo + 1)) + v % 2 ^ lo < 2 ^ (hi + 1) := by
    have e : 2 ^ (hi + 1) = 2 ^ lo * 2 ^ (hi - lo + 1) := by rw [← Nat.pow_add]; congr 1; omega
    rw [e]
    calc _ < 2 ^ lo * (x % 2 ^ (hi - lo + 1)) + 2 ^ lo := by omega
      _ = 2 ^ lo * (x % 2 ^ (hi - lo + 1) + 1) := by rw [Nat.mul_add, Nat.mul_one]
      _ ≤ _ := Nat.mul_le_mul_left _ hk
  rw [putBits_eq hi lo v x h, Nat.testBit_two_pow_mul_add _ hl]
  by_cases h1 : i < hi + 1
  · rw [if_pos h1, Nat.testBit_two_pow_mul_add _ hb]
    by_cases h2 : i < lo
    · rw [if_pos h2, if_neg (by omega), Nat.testBit_mod_two_pow]; simp [h2]
    · rw [if_neg h2, if_pos ⟨by omega, by omega⟩, Nat.testBit_mod_two_pow]
      simp; omega
  · rw [if_neg h1, if_neg (by omega), Nat.testBit_div_two_pow]
    congr 1; omega

theorem testBit_bitsOf (hi lo v i : Nat) : (bitsOf hi lo v).testBit i = (decide (i ≤ hi - lo) && v.testBit (lo + i)) := by
  unfold bitsOf
  rw [Nat.testBit_mod_two_pow, Nat.testBit_div_two_pow, Nat.add_comm i lo]
  congr 1; simp

theorem bitsOf_w32 (hi lo n : Nat) (h : lo ≤ hi) (hh : hi < 32) : bitsOf hi lo (w32 n).toNat = bitsOf hi lo n := by
  apply Nat.eq_of_testBit_eq
  intro i
  simp only [testBit_bitsOf, w32, BitVec.toNat_ofNat, Nat.testBit_mod_two_pow]
  by_cases hi' : i ≤ hi - lo
  · simp [hi']
    omega
  · simp [hi']

theorem bitsOf_putBits_same (hi lo v x : Nat) (h : lo ≤ hi) : bitsOf hi lo (putBits hi lo v x) = x % 2 ^ (hi - lo + 1) := by
  apply Nat.eq_of_testBit_eq
  intro i
  rw [testBit_bitsOf, testBit_putBits _ _ _ _ _ h, Nat.testBit_mod_two_pow]
  by_cases h1 : i ≤ hi - lo
  · have : lo ≤ lo + i ∧ lo + i ≤ hi := by omega
    simp [h1, this]
  · simp [h1]

theorem bitsOf_putBits_disj (h1 l1 h2 l2 v x : Nat) (e1 : l1 ≤ h1) (e2 : l2 ≤ h2) (h : h1 < l2 ∨ h2 < l1) :
    bitsOf h2 l2 (putBits h1 l1 v x) = bitsOf h2 l2 v := by
  apply Nat.eq_of_testBit_eq
  intro i
  rw [testBit_bitsOf, testBit_bitsOf, testBit_putBits _ _ _ _ _ e1]
  by_cases h3 : i ≤ h2 - l2
  · have : ¬ (l1 ≤ l2 + i ∧ l2 + i ≤ h1) := by omega
    simp [h3, this]
  · simp [h3]

/-! ### Registers -/

namespace State

variable (s : State)

theorem reg_setReg (a b : Nat) (v : Word) : (s.setReg a v).reg b = if b = a then v else s.reg b := by
  simp only [reg, setReg, Store.get_set]

@[simp] theorem reg_setReg_same (a : Nat) (v : Word) : (s.setReg a v).reg a = v := by simp [reg_setReg]

@[simp] theorem reg_setReg_ne (a b : Nat) (v : Word) (h : b ≠ a) : (s.setReg a v).reg b = s.reg b := by simp [reg_setReg, h]

@[simp] theorem reg_setFld_ne (f : Field) (b v : Nat) (h : b ≠ f.addr) : (s.setFld f v).reg b = s.reg b := by
  simp [setFld, h]

@[simp] theorem fld_setReg_ne (f : Field) (a : Nat) (v : Word) (h : f.addr ≠ a) : (s.setReg a v).fld f = s.fld f := by
  simp [fld, h]

theorem fld_setReg_same (f : Field) (v : Word) : (s.setReg f.addr v).fld f = bitsOf f.hi f.lo v.toNat := by
  simp [fld]

theorem fld_setFld_same (f : Field) (v : Nat) (h : f.lo ≤ f.hi) (hh : f.hi < 32) :
    (s.setFld f v).fld f = v % 2 ^ (f.hi - f.lo + 1) := by
  simp only [fld, setFld, reg_setReg_same]
  rw [bitsOf_w32 _ _ _ h hh, bitsOf_putBits_same _ _ _ _ h]

@[simp] theorem fld_setFld_ne (f g : Field) (v : Nat) (h : g.addr ≠ f.addr) : (s.setFld f v).fld g = s.fld g := by
  simp [fld, setFld, h]

theorem fld_setFld_disj (f g : Field) (v : Nat) (e1 : f.lo ≤ f.hi) (e2 : g.lo ≤ g.hi) (hh : g.hi < 32)
    (h : f.hi < g.lo ∨ g.hi < f.lo) : (s.setFld f v).fld g = s.fld g := by
  by_cases ha : g.addr = f.addr
  · simp only [fld, setFld, ha, reg_setReg_same]
    rw [bitsOf_w32 _ _ _ e2 hh, bitsOf_putBits_disj _ _ _ _ _ _ e1 e2 h]
  · exact fld_setFld_ne s f g v ha

/-! ### What ringing, raising, counting and recording touch -/

end State

theorem quiet_iff (a : Nat) :
    quiet a = true ↔ (a < 0x40040000 ∨ (0x40049000 ≤ a ∧ a / 0x1000 ≠ 0x4004A)) ∧ a % 0x1000 ≠ 0x14 := by
  simp [quiet]

theorem irqBase_le (page : Nat) : State.irqBase page ≤ 0x100 := by
  unfold State.irqBase pageInfo
  split
  · rename_i h
    split at h <;> simp_all <;> omega
  · omega

namespace State

theorem noted_refl (s : State) : noted s s := ⟨rfl, fun _ _ => rfl⟩

theorem noted_trans {s t u : State} (h : noted s t) (k : noted t u) : noted s u := by
  refine ⟨?_, fun a ha => (k.2 a ha).trans (h.2 a ha)⟩
  rw [k.1]; simp only; rw [h.1]

theorem setReg_noted (s : State) (a : Nat) (v : Word) (h : quiet a = false) : noted s (s.setReg a v) :=
  ⟨rfl, fun b hb => reg_setReg_ne s a b v (by rintro rfl; simp [h] at hb)⟩

theorem setFld_noted (s : State) (f : Field) (v : Nat) (h : quiet f.addr = false) : noted s (s.setFld f v) := setReg_noted s _ _ h

theorem irqState_noted (s : State) (n st : Nat) (h : n < 768) : noted s (s.irqState n st) := by
  refine ⟨rfl, fun a ha => ?_⟩
  have hq := (quiet_iff a).mp ha
  refine reg_setFld_ne s _ a st ?_
  simp only [Fld.IRQ_SRCn_STATE, Reg.IRQ_SRCn]
  omega

theorem offer_noted (s : State) (i c p : Nat) (w : Word) (e : EventEntry) (q : Option Word) : noted s (s.offer i c p w e q) := by
  unfold offer
  split <;> exact ⟨rfl, fun _ _ => rfl⟩

theorem raiseMax_noted (s : State) (f : Field) (n : Nat) (h : quiet f.addr = false) : noted s (s.raiseMax f n) := by
  unfold raiseMax
  split
  · exact setFld_noted s f n h
  · exact noted_refl s

theorem addSat_noted (s : State) (f : Field) (n : Nat) (h : quiet f.addr = false) : noted s (s.addSat f n) := setFld_noted s f _ h

theorem intoStaging_noted (s : State) (r : Rec) : noted s (s.intoStaging r) := by
  unfold intoStaging
  refine noted_trans ?_ (raiseMax_noted _ Fld.EVR_STAGE_MAX _ (by decide))
  exact ⟨rfl, fun _ _ => rfl⟩

theorem codeClass_le (c : Nat) : codeClass c ≤ 3 := by
  unfold codeClass
  split
  · omega
  · split
    · omega
    · split <;> omega

theorem loseStaged_noted (s : State) (r : Rec) : noted s (s.loseStaged r) := by
  unfold loseStaged
  have hl : quiet (Fld.EVR_LOSSc_LOST (codeClass r.code)).addr = false := by
    have := codeClass_le r.code
    generalize codeClass r.code = c at *
    interval_cases c <;> decide
  refine noted_trans (addSat_noted s _ 1 hl) ⟨rfl, fun _ _ => rfl⟩

theorem irqRecord_noted (s : State) (n i : Nat) : noted s (s.irqRecord n i) := by
  unfold irqRecord
  simp only
  split
  · exact intoStaging_noted s _
  · exact noted_trans (loseStaged_noted s _) (noted_trans (setFld_noted _ _ _ (by decide)) (setFld_noted _ _ _ (by decide)))

theorem irqToRing_noted (s : State) (n : Nat) (h : n < 768) : noted s (s.irqToRing n) := by
  unfold irqToRing
  simp only
  split
  · exact noted_trans (irqState_noted s n 0 h) (noted_trans (irqRecord_noted _ _ _) (offer_noted _ _ _ _ _ _ _))
  · exact noted_refl s

theorem ringSource_noted (s : State) (n : Nat) (h : n < 768) : noted s (s.ringSource n) := by
  unfold ringSource
  have h0 : noted s (s.addSat Fld.IRQ_RINGCNT_RINGS 1) := setFld_noted s _ _ (by decide)
  simp only
  split
  · exact noted_trans h0 (noted_trans (irqState_noted _ n 1 h) (irqToRing_noted _ n h))
  · exact noted_trans h0 (irqState_noted _ n 3 h)
  · exact h0

theorem raiseEvt_noted (s : State) (page b : Nat) (h : b < 512) : noted s (s.raiseEvt page b) := by
  have h0 : noted s (s.setFld ⟨regAddr page 0x14, b, b⟩ 1) := setFld_noted s _ _ (by
    rw [Bool.eq_false_iff, Ne, quiet_iff]
    simp only [regAddr]
    omega)
  unfold raiseEvt
  simp only
  split
  · exact noted_trans h0 (ringSource_noted _ _ (by have := irqBase_le page; omega))
  · exact h0

theorem podCount_noted (s : State) (i n : Nat) (h : i < 64) : noted s (s.podCount i n) := by
  have h0 : noted s (s.setFld (Fld.PMON_PODi_COUNT i) (s.fld (Fld.PMON_PODi_COUNT i) + n)) := setFld_noted s _ _ (by
    rw [Bool.eq_false_iff, Ne, quiet_iff]
    simp only [Fld.PMON_PODi_COUNT, Reg.PMON_PODi]
    omega)
  unfold podCount
  simp only
  split
  · exact h0
  · exact noted_trans h0 (raiseEvt_noted _ _ _ (by decide))

theorem stage_noted (s : State) (r : Rec) : noted s (s.stage r) := by
  unfold stage
  split
  · exact intoStaging_noted s r
  · exact noted_trans (loseStaged_noted s r)
      (noted_trans (podCount_noted _ 62 1 (by decide)) (raiseEvt_noted _ Page.EVR Evt.EVR_DROP (by decide)))

theorem raiseRecTo_noted (s : State) (code page : Nat) (w : Word) (body : List Word) (dest : Option Nat) :
    noted s (s.raiseRecTo code page w body dest) := by
  unfold raiseRecTo
  simp only
  split
  · exact stage_noted s _
  · split
    · exact noted_trans (addSat_noted s Fld.BRG_VTSDROP_DROP 1 (by decide))
        (noted_trans (podCount_noted _ 62 1 (by decide)) (raiseEvt_noted _ Page.BRG Evt.BRG_VTSFULL (by decide)))
    · exact noted_trans (addSat_noted s Fld.BRG_VTS_NOW 1 (by decide))
        (noted_trans (raiseMax_noted _ Fld.BRG_VTS_MAX _ (by decide)) (stage_noted _ _))

theorem raiseRec_noted (s : State) (code page : Nat) (w : Word) (body : List Word) : noted s (s.raiseRec code page w body) :=
  raiseRecTo_noted s code page w body none

theorem recordUnlisted_noted (s : State) (page event : Nat) (w : Word) (body : List Word) : noted s (s.recordUnlisted page event w body) :=
  raiseRec_noted s _ page w body

theorem cntAdd_noted (p : Nat) (hp : p < 3) (fuel : Nat) : ∀ (s : State) (i n : Nat), i < 8 → noted s (s.cntAdd p fuel i n) := by
  have hq : ∀ a, 0x4004A110 ≤ a → a < 0x4004A290 → quiet a = false := by
    intro a h1 h2
    rw [Bool.eq_false_iff, Ne, quiet_iff]
    omega
  induction fuel with
  | zero => intro s i n _; exact noted_refl s
  | succ k ih =>
    intro s i n hi
    have h0 := setFld_noted s (cntField p i) (s.fld (cntField p i) + n) (hq _ (by simp only [cntField, regAddr, Page.PMON]; omega)
      (by simp only [cntField, regAddr, Page.PMON]; omega))
    unfold cntAdd
    simp only
    split
    · exact h0
    · have h1 := noted_trans h0 (setFld_noted _ (ovfField p i) 1 (hq _ (by simp only [ovfField, regAddr, Page.PMON]; omega)
        (by simp only [ovfField, regAddr, Page.PMON]; omega)))
      split
      · have h2 := noted_trans h1 (raiseEvt_noted _ Page.PMON Evt.PMON_OVF (by decide))
        split
        · rename_i hc
          exact noted_trans h2 (ih _ _ _ hc.1)
        · exact h2
      · split
        · rename_i hc
          exact noted_trans h1 (ih _ _ _ hc.1)
        · exact h1

theorem foldl_noted {β : Type} (f : State → β → State) (l : List β) (h : ∀ s x, x ∈ l → noted s (f s x)) (s : State) :
    noted s (l.foldl f s) := by
  induction l generalizing s with
  | nil => exact noted_refl s
  | cons x xs ih =>
    exact noted_trans (h s x (by simp)) (ih (fun s y hy => h s y (by simp [hy])) _)

theorem peaCount_noted (s : State) (p e n : Nat) (h : p < 3) : noted s (s.peaCount p e n) := by
  unfold peaCount
  split
  · exact noted_refl s
  · refine foldl_noted _ _ (fun s i hi => ?_) s
    split
    · exact cntAdd_noted p h 8 s i n (List.mem_range.mp hi)
    · exact noted_refl s

theorem withdrawSource_noted (s : State) (n : Nat) (h : n < 768) : noted s (s.withdrawSource n) := by
  unfold withdrawSource
  split
  · exact irqState_noted s n 0 h
  · exact noted_refl s

/-! ### Their shape, whatever the source, the event or the counter -/

/-- What may differ of what `noted` lets change, whatever the registers. -/
def shaped (s t : State) : Prop :=
  t = { s with regs := t.regs, irqLive := t.irqLive, windows := t.windows, evr := t.evr, nv := { s.nv with recorder := t.nv.recorder } }

theorem shaped_refl (s : State) : shaped s s := rfl

theorem shaped_trans {s t u : State} (h : shaped s t) (k : shaped t u) : shaped s u := by
  unfold shaped at *
  rw [k]; simp only; rw [h]

theorem irqState_shape (s : State) (n st : Nat) : shaped s (s.irqState n st) := rfl

theorem irqToRing_shape (s : State) (n : Nat) : shaped s (s.irqToRing n) := by
  unfold irqToRing
  simp only
  split
  · exact shaped_trans (irqState_shape s n 0) (shaped_trans (irqRecord_noted _ _ _).1 (offer_noted _ _ _ _ _ _ _).1)
  · rfl

theorem ringSource_shape (s : State) (n : Nat) : shaped s (s.ringSource n) := by
  unfold ringSource
  have h0 : shaped s (s.addSat Fld.IRQ_RINGCNT_RINGS 1) := rfl
  simp only
  split
  · exact shaped_trans h0 (shaped_trans (irqState_shape _ n 1) (irqToRing_shape _ n))
  · exact shaped_trans h0 (irqState_shape _ n 3)
  · exact h0

theorem withdrawSource_shape (s : State) (n : Nat) : shaped s (s.withdrawSource n) := by
  unfold withdrawSource
  split <;> rfl

theorem raiseEvt_shape (s : State) (page b : Nat) : shaped s (s.raiseEvt page b) := by
  unfold raiseEvt
  simp only
  split
  · exact shaped_trans (t := s.setFld ⟨regAddr page 0x14, b, b⟩ 1) rfl (ringSource_shape _ _)
  · rfl

theorem podCount_shape (s : State) (i n : Nat) : shaped s (s.podCount i n) := by
  unfold podCount
  simp only
  split
  · rfl
  · exact shaped_trans (t := s.setFld (Fld.PMON_PODi_COUNT i) (s.fld (Fld.PMON_PODi_COUNT i) + n)) rfl (raiseEvt_shape _ _ _)

theorem cntAdd_shape (p fuel : Nat) : ∀ (s : State) (i n : Nat), shaped s (s.cntAdd p fuel i n) := by
  induction fuel with
  | zero => intro s i n; rfl
  | succ k ih =>
    intro s i n
    unfold cntAdd
    simp only
    split
    · rfl
    · have h1 : shaped s ((s.setFld (cntField p i) (s.fld (cntField p i) + n)).setFld (ovfField p i) 1) := rfl
      split
      · split
        · exact shaped_trans h1 (shaped_trans (raiseEvt_shape _ _ _) (ih _ _ _))
        · exact shaped_trans h1 (raiseEvt_shape _ _ _)
      · split
        · exact shaped_trans h1 (ih _ _ _)
        · exact h1

theorem peaCount_shape (s : State) (p e n : Nat) : shaped s (s.peaCount p e n) := by
  unfold peaCount
  split
  · rfl
  · rename_i hg
    clear hg
    generalize List.range 8 = l
    induction l generalizing s with
    | nil => rfl
    | cons x xs ih =>
      refine shaped_trans ?_ (ih _)
      simp only
      split
      · exact cntAdd_shape p 8 s x n
      · rfl

end State

end Sys2Proof.Machine
end

