-- ==== Sys2Proof/Laws/State.lean ====
section
/-! SUPPORT. One lemma for each field of the state and each shared update: what storing in a register, ringing a source, raising an
event, counting and recording leave alone. -/

namespace Sys2Proof.Machine.State

variable (s : State)

/-! ### `setReg` -/

@[simp] theorem setReg_now (a : Nat) (v : Word) : (s.setReg a v).now = s.now := rfl
@[simp] theorem setReg_ticks (a : Nat) (v : Word) : (s.setReg a v).ticks = s.ticks := rfl
@[simp] theorem setReg_cyc (a : Nat) (v : Word) : (s.setReg a v).cyc = s.cyc := rfl
@[simp] theorem setReg_pod (a : Nat) (v : Word) : (s.setReg a v).pod = s.pod := rfl
@[simp] theorem setReg_prog (a : Nat) (v : Word) : (s.setReg a v).prog = s.prog := rfl
@[simp] theorem setReg_com (a : Nat) (v : Word) : (s.setReg a v).com = s.com := rfl
@[simp] theorem setReg_ive (a : Nat) (v : Word) : (s.setReg a v).ive = s.ive := rfl
@[simp] theorem setReg_xch (a : Nat) (v : Word) : (s.setReg a v).xch = s.xch := rfl
@[simp] theorem setReg_boot (a : Nat) (v : Word) : (s.setReg a v).boot = s.boot := rfl
@[simp] theorem setReg_pins (a : Nat) (v : Word) : (s.setReg a v).pins = s.pins := rfl
@[simp] theorem setReg_clock (a : Nat) (v : Word) : (s.setReg a v).clock = s.clock := rfl
@[simp] theorem setReg_upd (a : Nat) (v : Word) : (s.setReg a v).upd = s.upd := rfl
@[simp] theorem setReg_fio (a : Nat) (v : Word) : (s.setReg a v).fio = s.fio := rfl
@[simp] theorem setReg_sfb (a : Nat) (v : Word) : (s.setReg a v).sfb = s.sfb := rfl
@[simp] theorem setReg_lor (a : Nat) (v : Word) : (s.setReg a v).lor = s.lor := rfl
@[simp] theorem setReg_rings (a : Nat) (v : Word) : (s.setReg a v).rings = s.rings := rfl
@[simp] theorem setReg_twin (a : Nat) (v : Word) : (s.setReg a v).twin = s.twin := rfl
@[simp] theorem setReg_evr (a : Nat) (v : Word) : (s.setReg a v).evr = s.evr := rfl
@[simp] theorem setReg_queues (a : Nat) (v : Word) : (s.setReg a v).queues = s.queues := rfl
@[simp] theorem setReg_windows (a : Nat) (v : Word) : (s.setReg a v).windows = s.windows := rfl
@[simp] theorem setReg_irqLive (a : Nat) (v : Word) : (s.setReg a v).irqLive = s.irqLive := rfl
@[simp] theorem setReg_posted (a : Nat) (v : Word) : (s.setReg a v).posted = s.posted := rfl
@[simp] theorem setReg_sessions (a : Nat) (v : Word) : (s.setReg a v).sessions = s.sessions := rfl
@[simp] theorem setReg_hosts (a : Nat) (v : Word) : (s.setReg a v).hosts = s.hosts := rfl
@[simp] theorem setReg_out (a : Nat) (v : Word) : (s.setReg a v).out = s.out := rfl
@[simp] theorem setReg_crcRuns (a : Nat) (v : Word) : (s.setReg a v).crcRuns = s.crcRuns := rfl
@[simp] theorem setReg_pmon (a : Nat) (v : Word) : (s.setReg a v).pmon = s.pmon := rfl
@[simp] theorem setReg_mem (a : Nat) (v : Word) : (s.setReg a v).mem = s.mem := rfl
@[simp] theorem setReg_nv (a : Nat) (v : Word) : (s.setReg a v).nv = s.nv := rfl
@[simp] theorem setReg_pending (a : Nat) (v : Word) : (s.setReg a v).pending = s.pending := rfl

/-! ### `setFld` -/

@[simp] theorem setFld_now (f : Field) (v : Nat) : (s.setFld f v).now = s.now := rfl
@[simp] theorem setFld_ticks (f : Field) (v : Nat) : (s.setFld f v).ticks = s.ticks := rfl
@[simp] theorem setFld_cyc (f : Field) (v : Nat) : (s.setFld f v).cyc = s.cyc := rfl
@[simp] theorem setFld_pod (f : Field) (v : Nat) : (s.setFld f v).pod = s.pod := rfl
@[simp] theorem setFld_prog (f : Field) (v : Nat) : (s.setFld f v).prog = s.prog := rfl
@[simp] theorem setFld_com (f : Field) (v : Nat) : (s.setFld f v).com = s.com := rfl
@[simp] theorem setFld_ive (f : Field) (v : Nat) : (s.setFld f v).ive = s.ive := rfl
@[simp] theorem setFld_xch (f : Field) (v : Nat) : (s.setFld f v).xch = s.xch := rfl
@[simp] theorem setFld_boot (f : Field) (v : Nat) : (s.setFld f v).boot = s.boot := rfl
@[simp] theorem setFld_pins (f : Field) (v : Nat) : (s.setFld f v).pins = s.pins := rfl
@[simp] theorem setFld_clock (f : Field) (v : Nat) : (s.setFld f v).clock = s.clock := rfl
@[simp] theorem setFld_upd (f : Field) (v : Nat) : (s.setFld f v).upd = s.upd := rfl
@[simp] theorem setFld_fio (f : Field) (v : Nat) : (s.setFld f v).fio = s.fio := rfl
@[simp] theorem setFld_sfb (f : Field) (v : Nat) : (s.setFld f v).sfb = s.sfb := rfl
@[simp] theorem setFld_lor (f : Field) (v : Nat) : (s.setFld f v).lor = s.lor := rfl
@[simp] theorem setFld_rings (f : Field) (v : Nat) : (s.setFld f v).rings = s.rings := rfl
@[simp] theorem setFld_twin (f : Field) (v : Nat) : (s.setFld f v).twin = s.twin := rfl
@[simp] theorem setFld_evr (f : Field) (v : Nat) : (s.setFld f v).evr = s.evr := rfl
@[simp] theorem setFld_queues (f : Field) (v : Nat) : (s.setFld f v).queues = s.queues := rfl
@[simp] theorem setFld_windows (f : Field) (v : Nat) : (s.setFld f v).windows = s.windows := rfl
@[simp] theorem setFld_irqLive (f : Field) (v : Nat) : (s.setFld f v).irqLive = s.irqLive := rfl
@[simp] theorem setFld_posted (f : Field) (v : Nat) : (s.setFld f v).posted = s.posted := rfl
@[simp] theorem setFld_sessions (f : Field) (v : Nat) : (s.setFld f v).sessions = s.sessions := rfl
@[simp] theorem setFld_hosts (f : Field) (v : Nat) : (s.setFld f v).hosts = s.hosts := rfl
@[simp] theorem setFld_out (f : Field) (v : Nat) : (s.setFld f v).out = s.out := rfl
@[simp] theorem setFld_crcRuns (f : Field) (v : Nat) : (s.setFld f v).crcRuns = s.crcRuns := rfl
@[simp] theorem setFld_pmon (f : Field) (v : Nat) : (s.setFld f v).pmon = s.pmon := rfl
@[simp] theorem setFld_mem (f : Field) (v : Nat) : (s.setFld f v).mem = s.mem := rfl
@[simp] theorem setFld_nv (f : Field) (v : Nat) : (s.setFld f v).nv = s.nv := rfl
@[simp] theorem setFld_pending (f : Field) (v : Nat) : (s.setFld f v).pending = s.pending := rfl

/-! ### `setFlag` -/

@[simp] theorem setFlag_now (f : Field) (b : Bool) : (s.setFlag f b).now = s.now := setFld_now s f _
@[simp] theorem setFlag_ticks (f : Field) (b : Bool) : (s.setFlag f b).ticks = s.ticks := setFld_ticks s f _
@[simp] theorem setFlag_cyc (f : Field) (b : Bool) : (s.setFlag f b).cyc = s.cyc := setFld_cyc s f _
@[simp] theorem setFlag_pod (f : Field) (b : Bool) : (s.setFlag f b).pod = s.pod := setFld_pod s f _
@[simp] theorem setFlag_prog (f : Field) (b : Bool) : (s.setFlag f b).prog = s.prog := setFld_prog s f _
@[simp] theorem setFlag_com (f : Field) (b : Bool) : (s.setFlag f b).com = s.com := setFld_com s f _
@[simp] theorem setFlag_ive (f : Field) (b : Bool) : (s.setFlag f b).ive = s.ive := setFld_ive s f _
@[simp] theorem setFlag_xch (f : Field) (b : Bool) : (s.setFlag f b).xch = s.xch := setFld_xch s f _
@[simp] theorem setFlag_boot (f : Field) (b : Bool) : (s.setFlag f b).boot = s.boot := setFld_boot s f _
@[simp] theorem setFlag_pins (f : Field) (b : Bool) : (s.setFlag f b).pins = s.pins := setFld_pins s f _
@[simp] theorem setFlag_clock (f : Field) (b : Bool) : (s.setFlag f b).clock = s.clock := setFld_clock s f _
@[simp] theorem setFlag_upd (f : Field) (b : Bool) : (s.setFlag f b).upd = s.upd := setFld_upd s f _
@[simp] theorem setFlag_fio (f : Field) (b : Bool) : (s.setFlag f b).fio = s.fio := setFld_fio s f _
@[simp] theorem setFlag_sfb (f : Field) (b : Bool) : (s.setFlag f b).sfb = s.sfb := setFld_sfb s f _
@[simp] theorem setFlag_lor (f : Field) (b : Bool) : (s.setFlag f b).lor = s.lor := setFld_lor s f _
@[simp] theorem setFlag_rings (f : Field) (b : Bool) : (s.setFlag f b).rings = s.rings := setFld_rings s f _
@[simp] theorem setFlag_twin (f : Field) (b : Bool) : (s.setFlag f b).twin = s.twin := setFld_twin s f _
@[simp] theorem setFlag_evr (f : Field) (b : Bool) : (s.setFlag f b).evr = s.evr := setFld_evr s f _
@[simp] theorem setFlag_queues (f : Field) (b : Bool) : (s.setFlag f b).queues = s.queues := setFld_queues s f _
@[simp] theorem setFlag_windows (f : Field) (b : Bool) : (s.setFlag f b).windows = s.windows := setFld_windows s f _
@[simp] theorem setFlag_irqLive (f : Field) (b : Bool) : (s.setFlag f b).irqLive = s.irqLive := setFld_irqLive s f _
@[simp] theorem setFlag_posted (f : Field) (b : Bool) : (s.setFlag f b).posted = s.posted := setFld_posted s f _
@[simp] theorem setFlag_sessions (f : Field) (b : Bool) : (s.setFlag f b).sessions = s.sessions := setFld_sessions s f _
@[simp] theorem setFlag_hosts (f : Field) (b : Bool) : (s.setFlag f b).hosts = s.hosts := setFld_hosts s f _
@[simp] theorem setFlag_out (f : Field) (b : Bool) : (s.setFlag f b).out = s.out := setFld_out s f _
@[simp] theorem setFlag_crcRuns (f : Field) (b : Bool) : (s.setFlag f b).crcRuns = s.crcRuns := setFld_crcRuns s f _
@[simp] theorem setFlag_pmon (f : Field) (b : Bool) : (s.setFlag f b).pmon = s.pmon := setFld_pmon s f _
@[simp] theorem setFlag_mem (f : Field) (b : Bool) : (s.setFlag f b).mem = s.mem := setFld_mem s f _
@[simp] theorem setFlag_nv (f : Field) (b : Bool) : (s.setFlag f b).nv = s.nv := setFld_nv s f _
@[simp] theorem setFlag_pending (f : Field) (b : Bool) : (s.setFlag f b).pending = s.pending := setFld_pending s f _

/-! ### `addSat` -/

@[simp] theorem addSat_now (f : Field) (n : Nat) : (s.addSat f n).now = s.now := setFld_now s f _
@[simp] theorem addSat_ticks (f : Field) (n : Nat) : (s.addSat f n).ticks = s.ticks := setFld_ticks s f _
@[simp] theorem addSat_cyc (f : Field) (n : Nat) : (s.addSat f n).cyc = s.cyc := setFld_cyc s f _
@[simp] theorem addSat_pod (f : Field) (n : Nat) : (s.addSat f n).pod = s.pod := setFld_pod s f _
@[simp] theorem addSat_prog (f : Field) (n : Nat) : (s.addSat f n).prog = s.prog := setFld_prog s f _
@[simp] theorem addSat_com (f : Field) (n : Nat) : (s.addSat f n).com = s.com := setFld_com s f _
@[simp] theorem addSat_ive (f : Field) (n : Nat) : (s.addSat f n).ive = s.ive := setFld_ive s f _
@[simp] theorem addSat_xch (f : Field) (n : Nat) : (s.addSat f n).xch = s.xch := setFld_xch s f _
@[simp] theorem addSat_boot (f : Field) (n : Nat) : (s.addSat f n).boot = s.boot := setFld_boot s f _
@[simp] theorem addSat_pins (f : Field) (n : Nat) : (s.addSat f n).pins = s.pins := setFld_pins s f _
@[simp] theorem addSat_clock (f : Field) (n : Nat) : (s.addSat f n).clock = s.clock := setFld_clock s f _
@[simp] theorem addSat_upd (f : Field) (n : Nat) : (s.addSat f n).upd = s.upd := setFld_upd s f _
@[simp] theorem addSat_fio (f : Field) (n : Nat) : (s.addSat f n).fio = s.fio := setFld_fio s f _
@[simp] theorem addSat_sfb (f : Field) (n : Nat) : (s.addSat f n).sfb = s.sfb := setFld_sfb s f _
@[simp] theorem addSat_lor (f : Field) (n : Nat) : (s.addSat f n).lor = s.lor := setFld_lor s f _
@[simp] theorem addSat_rings (f : Field) (n : Nat) : (s.addSat f n).rings = s.rings := setFld_rings s f _
@[simp] theorem addSat_twin (f : Field) (n : Nat) : (s.addSat f n).twin = s.twin := setFld_twin s f _
@[simp] theorem addSat_evr (f : Field) (n : Nat) : (s.addSat f n).evr = s.evr := setFld_evr s f _
@[simp] theorem addSat_queues (f : Field) (n : Nat) : (s.addSat f n).queues = s.queues := setFld_queues s f _
@[simp] theorem addSat_windows (f : Field) (n : Nat) : (s.addSat f n).windows = s.windows := setFld_windows s f _
@[simp] theorem addSat_irqLive (f : Field) (n : Nat) : (s.addSat f n).irqLive = s.irqLive := setFld_irqLive s f _
@[simp] theorem addSat_posted (f : Field) (n : Nat) : (s.addSat f n).posted = s.posted := setFld_posted s f _
@[simp] theorem addSat_sessions (f : Field) (n : Nat) : (s.addSat f n).sessions = s.sessions := setFld_sessions s f _
@[simp] theorem addSat_hosts (f : Field) (n : Nat) : (s.addSat f n).hosts = s.hosts := setFld_hosts s f _
@[simp] theorem addSat_out (f : Field) (n : Nat) : (s.addSat f n).out = s.out := setFld_out s f _
@[simp] theorem addSat_crcRuns (f : Field) (n : Nat) : (s.addSat f n).crcRuns = s.crcRuns := setFld_crcRuns s f _
@[simp] theorem addSat_pmon (f : Field) (n : Nat) : (s.addSat f n).pmon = s.pmon := setFld_pmon s f _
@[simp] theorem addSat_mem (f : Field) (n : Nat) : (s.addSat f n).mem = s.mem := setFld_mem s f _
@[simp] theorem addSat_nv (f : Field) (n : Nat) : (s.addSat f n).nv = s.nv := setFld_nv s f _
@[simp] theorem addSat_pending (f : Field) (n : Nat) : (s.addSat f n).pending = s.pending := setFld_pending s f _

/-! ### `errAddr` -/

@[simp] theorem errAddr_now (p c o : Nat) : (s.errAddr p c o).now = s.now := setReg_now s _ _
@[simp] theorem errAddr_ticks (p c o : Nat) : (s.errAddr p c o).ticks = s.ticks := setReg_ticks s _ _
@[simp] theorem errAddr_cyc (p c o : Nat) : (s.errAddr p c o).cyc = s.cyc := setReg_cyc s _ _
@[simp] theorem errAddr_pod (p c o : Nat) : (s.errAddr p c o).pod = s.pod := setReg_pod s _ _
@[simp] theorem errAddr_prog (p c o : Nat) : (s.errAddr p c o).prog = s.prog := setReg_prog s _ _
@[simp] theorem errAddr_com (p c o : Nat) : (s.errAddr p c o).com = s.com := setReg_com s _ _
@[simp] theorem errAddr_ive (p c o : Nat) : (s.errAddr p c o).ive = s.ive := setReg_ive s _ _
@[simp] theorem errAddr_xch (p c o : Nat) : (s.errAddr p c o).xch = s.xch := setReg_xch s _ _
@[simp] theorem errAddr_boot (p c o : Nat) : (s.errAddr p c o).boot = s.boot := setReg_boot s _ _
@[simp] theorem errAddr_pins (p c o : Nat) : (s.errAddr p c o).pins = s.pins := setReg_pins s _ _
@[simp] theorem errAddr_clock (p c o : Nat) : (s.errAddr p c o).clock = s.clock := setReg_clock s _ _
@[simp] theorem errAddr_upd (p c o : Nat) : (s.errAddr p c o).upd = s.upd := setReg_upd s _ _
@[simp] theorem errAddr_fio (p c o : Nat) : (s.errAddr p c o).fio = s.fio := setReg_fio s _ _
@[simp] theorem errAddr_sfb (p c o : Nat) : (s.errAddr p c o).sfb = s.sfb := setReg_sfb s _ _
@[simp] theorem errAddr_lor (p c o : Nat) : (s.errAddr p c o).lor = s.lor := setReg_lor s _ _
@[simp] theorem errAddr_rings (p c o : Nat) : (s.errAddr p c o).rings = s.rings := setReg_rings s _ _
@[simp] theorem errAddr_twin (p c o : Nat) : (s.errAddr p c o).twin = s.twin := setReg_twin s _ _
@[simp] theorem errAddr_evr (p c o : Nat) : (s.errAddr p c o).evr = s.evr := setReg_evr s _ _
@[simp] theorem errAddr_queues (p c o : Nat) : (s.errAddr p c o).queues = s.queues := setReg_queues s _ _
@[simp] theorem errAddr_windows (p c o : Nat) : (s.errAddr p c o).windows = s.windows := setReg_windows s _ _
@[simp] theorem errAddr_irqLive (p c o : Nat) : (s.errAddr p c o).irqLive = s.irqLive := setReg_irqLive s _ _
@[simp] theorem errAddr_posted (p c o : Nat) : (s.errAddr p c o).posted = s.posted := setReg_posted s _ _
@[simp] theorem errAddr_sessions (p c o : Nat) : (s.errAddr p c o).sessions = s.sessions := setReg_sessions s _ _
@[simp] theorem errAddr_hosts (p c o : Nat) : (s.errAddr p c o).hosts = s.hosts := setReg_hosts s _ _
@[simp] theorem errAddr_out (p c o : Nat) : (s.errAddr p c o).out = s.out := setReg_out s _ _
@[simp] theorem errAddr_crcRuns (p c o : Nat) : (s.errAddr p c o).crcRuns = s.crcRuns := setReg_crcRuns s _ _
@[simp] theorem errAddr_pmon (p c o : Nat) : (s.errAddr p c o).pmon = s.pmon := setReg_pmon s _ _
@[simp] theorem errAddr_mem (p c o : Nat) : (s.errAddr p c o).mem = s.mem := setReg_mem s _ _
@[simp] theorem errAddr_nv (p c o : Nat) : (s.errAddr p c o).nv = s.nv := setReg_nv s _ _
@[simp] theorem errAddr_pending (p c o : Nat) : (s.errAddr p c o).pending = s.pending := setReg_pending s _ _

/-! ### `raiseMax` -/

@[simp] theorem raiseMax_now (f : Field) (n : Nat) : (s.raiseMax f n).now = s.now := by unfold raiseMax; split <;> rfl
@[simp] theorem raiseMax_ticks (f : Field) (n : Nat) : (s.raiseMax f n).ticks = s.ticks := by unfold raiseMax; split <;> rfl
@[simp] theorem raiseMax_cyc (f : Field) (n : Nat) : (s.raiseMax f n).cyc = s.cyc := by unfold raiseMax; split <;> rfl
@[simp] theorem raiseMax_pod (f : Field) (n : Nat) : (s.raiseMax f n).pod = s.pod := by unfold raiseMax; split <;> rfl
@[simp] theorem raiseMax_prog (f : Field) (n : Nat) : (s.raiseMax f n).prog = s.prog := by unfold raiseMax; split <;> rfl
@[simp] theorem raiseMax_com (f : Field) (n : Nat) : (s.raiseMax f n).com = s.com := by unfold raiseMax; split <;> rfl
@[simp] theorem raiseMax_ive (f : Field) (n : Nat) : (s.raiseMax f n).ive = s.ive := by unfold raiseMax; split <;> rfl
@[simp] theorem raiseMax_xch (f : Field) (n : Nat) : (s.raiseMax f n).xch = s.xch := by unfold raiseMax; split <;> rfl
@[simp] theorem raiseMax_boot (f : Field) (n : Nat) : (s.raiseMax f n).boot = s.boot := by unfold raiseMax; split <;> rfl
@[simp] theorem raiseMax_pins (f : Field) (n : Nat) : (s.raiseMax f n).pins = s.pins := by unfold raiseMax; split <;> rfl
@[simp] theorem raiseMax_clock (f : Field) (n : Nat) : (s.raiseMax f n).clock = s.clock := by unfold raiseMax; split <;> rfl
@[simp] theorem raiseMax_upd (f : Field) (n : Nat) : (s.raiseMax f n).upd = s.upd := by unfold raiseMax; split <;> rfl
@[simp] theorem raiseMax_fio (f : Field) (n : Nat) : (s.raiseMax f n).fio = s.fio := by unfold raiseMax; split <;> rfl
@[simp] theorem raiseMax_sfb (f : Field) (n : Nat) : (s.raiseMax f n).sfb = s.sfb := by unfold raiseMax; split <;> rfl
@[simp] theorem raiseMax_lor (f : Field) (n : Nat) : (s.raiseMax f n).lor = s.lor := by unfold raiseMax; split <;> rfl
@[simp] theorem raiseMax_rings (f : Field) (n : Nat) : (s.raiseMax f n).rings = s.rings := by unfold raiseMax; split <;> rfl
@[simp] theorem raiseMax_twin (f : Field) (n : Nat) : (s.raiseMax f n).twin = s.twin := by unfold raiseMax; split <;> rfl
@[simp] theorem raiseMax_evr (f : Field) (n : Nat) : (s.raiseMax f n).evr = s.evr := by unfold raiseMax; split <;> rfl
@[simp] theorem raiseMax_queues (f : Field) (n : Nat) : (s.raiseMax f n).queues = s.queues := by unfold raiseMax; split <;> rfl
@[simp] theorem raiseMax_windows (f : Field) (n : Nat) : (s.raiseMax f n).windows = s.windows := by unfold raiseMax; split <;> rfl
@[simp] theorem raiseMax_irqLive (f : Field) (n : Nat) : (s.raiseMax f n).irqLive = s.irqLive := by unfold raiseMax; split <;> rfl
@[simp] theorem raiseMax_posted (f : Field) (n : Nat) : (s.raiseMax f n).posted = s.posted := by unfold raiseMax; split <;> rfl
@[simp] theorem raiseMax_sessions (f : Field) (n : Nat) : (s.raiseMax f n).sessions = s.sessions := by unfold raiseMax; split <;> rfl
@[simp] theorem raiseMax_hosts (f : Field) (n : Nat) : (s.raiseMax f n).hosts = s.hosts := by unfold raiseMax; split <;> rfl
@[simp] theorem raiseMax_out (f : Field) (n : Nat) : (s.raiseMax f n).out = s.out := by unfold raiseMax; split <;> rfl
@[simp] theorem raiseMax_crcRuns (f : Field) (n : Nat) : (s.raiseMax f n).crcRuns = s.crcRuns := by unfold raiseMax; split <;> rfl
@[simp] theorem raiseMax_pmon (f : Field) (n : Nat) : (s.raiseMax f n).pmon = s.pmon := by unfold raiseMax; split <;> rfl
@[simp] theorem raiseMax_mem (f : Field) (n : Nat) : (s.raiseMax f n).mem = s.mem := by unfold raiseMax; split <;> rfl
@[simp] theorem raiseMax_nv (f : Field) (n : Nat) : (s.raiseMax f n).nv = s.nv := by unfold raiseMax; split <;> rfl
@[simp] theorem raiseMax_pending (f : Field) (n : Nat) : (s.raiseMax f n).pending = s.pending := by unfold raiseMax; split <;> rfl

/-! ### `irqState` -/

@[simp] theorem irqState_now (n st : Nat) : (s.irqState n st).now = s.now := rfl
@[simp] theorem irqState_ticks (n st : Nat) : (s.irqState n st).ticks = s.ticks := rfl
@[simp] theorem irqState_cyc (n st : Nat) : (s.irqState n st).cyc = s.cyc := rfl
@[simp] theorem irqState_pod (n st : Nat) : (s.irqState n st).pod = s.pod := rfl
@[simp] theorem irqState_prog (n st : Nat) : (s.irqState n st).prog = s.prog := rfl
@[simp] theorem irqState_com (n st : Nat) : (s.irqState n st).com = s.com := rfl
@[simp] theorem irqState_ive (n st : Nat) : (s.irqState n st).ive = s.ive := rfl
@[simp] theorem irqState_xch (n st : Nat) : (s.irqState n st).xch = s.xch := rfl
@[simp] theorem irqState_boot (n st : Nat) : (s.irqState n st).boot = s.boot := rfl
@[simp] theorem irqState_pins (n st : Nat) : (s.irqState n st).pins = s.pins := rfl
@[simp] theorem irqState_clock (n st : Nat) : (s.irqState n st).clock = s.clock := rfl
@[simp] theorem irqState_upd (n st : Nat) : (s.irqState n st).upd = s.upd := rfl
@[simp] theorem irqState_fio (n st : Nat) : (s.irqState n st).fio = s.fio := rfl
@[simp] theorem irqState_sfb (n st : Nat) : (s.irqState n st).sfb = s.sfb := rfl
@[simp] theorem irqState_lor (n st : Nat) : (s.irqState n st).lor = s.lor := rfl
@[simp] theorem irqState_rings (n st : Nat) : (s.irqState n st).rings = s.rings := rfl
@[simp] theorem irqState_twin (n st : Nat) : (s.irqState n st).twin = s.twin := rfl
@[simp] theorem irqState_evr (n st : Nat) : (s.irqState n st).evr = s.evr := rfl
@[simp] theorem irqState_queues (n st : Nat) : (s.irqState n st).queues = s.queues := rfl
@[simp] theorem irqState_windows (n st : Nat) : (s.irqState n st).windows = s.windows := rfl
@[simp] theorem irqState_posted (n st : Nat) : (s.irqState n st).posted = s.posted := rfl
@[simp] theorem irqState_sessions (n st : Nat) : (s.irqState n st).sessions = s.sessions := rfl
@[simp] theorem irqState_hosts (n st : Nat) : (s.irqState n st).hosts = s.hosts := rfl
@[simp] theorem irqState_out (n st : Nat) : (s.irqState n st).out = s.out := rfl
@[simp] theorem irqState_crcRuns (n st : Nat) : (s.irqState n st).crcRuns = s.crcRuns := rfl
@[simp] theorem irqState_pmon (n st : Nat) : (s.irqState n st).pmon = s.pmon := rfl
@[simp] theorem irqState_mem (n st : Nat) : (s.irqState n st).mem = s.mem := rfl
@[simp] theorem irqState_nv (n st : Nat) : (s.irqState n st).nv = s.nv := rfl
@[simp] theorem irqState_pending (n st : Nat) : (s.irqState n st).pending = s.pending := rfl

/-! ### `ringSource` -/

@[simp] theorem ringSource_now (n : Nat) : (s.ringSource n).now = s.now := by rw [ringSource_shape]
@[simp] theorem ringSource_ticks (n : Nat) : (s.ringSource n).ticks = s.ticks := by rw [ringSource_shape]
@[simp] theorem ringSource_cyc (n : Nat) : (s.ringSource n).cyc = s.cyc := by rw [ringSource_shape]
@[simp] theorem ringSource_pod (n : Nat) : (s.ringSource n).pod = s.pod := by rw [ringSource_shape]
@[simp] theorem ringSource_prog (n : Nat) : (s.ringSource n).prog = s.prog := by rw [ringSource_shape]
@[simp] theorem ringSource_com (n : Nat) : (s.ringSource n).com = s.com := by rw [ringSource_shape]
@[simp] theorem ringSource_ive (n : Nat) : (s.ringSource n).ive = s.ive := by rw [ringSource_shape]
@[simp] theorem ringSource_xch (n : Nat) : (s.ringSource n).xch = s.xch := by rw [ringSource_shape]
@[simp] theorem ringSource_boot (n : Nat) : (s.ringSource n).boot = s.boot := by rw [ringSource_shape]
@[simp] theorem ringSource_pins (n : Nat) : (s.ringSource n).pins = s.pins := by rw [ringSource_shape]
@[simp] theorem ringSource_clock (n : Nat) : (s.ringSource n).clock = s.clock := by rw [ringSource_shape]
@[simp] theorem ringSource_upd (n : Nat) : (s.ringSource n).upd = s.upd := by rw [ringSource_shape]
@[simp] theorem ringSource_fio (n : Nat) : (s.ringSource n).fio = s.fio := by rw [ringSource_shape]
@[simp] theorem ringSource_sfb (n : Nat) : (s.ringSource n).sfb = s.sfb := by rw [ringSource_shape]
@[simp] theorem ringSource_lor (n : Nat) : (s.ringSource n).lor = s.lor := by rw [ringSource_shape]
@[simp] theorem ringSource_rings (n : Nat) : (s.ringSource n).rings = s.rings := by rw [ringSource_shape]
@[simp] theorem ringSource_twin (n : Nat) : (s.ringSource n).twin = s.twin := by rw [ringSource_shape]
@[simp] theorem ringSource_queues (n : Nat) : (s.ringSource n).queues = s.queues := by rw [ringSource_shape]
@[simp] theorem ringSource_posted (n : Nat) : (s.ringSource n).posted = s.posted := by rw [ringSource_shape]
@[simp] theorem ringSource_sessions (n : Nat) : (s.ringSource n).sessions = s.sessions := by rw [ringSource_shape]
@[simp] theorem ringSource_hosts (n : Nat) : (s.ringSource n).hosts = s.hosts := by rw [ringSource_shape]
@[simp] theorem ringSource_out (n : Nat) : (s.ringSource n).out = s.out := by rw [ringSource_shape]
@[simp] theorem ringSource_crcRuns (n : Nat) : (s.ringSource n).crcRuns = s.crcRuns := by rw [ringSource_shape]
@[simp] theorem ringSource_pmon (n : Nat) : (s.ringSource n).pmon = s.pmon := by rw [ringSource_shape]
@[simp] theorem ringSource_mem (n : Nat) : (s.ringSource n).mem = s.mem := by rw [ringSource_shape]
@[simp] theorem ringSource_pending (n : Nat) : (s.ringSource n).pending = s.pending := by rw [ringSource_shape]
@[simp] theorem ringSource_nv_serial (n : Nat) : (s.ringSource n).nv.serial = s.nv.serial := by rw [ringSource_shape]
@[simp] theorem ringSource_nv_factory (n : Nat) : (s.ringSource n).nv.factory = s.nv.factory := by rw [ringSource_shape]
@[simp] theorem ringSource_nv_lockout (n : Nat) : (s.ringSource n).nv.lockout = s.nv.lockout := by rw [ringSource_shape]
@[simp] theorem ringSource_nv_safeTimes (n : Nat) : (s.ringSource n).nv.safeTimes = s.nv.safeTimes := by rw [ringSource_shape]
@[simp] theorem ringSource_nv_safeTotal (n : Nat) : (s.ringSource n).nv.safeTotal = s.nv.safeTotal := by rw [ringSource_shape]
@[simp] theorem ringSource_nv_leave (n : Nat) : (s.ringSource n).nv.leave = s.nv.leave := by rw [ringSource_shape]
@[simp] theorem ringSource_nv_epoch (n : Nat) : (s.ringSource n).nv.epoch = s.nv.epoch := by rw [ringSource_shape]
@[simp] theorem ringSource_nv_journal (n : Nat) : (s.ringSource n).nv.journal = s.nv.journal := by rw [ringSource_shape]
@[simp] theorem ringSource_nv_jix (n : Nat) : (s.ringSource n).nv.jix = s.nv.jix := by rw [ringSource_shape]
@[simp] theorem ringSource_nv_wrapped (n : Nat) : (s.ringSource n).nv.wrapped = s.nv.wrapped := by rw [ringSource_shape]
@[simp] theorem ringSource_nv_starts (n : Nat) : (s.ringSource n).nv.starts = s.nv.starts := by rw [ringSource_shape]
@[simp] theorem ringSource_nv_timeFloor (n : Nat) : (s.ringSource n).nv.timeFloor = s.nv.timeFloor := by rw [ringSource_shape]
@[simp] theorem ringSource_nv_tkValid (n : Nat) : (s.ringSource n).nv.tkValid = s.nv.tkValid := by rw [ringSource_shape]
@[simp] theorem ringSource_nv_tkSet (n : Nat) : (s.ringSource n).nv.tkSet = s.nv.tkSet := by rw [ringSource_shape]
@[simp] theorem ringSource_nv_sealed (n : Nat) : (s.ringSource n).nv.sealed = s.nv.sealed := by rw [ringSource_shape]
@[simp] theorem ringSource_nv_repairs (n : Nat) : (s.ringSource n).nv.repairs = s.nv.repairs := by rw [ringSource_shape]
@[simp] theorem ringSource_nv_userCal (n : Nat) : (s.ringSource n).nv.userCal = s.nv.userCal := by rw [ringSource_shape]
@[simp] theorem ringSource_nv_slots (n : Nat) : (s.ringSource n).nv.slots = s.nv.slots := by rw [ringSource_shape]
@[simp] theorem ringSource_nv_keys (n : Nat) : (s.ringSource n).nv.keys = s.nv.keys := by rw [ringSource_shape]
@[simp] theorem ringSource_nv_fwKey (n : Nat) : (s.ringSource n).nv.fwKey = s.nv.fwKey := by rw [ringSource_shape]
@[simp] theorem ringSource_nv_pgKey (n : Nat) : (s.ringSource n).nv.pgKey = s.nv.pgKey := by rw [ringSource_shape]
@[simp] theorem ringSource_nv_lifecycle (n : Nat) : (s.ringSource n).nv.lifecycle = s.nv.lifecycle := by rw [ringSource_shape]
@[simp] theorem ringSource_nv_lcNext (n : Nat) : (s.ringSource n).nv.lcNext = s.nv.lcNext := by rw [ringSource_shape]
@[simp] theorem ringSource_nv_actEnd (n : Nat) : (s.ringSource n).nv.actEnd = s.nv.actEnd := by rw [ringSource_shape]
@[simp] theorem ringSource_nv_ownerHash (n : Nat) : (s.ringSource n).nv.ownerHash = s.nv.ownerHash := by rw [ringSource_shape]
@[simp] theorem ringSource_nv_moazalHash (n : Nat) : (s.ringSource n).nv.moazalHash = s.nv.moazalHash := by rw [ringSource_shape]
@[simp] theorem ringSource_nv_devicePub (n : Nat) : (s.ringSource n).nv.devicePub = s.nv.devicePub := by rw [ringSource_shape]
@[simp] theorem ringSource_nv_svnFw (n : Nat) : (s.ringSource n).nv.svnFw = s.nv.svnFw := by rw [ringSource_shape]
@[simp] theorem ringSource_nv_svnPg (n : Nat) : (s.ringSource n).nv.svnPg = s.nv.svnPg := by rw [ringSource_shape]
@[simp] theorem ringSource_nv_tamper (n : Nat) : (s.ringSource n).nv.tamper = s.nv.tamper := by rw [ringSource_shape]
@[simp] theorem ringSource_nv_tamperDue (n : Nat) : (s.ringSource n).nv.tamperDue = s.nv.tamperDue := by rw [ringSource_shape]
@[simp] theorem ringSource_nv_wakes (n : Nat) : (s.ringSource n).nv.wakes = s.nv.wakes := by rw [ringSource_shape]
@[simp] theorem ringSource_nv_nonces (n : Nat) : (s.ringSource n).nv.nonces = s.nv.nonces := by rw [ringSource_shape]
@[simp] theorem ringSource_nv_epochs (n : Nat) : (s.ringSource n).nv.epochs = s.nv.epochs := by rw [ringSource_shape]

/-! ### `withdrawSource` -/

@[simp] theorem withdrawSource_now (n : Nat) : (s.withdrawSource n).now = s.now := by unfold withdrawSource; split <;> rfl
@[simp] theorem withdrawSource_ticks (n : Nat) : (s.withdrawSource n).ticks = s.ticks := by unfold withdrawSource; split <;> rfl
@[simp] theorem withdrawSource_cyc (n : Nat) : (s.withdrawSource n).cyc = s.cyc := by unfold withdrawSource; split <;> rfl
@[simp] theorem withdrawSource_pod (n : Nat) : (s.withdrawSource n).pod = s.pod := by unfold withdrawSource; split <;> rfl
@[simp] theorem withdrawSource_prog (n : Nat) : (s.withdrawSource n).prog = s.prog := by unfold withdrawSource; split <;> rfl
@[simp] theorem withdrawSource_com (n : Nat) : (s.withdrawSource n).com = s.com := by unfold withdrawSource; split <;> rfl
@[simp] theorem withdrawSource_ive (n : Nat) : (s.withdrawSource n).ive = s.ive := by unfold withdrawSource; split <;> rfl
@[simp] theorem withdrawSource_xch (n : Nat) : (s.withdrawSource n).xch = s.xch := by unfold withdrawSource; split <;> rfl
@[simp] theorem withdrawSource_boot (n : Nat) : (s.withdrawSource n).boot = s.boot := by unfold withdrawSource; split <;> rfl
@[simp] theorem withdrawSource_pins (n : Nat) : (s.withdrawSource n).pins = s.pins := by unfold withdrawSource; split <;> rfl
@[simp] theorem withdrawSource_clock (n : Nat) : (s.withdrawSource n).clock = s.clock := by unfold withdrawSource; split <;> rfl
@[simp] theorem withdrawSource_upd (n : Nat) : (s.withdrawSource n).upd = s.upd := by unfold withdrawSource; split <;> rfl
@[simp] theorem withdrawSource_fio (n : Nat) : (s.withdrawSource n).fio = s.fio := by unfold withdrawSource; split <;> rfl
@[simp] theorem withdrawSource_sfb (n : Nat) : (s.withdrawSource n).sfb = s.sfb := by unfold withdrawSource; split <;> rfl
@[simp] theorem withdrawSource_lor (n : Nat) : (s.withdrawSource n).lor = s.lor := by unfold withdrawSource; split <;> rfl
@[simp] theorem withdrawSource_rings (n : Nat) : (s.withdrawSource n).rings = s.rings := by unfold withdrawSource; split <;> rfl
@[simp] theorem withdrawSource_twin (n : Nat) : (s.withdrawSource n).twin = s.twin := by unfold withdrawSource; split <;> rfl
@[simp] theorem withdrawSource_evr (n : Nat) : (s.withdrawSource n).evr = s.evr := by unfold withdrawSource; split <;> rfl
@[simp] theorem withdrawSource_queues (n : Nat) : (s.withdrawSource n).queues = s.queues := by unfold withdrawSource; split <;> rfl
@[simp] theorem withdrawSource_windows (n : Nat) : (s.withdrawSource n).windows = s.windows := by unfold withdrawSource; split <;> rfl
@[simp] theorem withdrawSource_posted (n : Nat) : (s.withdrawSource n).posted = s.posted := by unfold withdrawSource; split <;> rfl
@[simp] theorem withdrawSource_sessions (n : Nat) : (s.withdrawSource n).sessions = s.sessions := by unfold withdrawSource; split <;> rfl
@[simp] theorem withdrawSource_hosts (n : Nat) : (s.withdrawSource n).hosts = s.hosts := by unfold withdrawSource; split <;> rfl
@[simp] theorem withdrawSource_out (n : Nat) : (s.withdrawSource n).out = s.out := by unfold withdrawSource; split <;> rfl
@[simp] theorem withdrawSource_crcRuns (n : Nat) : (s.withdrawSource n).crcRuns = s.crcRuns := by unfold withdrawSource; split <;> rfl
@[simp] theorem withdrawSource_pmon (n : Nat) : (s.withdrawSource n).pmon = s.pmon := by unfold withdrawSource; split <;> rfl
@[simp] theorem withdrawSource_mem (n : Nat) : (s.withdrawSource n).mem = s.mem := by unfold withdrawSource; split <;> rfl
@[simp] theorem withdrawSource_nv (n : Nat) : (s.withdrawSource n).nv = s.nv := by unfold withdrawSource; split <;> rfl
@[simp] theorem withdrawSource_pending (n : Nat) : (s.withdrawSource n).pending = s.pending := by unfold withdrawSource; split <;> rfl

/-! ### `raiseEvt` -/

@[simp] theorem raiseEvt_now (p b : Nat) : (s.raiseEvt p b).now = s.now := by rw [raiseEvt_shape]
@[simp] theorem raiseEvt_ticks (p b : Nat) : (s.raiseEvt p b).ticks = s.ticks := by rw [raiseEvt_shape]
@[simp] theorem raiseEvt_cyc (p b : Nat) : (s.raiseEvt p b).cyc = s.cyc := by rw [raiseEvt_shape]
@[simp] theorem raiseEvt_pod (p b : Nat) : (s.raiseEvt p b).pod = s.pod := by rw [raiseEvt_shape]
@[simp] theorem raiseEvt_prog (p b : Nat) : (s.raiseEvt p b).prog = s.prog := by rw [raiseEvt_shape]
@[simp] theorem raiseEvt_com (p b : Nat) : (s.raiseEvt p b).com = s.com := by rw [raiseEvt_shape]
@[simp] theorem raiseEvt_ive (p b : Nat) : (s.raiseEvt p b).ive = s.ive := by rw [raiseEvt_shape]
@[simp] theorem raiseEvt_xch (p b : Nat) : (s.raiseEvt p b).xch = s.xch := by rw [raiseEvt_shape]
@[simp] theorem raiseEvt_boot (p b : Nat) : (s.raiseEvt p b).boot = s.boot := by rw [raiseEvt_shape]
@[simp] theorem raiseEvt_pins (p b : Nat) : (s.raiseEvt p b).pins = s.pins := by rw [raiseEvt_shape]
@[simp] theorem raiseEvt_clock (p b : Nat) : (s.raiseEvt p b).clock = s.clock := by rw [raiseEvt_shape]
@[simp] theorem raiseEvt_upd (p b : Nat) : (s.raiseEvt p b).upd = s.upd := by rw [raiseEvt_shape]
@[simp] theorem raiseEvt_fio (p b : Nat) : (s.raiseEvt p b).fio = s.fio := by rw [raiseEvt_shape]
@[simp] theorem raiseEvt_sfb (p b : Nat) : (s.raiseEvt p b).sfb = s.sfb := by rw [raiseEvt_shape]
@[simp] theorem raiseEvt_lor (p b : Nat) : (s.raiseEvt p b).lor = s.lor := by rw [raiseEvt_shape]
@[simp] theorem raiseEvt_rings (p b : Nat) : (s.raiseEvt p b).rings = s.rings := by rw [raiseEvt_shape]
@[simp] theorem raiseEvt_twin (p b : Nat) : (s.raiseEvt p b).twin = s.twin := by rw [raiseEvt_shape]
@[simp] theorem raiseEvt_queues (p b : Nat) : (s.raiseEvt p b).queues = s.queues := by rw [raiseEvt_shape]
@[simp] theorem raiseEvt_posted (p b : Nat) : (s.raiseEvt p b).posted = s.posted := by rw [raiseEvt_shape]
@[simp] theorem raiseEvt_sessions (p b : Nat) : (s.raiseEvt p b).sessions = s.sessions := by rw [raiseEvt_shape]
@[simp] theorem raiseEvt_hosts (p b : Nat) : (s.raiseEvt p b).hosts = s.hosts := by rw [raiseEvt_shape]
@[simp] theorem raiseEvt_out (p b : Nat) : (s.raiseEvt p b).out = s.out := by rw [raiseEvt_shape]
@[simp] theorem raiseEvt_crcRuns (p b : Nat) : (s.raiseEvt p b).crcRuns = s.crcRuns := by rw [raiseEvt_shape]
@[simp] theorem raiseEvt_pmon (p b : Nat) : (s.raiseEvt p b).pmon = s.pmon := by rw [raiseEvt_shape]
@[simp] theorem raiseEvt_mem (p b : Nat) : (s.raiseEvt p b).mem = s.mem := by rw [raiseEvt_shape]
@[simp] theorem raiseEvt_pending (p b : Nat) : (s.raiseEvt p b).pending = s.pending := by rw [raiseEvt_shape]
@[simp] theorem raiseEvt_nv_serial (p b : Nat) : (s.raiseEvt p b).nv.serial = s.nv.serial := by rw [raiseEvt_shape]
@[simp] theorem raiseEvt_nv_factory (p b : Nat) : (s.raiseEvt p b).nv.factory = s.nv.factory := by rw [raiseEvt_shape]
@[simp] theorem raiseEvt_nv_lockout (p b : Nat) : (s.raiseEvt p b).nv.lockout = s.nv.lockout := by rw [raiseEvt_shape]
@[simp] theorem raiseEvt_nv_safeTimes (p b : Nat) : (s.raiseEvt p b).nv.safeTimes = s.nv.safeTimes := by rw [raiseEvt_shape]
@[simp] theorem raiseEvt_nv_safeTotal (p b : Nat) : (s.raiseEvt p b).nv.safeTotal = s.nv.safeTotal := by rw [raiseEvt_shape]
@[simp] theorem raiseEvt_nv_leave (p b : Nat) : (s.raiseEvt p b).nv.leave = s.nv.leave := by rw [raiseEvt_shape]
@[simp] theorem raiseEvt_nv_epoch (p b : Nat) : (s.raiseEvt p b).nv.epoch = s.nv.epoch := by rw [raiseEvt_shape]
@[simp] theorem raiseEvt_nv_journal (p b : Nat) : (s.raiseEvt p b).nv.journal = s.nv.journal := by rw [raiseEvt_shape]
@[simp] theorem raiseEvt_nv_jix (p b : Nat) : (s.raiseEvt p b).nv.jix = s.nv.jix := by rw [raiseEvt_shape]
@[simp] theorem raiseEvt_nv_wrapped (p b : Nat) : (s.raiseEvt p b).nv.wrapped = s.nv.wrapped := by rw [raiseEvt_shape]
@[simp] theorem raiseEvt_nv_starts (p b : Nat) : (s.raiseEvt p b).nv.starts = s.nv.starts := by rw [raiseEvt_shape]
@[simp] theorem raiseEvt_nv_timeFloor (p b : Nat) : (s.raiseEvt p b).nv.timeFloor = s.nv.timeFloor := by rw [raiseEvt_shape]
@[simp] theorem raiseEvt_nv_tkValid (p b : Nat) : (s.raiseEvt p b).nv.tkValid = s.nv.tkValid := by rw [raiseEvt_shape]
@[simp] theorem raiseEvt_nv_tkSet (p b : Nat) : (s.raiseEvt p b).nv.tkSet = s.nv.tkSet := by rw [raiseEvt_shape]
@[simp] theorem raiseEvt_nv_sealed (p b : Nat) : (s.raiseEvt p b).nv.sealed = s.nv.sealed := by rw [raiseEvt_shape]
@[simp] theorem raiseEvt_nv_repairs (p b : Nat) : (s.raiseEvt p b).nv.repairs = s.nv.repairs := by rw [raiseEvt_shape]
@[simp] theorem raiseEvt_nv_userCal (p b : Nat) : (s.raiseEvt p b).nv.userCal = s.nv.userCal := by rw [raiseEvt_shape]
@[simp] theorem raiseEvt_nv_slots (p b : Nat) : (s.raiseEvt p b).nv.slots = s.nv.slots := by rw [raiseEvt_shape]
@[simp] theorem raiseEvt_nv_keys (p b : Nat) : (s.raiseEvt p b).nv.keys = s.nv.keys := by rw [raiseEvt_shape]
@[simp] theorem raiseEvt_nv_fwKey (p b : Nat) : (s.raiseEvt p b).nv.fwKey = s.nv.fwKey := by rw [raiseEvt_shape]
@[simp] theorem raiseEvt_nv_pgKey (p b : Nat) : (s.raiseEvt p b).nv.pgKey = s.nv.pgKey := by rw [raiseEvt_shape]
@[simp] theorem raiseEvt_nv_lifecycle (p b : Nat) : (s.raiseEvt p b).nv.lifecycle = s.nv.lifecycle := by rw [raiseEvt_shape]
@[simp] theorem raiseEvt_nv_lcNext (p b : Nat) : (s.raiseEvt p b).nv.lcNext = s.nv.lcNext := by rw [raiseEvt_shape]
@[simp] theorem raiseEvt_nv_actEnd (p b : Nat) : (s.raiseEvt p b).nv.actEnd = s.nv.actEnd := by rw [raiseEvt_shape]
@[simp] theorem raiseEvt_nv_ownerHash (p b : Nat) : (s.raiseEvt p b).nv.ownerHash = s.nv.ownerHash := by rw [raiseEvt_shape]
@[simp] theorem raiseEvt_nv_moazalHash (p b : Nat) : (s.raiseEvt p b).nv.moazalHash = s.nv.moazalHash := by rw [raiseEvt_shape]
@[simp] theorem raiseEvt_nv_devicePub (p b : Nat) : (s.raiseEvt p b).nv.devicePub = s.nv.devicePub := by rw [raiseEvt_shape]
@[simp] theorem raiseEvt_nv_svnFw (p b : Nat) : (s.raiseEvt p b).nv.svnFw = s.nv.svnFw := by rw [raiseEvt_shape]
@[simp] theorem raiseEvt_nv_svnPg (p b : Nat) : (s.raiseEvt p b).nv.svnPg = s.nv.svnPg := by rw [raiseEvt_shape]
@[simp] theorem raiseEvt_nv_tamper (p b : Nat) : (s.raiseEvt p b).nv.tamper = s.nv.tamper := by rw [raiseEvt_shape]
@[simp] theorem raiseEvt_nv_tamperDue (p b : Nat) : (s.raiseEvt p b).nv.tamperDue = s.nv.tamperDue := by rw [raiseEvt_shape]
@[simp] theorem raiseEvt_nv_wakes (p b : Nat) : (s.raiseEvt p b).nv.wakes = s.nv.wakes := by rw [raiseEvt_shape]
@[simp] theorem raiseEvt_nv_nonces (p b : Nat) : (s.raiseEvt p b).nv.nonces = s.nv.nonces := by rw [raiseEvt_shape]
@[simp] theorem raiseEvt_nv_epochs (p b : Nat) : (s.raiseEvt p b).nv.epochs = s.nv.epochs := by rw [raiseEvt_shape]

/-! ### `podCount` -/

@[simp] theorem podCount_now (i n : Nat) : (s.podCount i n).now = s.now := by rw [podCount_shape]
@[simp] theorem podCount_ticks (i n : Nat) : (s.podCount i n).ticks = s.ticks := by rw [podCount_shape]
@[simp] theorem podCount_cyc (i n : Nat) : (s.podCount i n).cyc = s.cyc := by rw [podCount_shape]
@[simp] theorem podCount_pod (i n : Nat) : (s.podCount i n).pod = s.pod := by rw [podCount_shape]
@[simp] theorem podCount_prog (i n : Nat) : (s.podCount i n).prog = s.prog := by rw [podCount_shape]
@[simp] theorem podCount_com (i n : Nat) : (s.podCount i n).com = s.com := by rw [podCount_shape]
@[simp] theorem podCount_ive (i n : Nat) : (s.podCount i n).ive = s.ive := by rw [podCount_shape]
@[simp] theorem podCount_xch (i n : Nat) : (s.podCount i n).xch = s.xch := by rw [podCount_shape]
@[simp] theorem podCount_boot (i n : Nat) : (s.podCount i n).boot = s.boot := by rw [podCount_shape]
@[simp] theorem podCount_pins (i n : Nat) : (s.podCount i n).pins = s.pins := by rw [podCount_shape]
@[simp] theorem podCount_clock (i n : Nat) : (s.podCount i n).clock = s.clock := by rw [podCount_shape]
@[simp] theorem podCount_upd (i n : Nat) : (s.podCount i n).upd = s.upd := by rw [podCount_shape]
@[simp] theorem podCount_fio (i n : Nat) : (s.podCount i n).fio = s.fio := by rw [podCount_shape]
@[simp] theorem podCount_sfb (i n : Nat) : (s.podCount i n).sfb = s.sfb := by rw [podCount_shape]
@[simp] theorem podCount_lor (i n : Nat) : (s.podCount i n).lor = s.lor := by rw [podCount_shape]
@[simp] theorem podCount_rings (i n : Nat) : (s.podCount i n).rings = s.rings := by rw [podCount_shape]
@[simp] theorem podCount_twin (i n : Nat) : (s.podCount i n).twin = s.twin := by rw [podCount_shape]
@[simp] theorem podCount_queues (i n : Nat) : (s.podCount i n).queues = s.queues := by rw [podCount_shape]
@[simp] theorem podCount_posted (i n : Nat) : (s.podCount i n).posted = s.posted := by rw [podCount_shape]
@[simp] theorem podCount_sessions (i n : Nat) : (s.podCount i n).sessions = s.sessions := by rw [podCount_shape]
@[simp] theorem podCount_hosts (i n : Nat) : (s.podCount i n).hosts = s.hosts := by rw [podCount_shape]
@[simp] theorem podCount_out (i n : Nat) : (s.podCount i n).out = s.out := by rw [podCount_shape]
@[simp] theorem podCount_crcRuns (i n : Nat) : (s.podCount i n).crcRuns = s.crcRuns := by rw [podCount_shape]
@[simp] theorem podCount_pmon (i n : Nat) : (s.podCount i n).pmon = s.pmon := by rw [podCount_shape]
@[simp] theorem podCount_mem (i n : Nat) : (s.podCount i n).mem = s.mem := by rw [podCount_shape]
@[simp] theorem podCount_pending (i n : Nat) : (s.podCount i n).pending = s.pending := by rw [podCount_shape]
@[simp] theorem podCount_nv_serial (i n : Nat) : (s.podCount i n).nv.serial = s.nv.serial := by rw [podCount_shape]
@[simp] theorem podCount_nv_factory (i n : Nat) : (s.podCount i n).nv.factory = s.nv.factory := by rw [podCount_shape]
@[simp] theorem podCount_nv_lockout (i n : Nat) : (s.podCount i n).nv.lockout = s.nv.lockout := by rw [podCount_shape]
@[simp] theorem podCount_nv_safeTimes (i n : Nat) : (s.podCount i n).nv.safeTimes = s.nv.safeTimes := by rw [podCount_shape]
@[simp] theorem podCount_nv_safeTotal (i n : Nat) : (s.podCount i n).nv.safeTotal = s.nv.safeTotal := by rw [podCount_shape]
@[simp] theorem podCount_nv_leave (i n : Nat) : (s.podCount i n).nv.leave = s.nv.leave := by rw [podCount_shape]
@[simp] theorem podCount_nv_epoch (i n : Nat) : (s.podCount i n).nv.epoch = s.nv.epoch := by rw [podCount_shape]
@[simp] theorem podCount_nv_journal (i n : Nat) : (s.podCount i n).nv.journal = s.nv.journal := by rw [podCount_shape]
@[simp] theorem podCount_nv_jix (i n : Nat) : (s.podCount i n).nv.jix = s.nv.jix := by rw [podCount_shape]
@[simp] theorem podCount_nv_wrapped (i n : Nat) : (s.podCount i n).nv.wrapped = s.nv.wrapped := by rw [podCount_shape]
@[simp] theorem podCount_nv_starts (i n : Nat) : (s.podCount i n).nv.starts = s.nv.starts := by rw [podCount_shape]
@[simp] theorem podCount_nv_timeFloor (i n : Nat) : (s.podCount i n).nv.timeFloor = s.nv.timeFloor := by rw [podCount_shape]
@[simp] theorem podCount_nv_tkValid (i n : Nat) : (s.podCount i n).nv.tkValid = s.nv.tkValid := by rw [podCount_shape]
@[simp] theorem podCount_nv_tkSet (i n : Nat) : (s.podCount i n).nv.tkSet = s.nv.tkSet := by rw [podCount_shape]
@[simp] theorem podCount_nv_sealed (i n : Nat) : (s.podCount i n).nv.sealed = s.nv.sealed := by rw [podCount_shape]
@[simp] theorem podCount_nv_repairs (i n : Nat) : (s.podCount i n).nv.repairs = s.nv.repairs := by rw [podCount_shape]
@[simp] theorem podCount_nv_userCal (i n : Nat) : (s.podCount i n).nv.userCal = s.nv.userCal := by rw [podCount_shape]
@[simp] theorem podCount_nv_slots (i n : Nat) : (s.podCount i n).nv.slots = s.nv.slots := by rw [podCount_shape]
@[simp] theorem podCount_nv_keys (i n : Nat) : (s.podCount i n).nv.keys = s.nv.keys := by rw [podCount_shape]
@[simp] theorem podCount_nv_fwKey (i n : Nat) : (s.podCount i n).nv.fwKey = s.nv.fwKey := by rw [podCount_shape]
@[simp] theorem podCount_nv_pgKey (i n : Nat) : (s.podCount i n).nv.pgKey = s.nv.pgKey := by rw [podCount_shape]
@[simp] theorem podCount_nv_lifecycle (i n : Nat) : (s.podCount i n).nv.lifecycle = s.nv.lifecycle := by rw [podCount_shape]
@[simp] theorem podCount_nv_lcNext (i n : Nat) : (s.podCount i n).nv.lcNext = s.nv.lcNext := by rw [podCount_shape]
@[simp] theorem podCount_nv_actEnd (i n : Nat) : (s.podCount i n).nv.actEnd = s.nv.actEnd := by rw [podCount_shape]
@[simp] theorem podCount_nv_ownerHash (i n : Nat) : (s.podCount i n).nv.ownerHash = s.nv.ownerHash := by rw [podCount_shape]
@[simp] theorem podCount_nv_moazalHash (i n : Nat) : (s.podCount i n).nv.moazalHash = s.nv.moazalHash := by rw [podCount_shape]
@[simp] theorem podCount_nv_devicePub (i n : Nat) : (s.podCount i n).nv.devicePub = s.nv.devicePub := by rw [podCount_shape]
@[simp] theorem podCount_nv_svnFw (i n : Nat) : (s.podCount i n).nv.svnFw = s.nv.svnFw := by rw [podCount_shape]
@[simp] theorem podCount_nv_svnPg (i n : Nat) : (s.podCount i n).nv.svnPg = s.nv.svnPg := by rw [podCount_shape]
@[simp] theorem podCount_nv_tamper (i n : Nat) : (s.podCount i n).nv.tamper = s.nv.tamper := by rw [podCount_shape]
@[simp] theorem podCount_nv_tamperDue (i n : Nat) : (s.podCount i n).nv.tamperDue = s.nv.tamperDue := by rw [podCount_shape]
@[simp] theorem podCount_nv_wakes (i n : Nat) : (s.podCount i n).nv.wakes = s.nv.wakes := by rw [podCount_shape]
@[simp] theorem podCount_nv_nonces (i n : Nat) : (s.podCount i n).nv.nonces = s.nv.nonces := by rw [podCount_shape]
@[simp] theorem podCount_nv_epochs (i n : Nat) : (s.podCount i n).nv.epochs = s.nv.epochs := by rw [podCount_shape]

/-! ### `peaCount` -/

@[simp] theorem peaCount_now (p e n : Nat) : (s.peaCount p e n).now = s.now := by rw [peaCount_shape]
@[simp] theorem peaCount_ticks (p e n : Nat) : (s.peaCount p e n).ticks = s.ticks := by rw [peaCount_shape]
@[simp] theorem peaCount_cyc (p e n : Nat) : (s.peaCount p e n).cyc = s.cyc := by rw [peaCount_shape]
@[simp] theorem peaCount_pod (p e n : Nat) : (s.peaCount p e n).pod = s.pod := by rw [peaCount_shape]
@[simp] theorem peaCount_prog (p e n : Nat) : (s.peaCount p e n).prog = s.prog := by rw [peaCount_shape]
@[simp] theorem peaCount_com (p e n : Nat) : (s.peaCount p e n).com = s.com := by rw [peaCount_shape]
@[simp] theorem peaCount_ive (p e n : Nat) : (s.peaCount p e n).ive = s.ive := by rw [peaCount_shape]
@[simp] theorem peaCount_xch (p e n : Nat) : (s.peaCount p e n).xch = s.xch := by rw [peaCount_shape]
@[simp] theorem peaCount_boot (p e n : Nat) : (s.peaCount p e n).boot = s.boot := by rw [peaCount_shape]
@[simp] theorem peaCount_pins (p e n : Nat) : (s.peaCount p e n).pins = s.pins := by rw [peaCount_shape]
@[simp] theorem peaCount_clock (p e n : Nat) : (s.peaCount p e n).clock = s.clock := by rw [peaCount_shape]
@[simp] theorem peaCount_upd (p e n : Nat) : (s.peaCount p e n).upd = s.upd := by rw [peaCount_shape]
@[simp] theorem peaCount_fio (p e n : Nat) : (s.peaCount p e n).fio = s.fio := by rw [peaCount_shape]
@[simp] theorem peaCount_sfb (p e n : Nat) : (s.peaCount p e n).sfb = s.sfb := by rw [peaCount_shape]
@[simp] theorem peaCount_lor (p e n : Nat) : (s.peaCount p e n).lor = s.lor := by rw [peaCount_shape]
@[simp] theorem peaCount_rings (p e n : Nat) : (s.peaCount p e n).rings = s.rings := by rw [peaCount_shape]
@[simp] theorem peaCount_twin (p e n : Nat) : (s.peaCount p e n).twin = s.twin := by rw [peaCount_shape]
@[simp] theorem peaCount_queues (p e n : Nat) : (s.peaCount p e n).queues = s.queues := by rw [peaCount_shape]
@[simp] theorem peaCount_posted (p e n : Nat) : (s.peaCount p e n).posted = s.posted := by rw [peaCount_shape]
@[simp] theorem peaCount_sessions (p e n : Nat) : (s.peaCount p e n).sessions = s.sessions := by rw [peaCount_shape]
@[simp] theorem peaCount_hosts (p e n : Nat) : (s.peaCount p e n).hosts = s.hosts := by rw [peaCount_shape]
@[simp] theorem peaCount_out (p e n : Nat) : (s.peaCount p e n).out = s.out := by rw [peaCount_shape]
@[simp] theorem peaCount_crcRuns (p e n : Nat) : (s.peaCount p e n).crcRuns = s.crcRuns := by rw [peaCount_shape]
@[simp] theorem peaCount_pmon (p e n : Nat) : (s.peaCount p e n).pmon = s.pmon := by rw [peaCount_shape]
@[simp] theorem peaCount_mem (p e n : Nat) : (s.peaCount p e n).mem = s.mem := by rw [peaCount_shape]
@[simp] theorem peaCount_pending (p e n : Nat) : (s.peaCount p e n).pending = s.pending := by rw [peaCount_shape]
@[simp] theorem peaCount_nv_serial (p e n : Nat) : (s.peaCount p e n).nv.serial = s.nv.serial := by rw [peaCount_shape]
@[simp] theorem peaCount_nv_factory (p e n : Nat) : (s.peaCount p e n).nv.factory = s.nv.factory := by rw [peaCount_shape]
@[simp] theorem peaCount_nv_lockout (p e n : Nat) : (s.peaCount p e n).nv.lockout = s.nv.lockout := by rw [peaCount_shape]
@[simp] theorem peaCount_nv_safeTimes (p e n : Nat) : (s.peaCount p e n).nv.safeTimes = s.nv.safeTimes := by rw [peaCount_shape]
@[simp] theorem peaCount_nv_safeTotal (p e n : Nat) : (s.peaCount p e n).nv.safeTotal = s.nv.safeTotal := by rw [peaCount_shape]
@[simp] theorem peaCount_nv_leave (p e n : Nat) : (s.peaCount p e n).nv.leave = s.nv.leave := by rw [peaCount_shape]
@[simp] theorem peaCount_nv_epoch (p e n : Nat) : (s.peaCount p e n).nv.epoch = s.nv.epoch := by rw [peaCount_shape]
@[simp] theorem peaCount_nv_journal (p e n : Nat) : (s.peaCount p e n).nv.journal = s.nv.journal := by rw [peaCount_shape]
@[simp] theorem peaCount_nv_jix (p e n : Nat) : (s.peaCount p e n).nv.jix = s.nv.jix := by rw [peaCount_shape]
@[simp] theorem peaCount_nv_wrapped (p e n : Nat) : (s.peaCount p e n).nv.wrapped = s.nv.wrapped := by rw [peaCount_shape]
@[simp] theorem peaCount_nv_starts (p e n : Nat) : (s.peaCount p e n).nv.starts = s.nv.starts := by rw [peaCount_shape]
@[simp] theorem peaCount_nv_timeFloor (p e n : Nat) : (s.peaCount p e n).nv.timeFloor = s.nv.timeFloor := by rw [peaCount_shape]
@[simp] theorem peaCount_nv_tkValid (p e n : Nat) : (s.peaCount p e n).nv.tkValid = s.nv.tkValid := by rw [peaCount_shape]
@[simp] theorem peaCount_nv_tkSet (p e n : Nat) : (s.peaCount p e n).nv.tkSet = s.nv.tkSet := by rw [peaCount_shape]
@[simp] theorem peaCount_nv_sealed (p e n : Nat) : (s.peaCount p e n).nv.sealed = s.nv.sealed := by rw [peaCount_shape]
@[simp] theorem peaCount_nv_repairs (p e n : Nat) : (s.peaCount p e n).nv.repairs = s.nv.repairs := by rw [peaCount_shape]
@[simp] theorem peaCount_nv_userCal (p e n : Nat) : (s.peaCount p e n).nv.userCal = s.nv.userCal := by rw [peaCount_shape]
@[simp] theorem peaCount_nv_slots (p e n : Nat) : (s.peaCount p e n).nv.slots = s.nv.slots := by rw [peaCount_shape]
@[simp] theorem peaCount_nv_keys (p e n : Nat) : (s.peaCount p e n).nv.keys = s.nv.keys := by rw [peaCount_shape]
@[simp] theorem peaCount_nv_fwKey (p e n : Nat) : (s.peaCount p e n).nv.fwKey = s.nv.fwKey := by rw [peaCount_shape]
@[simp] theorem peaCount_nv_pgKey (p e n : Nat) : (s.peaCount p e n).nv.pgKey = s.nv.pgKey := by rw [peaCount_shape]
@[simp] theorem peaCount_nv_lifecycle (p e n : Nat) : (s.peaCount p e n).nv.lifecycle = s.nv.lifecycle := by rw [peaCount_shape]
@[simp] theorem peaCount_nv_lcNext (p e n : Nat) : (s.peaCount p e n).nv.lcNext = s.nv.lcNext := by rw [peaCount_shape]
@[simp] theorem peaCount_nv_actEnd (p e n : Nat) : (s.peaCount p e n).nv.actEnd = s.nv.actEnd := by rw [peaCount_shape]
@[simp] theorem peaCount_nv_ownerHash (p e n : Nat) : (s.peaCount p e n).nv.ownerHash = s.nv.ownerHash := by rw [peaCount_shape]
@[simp] theorem peaCount_nv_moazalHash (p e n : Nat) : (s.peaCount p e n).nv.moazalHash = s.nv.moazalHash := by rw [peaCount_shape]
@[simp] theorem peaCount_nv_devicePub (p e n : Nat) : (s.peaCount p e n).nv.devicePub = s.nv.devicePub := by rw [peaCount_shape]
@[simp] theorem peaCount_nv_svnFw (p e n : Nat) : (s.peaCount p e n).nv.svnFw = s.nv.svnFw := by rw [peaCount_shape]
@[simp] theorem peaCount_nv_svnPg (p e n : Nat) : (s.peaCount p e n).nv.svnPg = s.nv.svnPg := by rw [peaCount_shape]
@[simp] theorem peaCount_nv_tamper (p e n : Nat) : (s.peaCount p e n).nv.tamper = s.nv.tamper := by rw [peaCount_shape]
@[simp] theorem peaCount_nv_tamperDue (p e n : Nat) : (s.peaCount p e n).nv.tamperDue = s.nv.tamperDue := by rw [peaCount_shape]
@[simp] theorem peaCount_nv_wakes (p e n : Nat) : (s.peaCount p e n).nv.wakes = s.nv.wakes := by rw [peaCount_shape]
@[simp] theorem peaCount_nv_nonces (p e n : Nat) : (s.peaCount p e n).nv.nonces = s.nv.nonces := by rw [peaCount_shape]
@[simp] theorem peaCount_nv_epochs (p e n : Nat) : (s.peaCount p e n).nv.epochs = s.nv.epochs := by rw [peaCount_shape]

/-! ### `stage` -/

@[simp] theorem stage_now (r : Rec) : (s.stage r).now = s.now := by rw [(stage_noted s r).1]
@[simp] theorem stage_ticks (r : Rec) : (s.stage r).ticks = s.ticks := by rw [(stage_noted s r).1]
@[simp] theorem stage_cyc (r : Rec) : (s.stage r).cyc = s.cyc := by rw [(stage_noted s r).1]
@[simp] theorem stage_pod (r : Rec) : (s.stage r).pod = s.pod := by rw [(stage_noted s r).1]
@[simp] theorem stage_prog (r : Rec) : (s.stage r).prog = s.prog := by rw [(stage_noted s r).1]
@[simp] theorem stage_com (r : Rec) : (s.stage r).com = s.com := by rw [(stage_noted s r).1]
@[simp] theorem stage_ive (r : Rec) : (s.stage r).ive = s.ive := by rw [(stage_noted s r).1]
@[simp] theorem stage_xch (r : Rec) : (s.stage r).xch = s.xch := by rw [(stage_noted s r).1]
@[simp] theorem stage_boot (r : Rec) : (s.stage r).boot = s.boot := by rw [(stage_noted s r).1]
@[simp] theorem stage_pins (r : Rec) : (s.stage r).pins = s.pins := by rw [(stage_noted s r).1]
@[simp] theorem stage_clock (r : Rec) : (s.stage r).clock = s.clock := by rw [(stage_noted s r).1]
@[simp] theorem stage_upd (r : Rec) : (s.stage r).upd = s.upd := by rw [(stage_noted s r).1]
@[simp] theorem stage_fio (r : Rec) : (s.stage r).fio = s.fio := by rw [(stage_noted s r).1]
@[simp] theorem stage_sfb (r : Rec) : (s.stage r).sfb = s.sfb := by rw [(stage_noted s r).1]
@[simp] theorem stage_lor (r : Rec) : (s.stage r).lor = s.lor := by rw [(stage_noted s r).1]
@[simp] theorem stage_rings (r : Rec) : (s.stage r).rings = s.rings := by rw [(stage_noted s r).1]
@[simp] theorem stage_twin (r : Rec) : (s.stage r).twin = s.twin := by rw [(stage_noted s r).1]
@[simp] theorem stage_queues (r : Rec) : (s.stage r).queues = s.queues := by rw [(stage_noted s r).1]
@[simp] theorem stage_posted (r : Rec) : (s.stage r).posted = s.posted := by rw [(stage_noted s r).1]
@[simp] theorem stage_sessions (r : Rec) : (s.stage r).sessions = s.sessions := by rw [(stage_noted s r).1]
@[simp] theorem stage_hosts (r : Rec) : (s.stage r).hosts = s.hosts := by rw [(stage_noted s r).1]
@[simp] theorem stage_out (r : Rec) : (s.stage r).out = s.out := by rw [(stage_noted s r).1]
@[simp] theorem stage_crcRuns (r : Rec) : (s.stage r).crcRuns = s.crcRuns := by rw [(stage_noted s r).1]
@[simp] theorem stage_pmon (r : Rec) : (s.stage r).pmon = s.pmon := by rw [(stage_noted s r).1]
@[simp] theorem stage_mem (r : Rec) : (s.stage r).mem = s.mem := by rw [(stage_noted s r).1]
@[simp] theorem stage_pending (r : Rec) : (s.stage r).pending = s.pending := by rw [(stage_noted s r).1]
@[simp] theorem stage_nv_serial (r : Rec) : (s.stage r).nv.serial = s.nv.serial := by rw [(stage_noted s r).1]
@[simp] theorem stage_nv_factory (r : Rec) : (s.stage r).nv.factory = s.nv.factory := by rw [(stage_noted s r).1]
@[simp] theorem stage_nv_lockout (r : Rec) : (s.stage r).nv.lockout = s.nv.lockout := by rw [(stage_noted s r).1]
@[simp] theorem stage_nv_safeTimes (r : Rec) : (s.stage r).nv.safeTimes = s.nv.safeTimes := by rw [(stage_noted s r).1]
@[simp] theorem stage_nv_safeTotal (r : Rec) : (s.stage r).nv.safeTotal = s.nv.safeTotal := by rw [(stage_noted s r).1]
@[simp] theorem stage_nv_leave (r : Rec) : (s.stage r).nv.leave = s.nv.leave := by rw [(stage_noted s r).1]
@[simp] theorem stage_nv_epoch (r : Rec) : (s.stage r).nv.epoch = s.nv.epoch := by rw [(stage_noted s r).1]
@[simp] theorem stage_nv_journal (r : Rec) : (s.stage r).nv.journal = s.nv.journal := by rw [(stage_noted s r).1]
@[simp] theorem stage_nv_jix (r : Rec) : (s.stage r).nv.jix = s.nv.jix := by rw [(stage_noted s r).1]
@[simp] theorem stage_nv_wrapped (r : Rec) : (s.stage r).nv.wrapped = s.nv.wrapped := by rw [(stage_noted s r).1]
@[simp] theorem stage_nv_starts (r : Rec) : (s.stage r).nv.starts = s.nv.starts := by rw [(stage_noted s r).1]
@[simp] theorem stage_nv_timeFloor (r : Rec) : (s.stage r).nv.timeFloor = s.nv.timeFloor := by rw [(stage_noted s r).1]
@[simp] theorem stage_nv_tkValid (r : Rec) : (s.stage r).nv.tkValid = s.nv.tkValid := by rw [(stage_noted s r).1]
@[simp] theorem stage_nv_tkSet (r : Rec) : (s.stage r).nv.tkSet = s.nv.tkSet := by rw [(stage_noted s r).1]
@[simp] theorem stage_nv_sealed (r : Rec) : (s.stage r).nv.sealed = s.nv.sealed := by rw [(stage_noted s r).1]
@[simp] theorem stage_nv_repairs (r : Rec) : (s.stage r).nv.repairs = s.nv.repairs := by rw [(stage_noted s r).1]
@[simp] theorem stage_nv_userCal (r : Rec) : (s.stage r).nv.userCal = s.nv.userCal := by rw [(stage_noted s r).1]
@[simp] theorem stage_nv_slots (r : Rec) : (s.stage r).nv.slots = s.nv.slots := by rw [(stage_noted s r).1]
@[simp] theorem stage_nv_keys (r : Rec) : (s.stage r).nv.keys = s.nv.keys := by rw [(stage_noted s r).1]
@[simp] theorem stage_nv_fwKey (r : Rec) : (s.stage r).nv.fwKey = s.nv.fwKey := by rw [(stage_noted s r).1]
@[simp] theorem stage_nv_pgKey (r : Rec) : (s.stage r).nv.pgKey = s.nv.pgKey := by rw [(stage_noted s r).1]
@[simp] theorem stage_nv_lifecycle (r : Rec) : (s.stage r).nv.lifecycle = s.nv.lifecycle := by rw [(stage_noted s r).1]
@[simp] theorem stage_nv_lcNext (r : Rec) : (s.stage r).nv.lcNext = s.nv.lcNext := by rw [(stage_noted s r).1]
@[simp] theorem stage_nv_actEnd (r : Rec) : (s.stage r).nv.actEnd = s.nv.actEnd := by rw [(stage_noted s r).1]
@[simp] theorem stage_nv_ownerHash (r : Rec) : (s.stage r).nv.ownerHash = s.nv.ownerHash := by rw [(stage_noted s r).1]
@[simp] theorem stage_nv_moazalHash (r : Rec) : (s.stage r).nv.moazalHash = s.nv.moazalHash := by rw [(stage_noted s r).1]
@[simp] theorem stage_nv_devicePub (r : Rec) : (s.stage r).nv.devicePub = s.nv.devicePub := by rw [(stage_noted s r).1]
@[simp] theorem stage_nv_svnFw (r : Rec) : (s.stage r).nv.svnFw = s.nv.svnFw := by rw [(stage_noted s r).1]
@[simp] theorem stage_nv_svnPg (r : Rec) : (s.stage r).nv.svnPg = s.nv.svnPg := by rw [(stage_noted s r).1]
@[simp] theorem stage_nv_tamper (r : Rec) : (s.stage r).nv.tamper = s.nv.tamper := by rw [(stage_noted s r).1]
@[simp] theorem stage_nv_tamperDue (r : Rec) : (s.stage r).nv.tamperDue = s.nv.tamperDue := by rw [(stage_noted s r).1]
@[simp] theorem stage_nv_wakes (r : Rec) : (s.stage r).nv.wakes = s.nv.wakes := by rw [(stage_noted s r).1]
@[simp] theorem stage_nv_nonces (r : Rec) : (s.stage r).nv.nonces = s.nv.nonces := by rw [(stage_noted s r).1]
@[simp] theorem stage_nv_epochs (r : Rec) : (s.stage r).nv.epochs = s.nv.epochs := by rw [(stage_noted s r).1]

/-! ### `raiseRec` -/

@[simp] theorem raiseRec_now (c p : Nat) (w : Word) (b : List Word) : (s.raiseRec c p w b).now = s.now := by
  rw [(raiseRec_noted s c p w b).1]
@[simp] theorem raiseRec_ticks (c p : Nat) (w : Word) (b : List Word) : (s.raiseRec c p w b).ticks = s.ticks := by
  rw [(raiseRec_noted s c p w b).1]
@[simp] theorem raiseRec_cyc (c p : Nat) (w : Word) (b : List Word) : (s.raiseRec c p w b).cyc = s.cyc := by
  rw [(raiseRec_noted s c p w b).1]
@[simp] theorem raiseRec_pod (c p : Nat) (w : Word) (b : List Word) : (s.raiseRec c p w b).pod = s.pod := by
  rw [(raiseRec_noted s c p w b).1]
@[simp] theorem raiseRec_prog (c p : Nat) (w : Word) (b : List Word) : (s.raiseRec c p w b).prog = s.prog := by
  rw [(raiseRec_noted s c p w b).1]
@[simp] theorem raiseRec_com (c p : Nat) (w : Word) (b : List Word) : (s.raiseRec c p w b).com = s.com := by
  rw [(raiseRec_noted s c p w b).1]
@[simp] theorem raiseRec_ive (c p : Nat) (w : Word) (b : List Word) : (s.raiseRec c p w b).ive = s.ive := by
  rw [(raiseRec_noted s c p w b).1]
@[simp] theorem raiseRec_xch (c p : Nat) (w : Word) (b : List Word) : (s.raiseRec c p w b).xch = s.xch := by
  rw [(raiseRec_noted s c p w b).1]
@[simp] theorem raiseRec_boot (c p : Nat) (w : Word) (b : List Word) : (s.raiseRec c p w b).boot = s.boot := by
  rw [(raiseRec_noted s c p w b).1]
@[simp] theorem raiseRec_pins (c p : Nat) (w : Word) (b : List Word) : (s.raiseRec c p w b).pins = s.pins := by
  rw [(raiseRec_noted s c p w b).1]
@[simp] theorem raiseRec_clock (c p : Nat) (w : Word) (b : List Word) : (s.raiseRec c p w b).clock = s.clock := by
  rw [(raiseRec_noted s c p w b).1]
@[simp] theorem raiseRec_upd (c p : Nat) (w : Word) (b : List Word) : (s.raiseRec c p w b).upd = s.upd := by
  rw [(raiseRec_noted s c p w b).1]
@[simp] theorem raiseRec_fio (c p : Nat) (w : Word) (b : List Word) : (s.raiseRec c p w b).fio = s.fio := by
  rw [(raiseRec_noted s c p w b).1]
@[simp] theorem raiseRec_sfb (c p : Nat) (w : Word) (b : List Word) : (s.raiseRec c p w b).sfb = s.sfb := by
  rw [(raiseRec_noted s c p w b).1]
@[simp] theorem raiseRec_lor (c p : Nat) (w : Word) (b : List Word) : (s.raiseRec c p w b).lor = s.lor := by
  rw [(raiseRec_noted s c p w b).1]
@[simp] theorem raiseRec_rings (c p : Nat) (w : Word) (b : List Word) : (s.raiseRec c p w b).rings = s.rings := by
  rw [(raiseRec_noted s c p w b).1]
@[simp] theorem raiseRec_twin (c p : Nat) (w : Word) (b : List Word) : (s.raiseRec c p w b).twin = s.twin := by
  rw [(raiseRec_noted s c p w b).1]
@[simp] theorem raiseRec_queues (c p : Nat) (w : Word) (b : List Word) : (s.raiseRec c p w b).queues = s.queues := by
  rw [(raiseRec_noted s c p w b).1]
@[simp] theorem raiseRec_posted (c p : Nat) (w : Word) (b : List Word) : (s.raiseRec c p w b).posted = s.posted := by
  rw [(raiseRec_noted s c p w b).1]
@[simp] theorem raiseRec_sessions (c p : Nat) (w : Word) (b : List Word) : (s.raiseRec c p w b).sessions = s.sessions := by
  rw [(raiseRec_noted s c p w b).1]
@[simp] theorem raiseRec_hosts (c p : Nat) (w : Word) (b : List Word) : (s.raiseRec c p w b).hosts = s.hosts := by
  rw [(raiseRec_noted s c p w b).1]
@[simp] theorem raiseRec_out (c p : Nat) (w : Word) (b : List Word) : (s.raiseRec c p w b).out = s.out := by
  rw [(raiseRec_noted s c p w b).1]
@[simp] theorem raiseRec_crcRuns (c p : Nat) (w : Word) (b : List Word) : (s.raiseRec c p w b).crcRuns = s.crcRuns := by
  rw [(raiseRec_noted s c p w b).1]
@[simp] theorem raiseRec_pmon (c p : Nat) (w : Word) (b : List Word) : (s.raiseRec c p w b).pmon = s.pmon := by
  rw [(raiseRec_noted s c p w b).1]
@[simp] theorem raiseRec_mem (c p : Nat) (w : Word) (b : List Word) : (s.raiseRec c p w b).mem = s.mem := by
  rw [(raiseRec_noted s c p w b).1]
@[simp] theorem raiseRec_pending (c p : Nat) (w : Word) (b : List Word) : (s.raiseRec c p w b).pending = s.pending := by
  rw [(raiseRec_noted s c p w b).1]
@[simp] theorem raiseRec_nv_serial (c p : Nat) (w : Word) (b : List Word) : (s.raiseRec c p w b).nv.serial = s.nv.serial := by
  rw [(raiseRec_noted s c p w b).1]
@[simp] theorem raiseRec_nv_factory (c p : Nat) (w : Word) (b : List Word) : (s.raiseRec c p w b).nv.factory = s.nv.factory := by
  rw [(raiseRec_noted s c p w b).1]
@[simp] theorem raiseRec_nv_lockout (c p : Nat) (w : Word) (b : List Word) : (s.raiseRec c p w b).nv.lockout = s.nv.lockout := by
  rw [(raiseRec_noted s c p w b).1]
@[simp] theorem raiseRec_nv_safeTimes (c p : Nat) (w : Word) (b : List Word) : (s.raiseRec c p w b).nv.safeTimes = s.nv.safeTimes := by
  rw [(raiseRec_noted s c p w b).1]
@[simp] theorem raiseRec_nv_safeTotal (c p : Nat) (w : Word) (b : List Word) : (s.raiseRec c p w b).nv.safeTotal = s.nv.safeTotal := by
  rw [(raiseRec_noted s c p w b).1]
@[simp] theorem raiseRec_nv_leave (c p : Nat) (w : Word) (b : List Word) : (s.raiseRec c p w b).nv.leave = s.nv.leave := by
  rw [(raiseRec_noted s c p w b).1]
@[simp] theorem raiseRec_nv_epoch (c p : Nat) (w : Word) (b : List Word) : (s.raiseRec c p w b).nv.epoch = s.nv.epoch := by
  rw [(raiseRec_noted s c p w b).1]
@[simp] theorem raiseRec_nv_journal (c p : Nat) (w : Word) (b : List Word) : (s.raiseRec c p w b).nv.journal = s.nv.journal := by
  rw [(raiseRec_noted s c p w b).1]
@[simp] theorem raiseRec_nv_jix (c p : Nat) (w : Word) (b : List Word) : (s.raiseRec c p w b).nv.jix = s.nv.jix := by
  rw [(raiseRec_noted s c p w b).1]
@[simp] theorem raiseRec_nv_wrapped (c p : Nat) (w : Word) (b : List Word) : (s.raiseRec c p w b).nv.wrapped = s.nv.wrapped := by
  rw [(raiseRec_noted s c p w b).1]
@[simp] theorem raiseRec_nv_starts (c p : Nat) (w : Word) (b : List Word) : (s.raiseRec c p w b).nv.starts = s.nv.starts := by
  rw [(raiseRec_noted s c p w b).1]
@[simp] theorem raiseRec_nv_timeFloor (c p : Nat) (w : Word) (b : List Word) : (s.raiseRec c p w b).nv.timeFloor = s.nv.timeFloor := by
  rw [(raiseRec_noted s c p w b).1]
@[simp] theorem raiseRec_nv_tkValid (c p : Nat) (w : Word) (b : List Word) : (s.raiseRec c p w b).nv.tkValid = s.nv.tkValid := by
  rw [(raiseRec_noted s c p w b).1]
@[simp] theorem raiseRec_nv_tkSet (c p : Nat) (w : Word) (b : List Word) : (s.raiseRec c p w b).nv.tkSet = s.nv.tkSet := by
  rw [(raiseRec_noted s c p w b).1]
@[simp] theorem raiseRec_nv_sealed (c p : Nat) (w : Word) (b : List Word) : (s.raiseRec c p w b).nv.sealed = s.nv.sealed := by
  rw [(raiseRec_noted s c p w b).1]
@[simp] theorem raiseRec_nv_repairs (c p : Nat) (w : Word) (b : List Word) : (s.raiseRec c p w b).nv.repairs = s.nv.repairs := by
  rw [(raiseRec_noted s c p w b).1]
@[simp] theorem raiseRec_nv_userCal (c p : Nat) (w : Word) (b : List Word) : (s.raiseRec c p w b).nv.userCal = s.nv.userCal := by
  rw [(raiseRec_noted s c p w b).1]
@[simp] theorem raiseRec_nv_slots (c p : Nat) (w : Word) (b : List Word) : (s.raiseRec c p w b).nv.slots = s.nv.slots := by
  rw [(raiseRec_noted s c p w b).1]
@[simp] theorem raiseRec_nv_keys (c p : Nat) (w : Word) (b : List Word) : (s.raiseRec c p w b).nv.keys = s.nv.keys := by
  rw [(raiseRec_noted s c p w b).1]
@[simp] theorem raiseRec_nv_fwKey (c p : Nat) (w : Word) (b : List Word) : (s.raiseRec c p w b).nv.fwKey = s.nv.fwKey := by
  rw [(raiseRec_noted s c p w b).1]
@[simp] theorem raiseRec_nv_pgKey (c p : Nat) (w : Word) (b : List Word) : (s.raiseRec c p w b).nv.pgKey = s.nv.pgKey := by
  rw [(raiseRec_noted s c p w b).1]
@[simp] theorem raiseRec_nv_lifecycle (c p : Nat) (w : Word) (b : List Word) : (s.raiseRec c p w b).nv.lifecycle = s.nv.lifecycle := by
  rw [(raiseRec_noted s c p w b).1]
@[simp] theorem raiseRec_nv_lcNext (c p : Nat) (w : Word) (b : List Word) : (s.raiseRec c p w b).nv.lcNext = s.nv.lcNext := by
  rw [(raiseRec_noted s c p w b).1]
@[simp] theorem raiseRec_nv_actEnd (c p : Nat) (w : Word) (b : List Word) : (s.raiseRec c p w b).nv.actEnd = s.nv.actEnd := by
  rw [(raiseRec_noted s c p w b).1]
@[simp] theorem raiseRec_nv_ownerHash (c p : Nat) (w : Word) (b : List Word) : (s.raiseRec c p w b).nv.ownerHash = s.nv.ownerHash := by
  rw [(raiseRec_noted s c p w b).1]
@[simp] theorem raiseRec_nv_moazalHash (c p : Nat) (w : Word) (b : List Word) : (s.raiseRec c p w b).nv.moazalHash = s.nv.moazalHash := by
  rw [(raiseRec_noted s c p w b).1]
@[simp] theorem raiseRec_nv_devicePub (c p : Nat) (w : Word) (b : List Word) : (s.raiseRec c p w b).nv.devicePub = s.nv.devicePub := by
  rw [(raiseRec_noted s c p w b).1]
@[simp] theorem raiseRec_nv_svnFw (c p : Nat) (w : Word) (b : List Word) : (s.raiseRec c p w b).nv.svnFw = s.nv.svnFw := by
  rw [(raiseRec_noted s c p w b).1]
@[simp] theorem raiseRec_nv_svnPg (c p : Nat) (w : Word) (b : List Word) : (s.raiseRec c p w b).nv.svnPg = s.nv.svnPg := by
  rw [(raiseRec_noted s c p w b).1]
@[simp] theorem raiseRec_nv_tamper (c p : Nat) (w : Word) (b : List Word) : (s.raiseRec c p w b).nv.tamper = s.nv.tamper := by
  rw [(raiseRec_noted s c p w b).1]
@[simp] theorem raiseRec_nv_tamperDue (c p : Nat) (w : Word) (b : List Word) : (s.raiseRec c p w b).nv.tamperDue = s.nv.tamperDue := by
  rw [(raiseRec_noted s c p w b).1]
@[simp] theorem raiseRec_nv_wakes (c p : Nat) (w : Word) (b : List Word) : (s.raiseRec c p w b).nv.wakes = s.nv.wakes := by
  rw [(raiseRec_noted s c p w b).1]
@[simp] theorem raiseRec_nv_nonces (c p : Nat) (w : Word) (b : List Word) : (s.raiseRec c p w b).nv.nonces = s.nv.nonces := by
  rw [(raiseRec_noted s c p w b).1]
@[simp] theorem raiseRec_nv_epochs (c p : Nat) (w : Word) (b : List Word) : (s.raiseRec c p w b).nv.epochs = s.nv.epochs := by
  rw [(raiseRec_noted s c p w b).1]

/-! ### `raiseRecTo` -/

@[simp] theorem raiseRecTo_now (c p : Nat) (w : Word) (b : List Word) (d : Option Nat) : (s.raiseRecTo c p w b d).now = s.now := by
  rw [(raiseRecTo_noted s c p w b d).1]
@[simp] theorem raiseRecTo_ticks (c p : Nat) (w : Word) (b : List Word) (d : Option Nat) : (s.raiseRecTo c p w b d).ticks = s.ticks := by
  rw [(raiseRecTo_noted s c p w b d).1]
@[simp] theorem raiseRecTo_cyc (c p : Nat) (w : Word) (b : List Word) (d : Option Nat) : (s.raiseRecTo c p w b d).cyc = s.cyc := by
  rw [(raiseRecTo_noted s c p w b d).1]
@[simp] theorem raiseRecTo_pod (c p : Nat) (w : Word) (b : List Word) (d : Option Nat) : (s.raiseRecTo c p w b d).pod = s.pod := by
  rw [(raiseRecTo_noted s c p w b d).1]
@[simp] theorem raiseRecTo_prog (c p : Nat) (w : Word) (b : List Word) (d : Option Nat) : (s.raiseRecTo c p w b d).prog = s.prog := by
  rw [(raiseRecTo_noted s c p w b d).1]
@[simp] theorem raiseRecTo_com (c p : Nat) (w : Word) (b : List Word) (d : Option Nat) : (s.raiseRecTo c p w b d).com = s.com := by
  rw [(raiseRecTo_noted s c p w b d).1]
@[simp] theorem raiseRecTo_ive (c p : Nat) (w : Word) (b : List Word) (d : Option Nat) : (s.raiseRecTo c p w b d).ive = s.ive := by
  rw [(raiseRecTo_noted s c p w b d).1]
@[simp] theorem raiseRecTo_xch (c p : Nat) (w : Word) (b : List Word) (d : Option Nat) : (s.raiseRecTo c p w b d).xch = s.xch := by
  rw [(raiseRecTo_noted s c p w b d).1]
@[simp] theorem raiseRecTo_boot (c p : Nat) (w : Word) (b : List Word) (d : Option Nat) : (s.raiseRecTo c p w b d).boot = s.boot := by
  rw [(raiseRecTo_noted s c p w b d).1]
@[simp] theorem raiseRecTo_pins (c p : Nat) (w : Word) (b : List Word) (d : Option Nat) : (s.raiseRecTo c p w b d).pins = s.pins := by
  rw [(raiseRecTo_noted s c p w b d).1]
@[simp] theorem raiseRecTo_clock (c p : Nat) (w : Word) (b : List Word) (d : Option Nat) : (s.raiseRecTo c p w b d).clock = s.clock := by
  rw [(raiseRecTo_noted s c p w b d).1]
@[simp] theorem raiseRecTo_upd (c p : Nat) (w : Word) (b : List Word) (d : Option Nat) : (s.raiseRecTo c p w b d).upd = s.upd := by
  rw [(raiseRecTo_noted s c p w b d).1]
@[simp] theorem raiseRecTo_fio (c p : Nat) (w : Word) (b : List Word) (d : Option Nat) : (s.raiseRecTo c p w b d).fio = s.fio := by
  rw [(raiseRecTo_noted s c p w b d).1]
@[simp] theorem raiseRecTo_sfb (c p : Nat) (w : Word) (b : List Word) (d : Option Nat) : (s.raiseRecTo c p w b d).sfb = s.sfb := by
  rw [(raiseRecTo_noted s c p w b d).1]
@[simp] theorem raiseRecTo_lor (c p : Nat) (w : Word) (b : List Word) (d : Option Nat) : (s.raiseRecTo c p w b d).lor = s.lor := by
  rw [(raiseRecTo_noted s c p w b d).1]
@[simp] theorem raiseRecTo_rings (c p : Nat) (w : Word) (b : List Word) (d : Option Nat) : (s.raiseRecTo c p w b d).rings = s.rings := by
  rw [(raiseRecTo_noted s c p w b d).1]
@[simp] theorem raiseRecTo_twin (c p : Nat) (w : Word) (b : List Word) (d : Option Nat) : (s.raiseRecTo c p w b d).twin = s.twin := by
  rw [(raiseRecTo_noted s c p w b d).1]
@[simp] theorem raiseRecTo_queues (c p : Nat) (w : Word) (b : List Word) (d : Option Nat) : (s.raiseRecTo c p w b d).queues = s.queues := by
  rw [(raiseRecTo_noted s c p w b d).1]
@[simp] theorem raiseRecTo_posted (c p : Nat) (w : Word) (b : List Word) (d : Option Nat) : (s.raiseRecTo c p w b d).posted = s.posted := by
  rw [(raiseRecTo_noted s c p w b d).1]
@[simp] theorem raiseRecTo_sessions (c p : Nat) (w : Word) (b : List Word) (d : Option Nat) : (s.raiseRecTo c p w b d).sessions = s.sessions := by
  rw [(raiseRecTo_noted s c p w b d).1]
@[simp] theorem raiseRecTo_hosts (c p : Nat) (w : Word) (b : List Word) (d : Option Nat) : (s.raiseRecTo c p w b d).hosts = s.hosts := by
  rw [(raiseRecTo_noted s c p w b d).1]
@[simp] theorem raiseRecTo_out (c p : Nat) (w : Word) (b : List Word) (d : Option Nat) : (s.raiseRecTo c p w b d).out = s.out := by
  rw [(raiseRecTo_noted s c p w b d).1]
@[simp] theorem raiseRecTo_crcRuns (c p : Nat) (w : Word) (b : List Word) (d : Option Nat) : (s.raiseRecTo c p w b d).crcRuns = s.crcRuns := by
  rw [(raiseRecTo_noted s c p w b d).1]
@[simp] theorem raiseRecTo_pmon (c p : Nat) (w : Word) (b : List Word) (d : Option Nat) : (s.raiseRecTo c p w b d).pmon = s.pmon := by
  rw [(raiseRecTo_noted s c p w b d).1]
@[simp] theorem raiseRecTo_mem (c p : Nat) (w : Word) (b : List Word) (d : Option Nat) : (s.raiseRecTo c p w b d).mem = s.mem := by
  rw [(raiseRecTo_noted s c p w b d).1]
@[simp] theorem raiseRecTo_pending (c p : Nat) (w : Word) (b : List Word) (d : Option Nat) : (s.raiseRecTo c p w b d).pending = s.pending := by
  rw [(raiseRecTo_noted s c p w b d).1]
@[simp] theorem raiseRecTo_nv_serial (c p : Nat) (w : Word) (b : List Word) (d : Option Nat) : (s.raiseRecTo c p w b d).nv.serial = s.nv.serial := by
  rw [(raiseRecTo_noted s c p w b d).1]
@[simp] theorem raiseRecTo_nv_factory (c p : Nat) (w : Word) (b : List Word) (d : Option Nat) : (s.raiseRecTo c p w b d).nv.factory = s.nv.factory := by
  rw [(raiseRecTo_noted s c p w b d).1]
@[simp] theorem raiseRecTo_nv_lockout (c p : Nat) (w : Word) (b : List Word) (d : Option Nat) : (s.raiseRecTo c p w b d).nv.lockout = s.nv.lockout := by
  rw [(raiseRecTo_noted s c p w b d).1]
@[simp] theorem raiseRecTo_nv_safeTimes (c p : Nat) (w : Word) (b : List Word) (d : Option Nat) : (s.raiseRecTo c p w b d).nv.safeTimes = s.nv.safeTimes := by
  rw [(raiseRecTo_noted s c p w b d).1]
@[simp] theorem raiseRecTo_nv_safeTotal (c p : Nat) (w : Word) (b : List Word) (d : Option Nat) : (s.raiseRecTo c p w b d).nv.safeTotal = s.nv.safeTotal := by
  rw [(raiseRecTo_noted s c p w b d).1]
@[simp] theorem raiseRecTo_nv_leave (c p : Nat) (w : Word) (b : List Word) (d : Option Nat) : (s.raiseRecTo c p w b d).nv.leave = s.nv.leave := by
  rw [(raiseRecTo_noted s c p w b d).1]
@[simp] theorem raiseRecTo_nv_epoch (c p : Nat) (w : Word) (b : List Word) (d : Option Nat) : (s.raiseRecTo c p w b d).nv.epoch = s.nv.epoch := by
  rw [(raiseRecTo_noted s c p w b d).1]
@[simp] theorem raiseRecTo_nv_journal (c p : Nat) (w : Word) (b : List Word) (d : Option Nat) : (s.raiseRecTo c p w b d).nv.journal = s.nv.journal := by
  rw [(raiseRecTo_noted s c p w b d).1]
@[simp] theorem raiseRecTo_nv_jix (c p : Nat) (w : Word) (b : List Word) (d : Option Nat) : (s.raiseRecTo c p w b d).nv.jix = s.nv.jix := by
  rw [(raiseRecTo_noted s c p w b d).1]
@[simp] theorem raiseRecTo_nv_wrapped (c p : Nat) (w : Word) (b : List Word) (d : Option Nat) : (s.raiseRecTo c p w b d).nv.wrapped = s.nv.wrapped := by
  rw [(raiseRecTo_noted s c p w b d).1]
@[simp] theorem raiseRecTo_nv_starts (c p : Nat) (w : Word) (b : List Word) (d : Option Nat) : (s.raiseRecTo c p w b d).nv.starts = s.nv.starts := by
  rw [(raiseRecTo_noted s c p w b d).1]
@[simp] theorem raiseRecTo_nv_timeFloor (c p : Nat) (w : Word) (b : List Word) (d : Option Nat) : (s.raiseRecTo c p w b d).nv.timeFloor = s.nv.timeFloor := by
  rw [(raiseRecTo_noted s c p w b d).1]
@[simp] theorem raiseRecTo_nv_tkValid (c p : Nat) (w : Word) (b : List Word) (d : Option Nat) : (s.raiseRecTo c p w b d).nv.tkValid = s.nv.tkValid := by
  rw [(raiseRecTo_noted s c p w b d).1]
@[simp] theorem raiseRecTo_nv_tkSet (c p : Nat) (w : Word) (b : List Word) (d : Option Nat) : (s.raiseRecTo c p w b d).nv.tkSet = s.nv.tkSet := by
  rw [(raiseRecTo_noted s c p w b d).1]
@[simp] theorem raiseRecTo_nv_sealed (c p : Nat) (w : Word) (b : List Word) (d : Option Nat) : (s.raiseRecTo c p w b d).nv.sealed = s.nv.sealed := by
  rw [(raiseRecTo_noted s c p w b d).1]
@[simp] theorem raiseRecTo_nv_repairs (c p : Nat) (w : Word) (b : List Word) (d : Option Nat) : (s.raiseRecTo c p w b d).nv.repairs = s.nv.repairs := by
  rw [(raiseRecTo_noted s c p w b d).1]
@[simp] theorem raiseRecTo_nv_userCal (c p : Nat) (w : Word) (b : List Word) (d : Option Nat) : (s.raiseRecTo c p w b d).nv.userCal = s.nv.userCal := by
  rw [(raiseRecTo_noted s c p w b d).1]
@[simp] theorem raiseRecTo_nv_slots (c p : Nat) (w : Word) (b : List Word) (d : Option Nat) : (s.raiseRecTo c p w b d).nv.slots = s.nv.slots := by
  rw [(raiseRecTo_noted s c p w b d).1]
@[simp] theorem raiseRecTo_nv_keys (c p : Nat) (w : Word) (b : List Word) (d : Option Nat) : (s.raiseRecTo c p w b d).nv.keys = s.nv.keys := by
  rw [(raiseRecTo_noted s c p w b d).1]
@[simp] theorem raiseRecTo_nv_fwKey (c p : Nat) (w : Word) (b : List Word) (d : Option Nat) : (s.raiseRecTo c p w b d).nv.fwKey = s.nv.fwKey := by
  rw [(raiseRecTo_noted s c p w b d).1]
@[simp] theorem raiseRecTo_nv_pgKey (c p : Nat) (w : Word) (b : List Word) (d : Option Nat) : (s.raiseRecTo c p w b d).nv.pgKey = s.nv.pgKey := by
  rw [(raiseRecTo_noted s c p w b d).1]
@[simp] theorem raiseRecTo_nv_lifecycle (c p : Nat) (w : Word) (b : List Word) (d : Option Nat) : (s.raiseRecTo c p w b d).nv.lifecycle = s.nv.lifecycle := by
  rw [(raiseRecTo_noted s c p w b d).1]
@[simp] theorem raiseRecTo_nv_lcNext (c p : Nat) (w : Word) (b : List Word) (d : Option Nat) : (s.raiseRecTo c p w b d).nv.lcNext = s.nv.lcNext := by
  rw [(raiseRecTo_noted s c p w b d).1]
@[simp] theorem raiseRecTo_nv_actEnd (c p : Nat) (w : Word) (b : List Word) (d : Option Nat) : (s.raiseRecTo c p w b d).nv.actEnd = s.nv.actEnd := by
  rw [(raiseRecTo_noted s c p w b d).1]
@[simp] theorem raiseRecTo_nv_ownerHash (c p : Nat) (w : Word) (b : List Word) (d : Option Nat) : (s.raiseRecTo c p w b d).nv.ownerHash = s.nv.ownerHash := by
  rw [(raiseRecTo_noted s c p w b d).1]
@[simp] theorem raiseRecTo_nv_moazalHash (c p : Nat) (w : Word) (b : List Word) (d : Option Nat) : (s.raiseRecTo c p w b d).nv.moazalHash = s.nv.moazalHash := by
  rw [(raiseRecTo_noted s c p w b d).1]
@[simp] theorem raiseRecTo_nv_devicePub (c p : Nat) (w : Word) (b : List Word) (d : Option Nat) : (s.raiseRecTo c p w b d).nv.devicePub = s.nv.devicePub := by
  rw [(raiseRecTo_noted s c p w b d).1]
@[simp] theorem raiseRecTo_nv_svnFw (c p : Nat) (w : Word) (b : List Word) (d : Option Nat) : (s.raiseRecTo c p w b d).nv.svnFw = s.nv.svnFw := by
  rw [(raiseRecTo_noted s c p w b d).1]
@[simp] theorem raiseRecTo_nv_svnPg (c p : Nat) (w : Word) (b : List Word) (d : Option Nat) : (s.raiseRecTo c p w b d).nv.svnPg = s.nv.svnPg := by
  rw [(raiseRecTo_noted s c p w b d).1]
@[simp] theorem raiseRecTo_nv_tamper (c p : Nat) (w : Word) (b : List Word) (d : Option Nat) : (s.raiseRecTo c p w b d).nv.tamper = s.nv.tamper := by
  rw [(raiseRecTo_noted s c p w b d).1]
@[simp] theorem raiseRecTo_nv_tamperDue (c p : Nat) (w : Word) (b : List Word) (d : Option Nat) : (s.raiseRecTo c p w b d).nv.tamperDue = s.nv.tamperDue := by
  rw [(raiseRecTo_noted s c p w b d).1]
@[simp] theorem raiseRecTo_nv_wakes (c p : Nat) (w : Word) (b : List Word) (d : Option Nat) : (s.raiseRecTo c p w b d).nv.wakes = s.nv.wakes := by
  rw [(raiseRecTo_noted s c p w b d).1]
@[simp] theorem raiseRecTo_nv_nonces (c p : Nat) (w : Word) (b : List Word) (d : Option Nat) : (s.raiseRecTo c p w b d).nv.nonces = s.nv.nonces := by
  rw [(raiseRecTo_noted s c p w b d).1]
@[simp] theorem raiseRecTo_nv_epochs (c p : Nat) (w : Word) (b : List Word) (d : Option Nat) : (s.raiseRecTo c p w b d).nv.epochs = s.nv.epochs := by
  rw [(raiseRecTo_noted s c p w b d).1]

/-! ### Registers that a log does not touch -/

@[simp] theorem raiseEvt_reg (p b : Nat) (a : Nat) (h : quiet a = true) (hb : b < 512) : (s.raiseEvt p b).reg a = s.reg a :=
  (raiseEvt_noted s p b hb).2 a h
@[simp] theorem raiseEvt_fld (p b : Nat) (f : Field) (h : quiet f.addr = true) (hb : b < 512) : (s.raiseEvt p b).fld f = s.fld f :=
  by simp only [fld, raiseEvt_reg s p b f.addr h hb]
@[simp] theorem podCount_reg (i n : Nat) (a : Nat) (h : quiet a = true) (hi : i < 64) : (s.podCount i n).reg a = s.reg a :=
  (podCount_noted s i n hi).2 a h
@[simp] theorem podCount_fld (i n : Nat) (f : Field) (h : quiet f.addr = true) (hi : i < 64) : (s.podCount i n).fld f = s.fld f :=
  by simp only [fld, podCount_reg s i n f.addr h hi]
@[simp] theorem peaCount_reg (p e n : Nat) (a : Nat) (h : quiet a = true) (hp : p < 3) : (s.peaCount p e n).reg a = s.reg a :=
  (peaCount_noted s p e n hp).2 a h
@[simp] theorem peaCount_fld (p e n : Nat) (f : Field) (h : quiet f.addr = true) (hp : p < 3) : (s.peaCount p e n).fld f = s.fld f :=
  by simp only [fld, peaCount_reg s p e n f.addr h hp]
@[simp] theorem ringSource_reg (n : Nat) (a : Nat) (h : quiet a = true) (hn : n < 768) : (s.ringSource n).reg a = s.reg a :=
  (ringSource_noted s n hn).2 a h
@[simp] theorem ringSource_fld (n : Nat) (f : Field) (h : quiet f.addr = true) (hn : n < 768) : (s.ringSource n).fld f = s.fld f :=
  by simp only [fld, ringSource_reg s n f.addr h hn]
@[simp] theorem withdrawSource_reg (n : Nat) (a : Nat) (h : quiet a = true) (hn : n < 768) : (s.withdrawSource n).reg a = s.reg a :=
  (withdrawSource_noted s n hn).2 a h
@[simp] theorem withdrawSource_fld (n : Nat) (f : Field) (h : quiet f.addr = true) (hn : n < 768) : (s.withdrawSource n).fld f = s.fld f :=
  by simp only [fld, withdrawSource_reg s n f.addr h hn]
@[simp] theorem stage_reg (r : Rec) (a : Nat) (h : quiet a = true) : (s.stage r).reg a = s.reg a := (stage_noted s r).2 a h
@[simp] theorem stage_fld (r : Rec) (f : Field) (h : quiet f.addr = true) : (s.stage r).fld f = s.fld f :=
  by simp only [fld, stage_reg s r f.addr h]
@[simp] theorem raiseRec_reg (c p : Nat) (w : Word) (b : List Word) (a : Nat) (h : quiet a = true) : (s.raiseRec c p w b).reg a = s.reg a :=
  (raiseRec_noted s c p w b).2 a h
@[simp] theorem raiseRec_fld (c p : Nat) (w : Word) (b : List Word) (f : Field) (h : quiet f.addr = true) : (s.raiseRec c p w b).fld f = s.fld f := by
  simp only [fld, raiseRec_reg s c p w b f.addr h]
@[simp] theorem raiseRecTo_reg (c p : Nat) (w : Word) (b : List Word) (d : Option Nat) (a : Nat) (h : quiet a = true) : (s.raiseRecTo c p w b d).reg a = s.reg a :=
  (raiseRecTo_noted s c p w b d).2 a h
@[simp] theorem raiseRecTo_fld (c p : Nat) (w : Word) (b : List Word) (d : Option Nat) (f : Field) (h : quiet f.addr = true) : (s.raiseRecTo c p w b d).fld f = s.fld f := by
  simp only [fld, raiseRecTo_reg s c p w b d f.addr h]

end Sys2Proof.Machine.State
end

