-- ==== Sys2Proof/Laws/Inv.lean ====
section
/-! SUPPORT. The invariant of every step, with the queue of commands beside it: the lemmas for the updates from which all else is built. -/

namespace Sys2Proof.Machine

/-- The queue of waiting commands is `q`, and the invariant holds. -/
def Kept (q : List Instr) (s : State) : Prop := s.pending = q ∧ s.Inv

/-- Where an operation answers a next state, that state is kept. -/
structure OKept (q : List Instr) (o : Host.Outcome State Fault Refusal) : Prop where
  /-- The next state is kept. -/
  next : ∀ t, o = .next t → Kept q t

variable {q : List Instr} {s t : State}

/-- The legal image banks (R126). -/
def Cycle.good (x : Cycle) : Prop := x.bank ≤ 1

/-- The canonical commit buffer. -/
def Commit.good (x : Commit) : Prop :=
  Store.wf (fun _ => (0 : Word)) x.committed = true ∧ Store.wf (fun _ => (0 : Word)) x.applied = true

/-- The canonical memories of the peas, and the legal code halves (R141). -/
def Pod.good (x : Pod) : Prop := x.a.canonical .a ∧ x.b.canonical .b ∧ x.c.canonical .c ∧ x.half ≤ 1

/-- What a part becomes is good if the part was. -/
def CycOk (s : State) (x : Cycle) : Prop := s.cyc.good → x.good
def ComOk (s : State) (x : Commit) : Prop := s.com.good → x.good
def PodOk (s : State) (x : Pod) : Prop := s.pod.good → x.good
def NvOk (s : State) (x : NonVol) : Prop := s.nv.canonical → x.canonical

theorem cycOk_refl : CycOk s s.cyc := fun h => h
theorem comOk_refl : ComOk s s.com := fun h => h
theorem podOk_refl : PodOk s s.pod := fun h => h
theorem nvOk_refl : NvOk s s.nv := fun h => h
theorem kept_cyc (h : Kept q s) : s.cyc.good := h.2.bank
theorem kept_com (h : Kept q s) : s.com.good := ⟨h.2.committed, h.2.applied⟩
theorem kept_pod (h : Kept q s) : s.pod.good := ⟨h.2.a, h.2.b, h.2.c, h.2.half⟩
theorem kept_nv (h : Kept q s) : s.nv.canonical := h.2.nv
theorem cycOk_of (h : Kept q t) : CycOk s t.cyc := fun _ => kept_cyc h
theorem comOk_of (h : Kept q t) : ComOk s t.com := fun _ => kept_com h
theorem podOk_of (h : Kept q t) : PodOk s t.pod := fun _ => kept_pod h
theorem nvOk_of (h : Kept q t) : NvOk s t.nv := fun _ => kept_nv h

/-- An update of the other fields of this part. -/
theorem cyc_with {x : Cycle} (h : CycOk s x)
    (x_n : Word) (x_running : Bool) (x_i : Nat) (x_ringOn : Bool) (x_tick0 : Nat) (x_entries : List CtrlEntry) (x_image
    : Image) (x_changed : List Nat) (x_waiting : Option Image) (x_prevImage : Bool) (x_carried : List ReqRec) (x_held :
    List (Nat × Nat)) (x_dvsHold : Nat) (x_overran : Bool) (x_imgCause : Nat) (x_dvsNext : Option Nat) (x_steer : Int) :
    CycOk s { x with
      n := x_n, running := x_running, i := x_i, ringOn := x_ringOn, tick0 := x_tick0, entries := x_entries,
      image := x_image, changed := x_changed, waiting := x_waiting, prevImage := x_prevImage, carried := x_carried,
      held := x_held, dvsHold := x_dvsHold, overran := x_overran, imgCause := x_imgCause, dvsNext := x_dvsNext,
      steer := x_steer } := h

/-- An update of the other fields of this part. -/
theorem com_with {x : Commit} (h : ComOk s x)
    (x_iveIn : List Released) (x_buffer : List Released) (x_hres : List (Released × Nat)) (x_formed : Bool) :
    ComOk s { x with
      iveIn := x_iveIn, buffer := x_buffer, hres := x_hres, formed := x_formed } := h

/-- An update of the other fields of this part. -/
theorem pod_with {x : Pod} (h : PodOk s x)
    (x_positions : List Position) (x_history : List (Nat × Released)) (x_nextPass : Nat) (x_cycleTokens : Nat)
    (x_skipVec : List Nat) (x_reseed : Option Reseed) (x_rejoin : Option Rejoin) (x_rotNext : Nat) (x_rotPea : PeaId)
    (x_rotDeferred : Bool) (x_rotPending : Bool) (x_rotTesting : Option (PeaId × Nat)) (x_level1 : Bool) (x_level2 :
    Bool) (x_hbMark : Option Bool) (x_hbGood : Bool) (x_hbStopped : Bool) (x_kfault : Bool) :
    PodOk s { x with
      positions := x_positions, history := x_history, nextPass := x_nextPass, cycleTokens := x_cycleTokens,
      skipVec := x_skipVec, reseed := x_reseed, rejoin := x_rejoin, rotNext := x_rotNext, rotPea := x_rotPea,
      rotDeferred := x_rotDeferred, rotPending := x_rotPending, rotTesting := x_rotTesting, level1 := x_level1,
      level2 := x_level2, hbMark := x_hbMark, hbGood := x_hbGood, hbStopped := x_hbStopped, kfault := x_kfault } := h

/-- An update of the other fields of this part. -/
theorem nv_with {x : NonVol} (h : NvOk s x)
    (x_serial : Word) (x_factory : List (Nat × Word)) (x_lockout : Option LockRecord) (x_safeTimes : List Nat)
    (x_safeTotal : Nat) (x_leave : Option (Nat × Bool)) (x_recorder : Recorder) (x_epoch : Nat) (x_journal : List
    JEntry) (x_jix : Word) (x_wrapped : Bool) (x_starts : Nat) (x_timeFloor : Nat) (x_tkValid : Bool) (x_tkSet : Bool)
    (x_sealed : Option SealRec) (x_repairs : List Word) (x_fwKey : Option ImageKey) (x_pgKey : Option ImageKey)
    (x_lifecycle : Nat) (x_lcNext : Option (Nat × List Byte)) (x_actEnd : Option Nat) (x_ownerHash : Option (List Byte))
    (x_moazalHash : List Byte) (x_devicePub : List Byte) (x_svnFw : Nat) (x_svnPg : Nat) (x_tamper : Option (Nat × Nat))
    (x_tamperDue : Bool) :
    NvOk s { x with
      serial := x_serial, factory := x_factory, lockout := x_lockout, safeTimes := x_safeTimes,
      safeTotal := x_safeTotal, leave := x_leave, recorder := x_recorder, epoch := x_epoch, journal := x_journal,
      jix := x_jix, wrapped := x_wrapped, starts := x_starts, timeFloor := x_timeFloor, tkValid := x_tkValid,
      tkSet := x_tkSet, sealed := x_sealed, repairs := x_repairs, fwKey := x_fwKey, pgKey := x_pgKey,
      lifecycle := x_lifecycle, lcNext := x_lcNext, actEnd := x_actEnd, ownerHash := x_ownerHash,
      moazalHash := x_moazalHash, devicePub := x_devicePub, svnFw := x_svnFw, svnPg := x_svnPg, tamper := x_tamper,
      tamperDue := x_tamperDue } := h

/-- An update of the other fields of this part. -/
theorem pea_with {p : PeaId} {x : Pea} (h : Pea.canonical p x)
    (x_upsets : List Upset) (x_dig : BitVec 64) (x_blk : Store (BitVec 64)) (x_sblk : Store (BitVec 64)) (x_cur : Option
    Release) (x_queue : List Release) (x_dr : List Token) (x_arrived : Nat) (x_digestDue : Bool) (x_opsCycle : Nat)
    (x_doneTick : Option Nat) (x_lagging : Bool) (x_scrubAt : List Nat) (x_scrubDone : Bool) (x_lates : List (Word ×
    Nat)) (x_evictions : List Nat) (x_digests : List Nat) (x_firstDigest : Bool) (x_phase : EvictPhase) (x_behind :
    Bool) (x_grp : BitVec 4) (x_flight : Nat) (x_testAt : Nat) :
    Pea.canonical p { x with
      upsets := x_upsets, dig := x_dig, blk := x_blk, sblk := x_sblk, cur := x_cur, queue := x_queue, dr := x_dr,
      arrived := x_arrived, digestDue := x_digestDue, opsCycle := x_opsCycle, doneTick := x_doneTick,
      lagging := x_lagging, scrubAt := x_scrubAt, scrubDone := x_scrubDone, lates := x_lates, evictions := x_evictions,
      digests := x_digests, firstDigest := x_firstDigest, phase := x_phase, behind := x_behind, grp := x_grp,
      flight := x_flight, testAt := x_testAt } := h

/-- An update of this part with its tables and memories. -/
theorem cyc_put
    {x_n : Word} {x_running : Bool} {x_i : Nat} {x_ringOn : Bool} {x_tick0 : Nat} {x_entries : List CtrlEntry} {x_image
    : Image} {x_changed : List Nat} {x_waiting : Option Image} {bank : Nat} {x_prevImage : Bool} {x_carried : List
    ReqRec} {x_held : List (Nat × Nat)} {x_dvsHold : Nat} {x_overran : Bool} {x_imgCause : Nat} {x_dvsNext : Option Nat}
    {x_steer : Int}
    (h0 : s.cyc.good → bank ≤ 1) :
    CycOk s {
      n := x_n, running := x_running, i := x_i, ringOn := x_ringOn, tick0 := x_tick0, entries := x_entries,
      image := x_image, changed := x_changed, waiting := x_waiting, bank := bank, prevImage := x_prevImage,
      carried := x_carried, held := x_held, dvsHold := x_dvsHold, overran := x_overran, imgCause := x_imgCause,
      dvsNext := x_dvsNext, steer := x_steer } := fun h => h0 h

/-- An update of this part with its tables and memories. -/
theorem pod_put
    {a : Pea} {b : Pea} {c : Pea} {half : Nat} {x_positions : List Position} {x_history : List (Nat × Released)}
    {x_nextPass : Nat} {x_cycleTokens : Nat} {x_skipVec : List Nat} {x_reseed : Option Reseed} {x_rejoin : Option
    Rejoin} {x_rotNext : Nat} {x_rotPea : PeaId} {x_rotDeferred : Bool} {x_rotPending : Bool} {x_rotTesting : Option
    (PeaId × Nat)} {x_level1 : Bool} {x_level2 : Bool} {x_hbMark : Option Bool} {x_hbGood : Bool} {x_hbStopped : Bool}
    {x_kfault : Bool}
    (h0 : s.pod.good → a.canonical .a)
    (h1 : s.pod.good → b.canonical .b)
    (h2 : s.pod.good → c.canonical .c)
    (h3 : s.pod.good → half ≤ 1) :
    PodOk s {
      a := a, b := b, c := c, half := half, positions := x_positions, history := x_history, nextPass := x_nextPass,
      cycleTokens := x_cycleTokens, skipVec := x_skipVec, reseed := x_reseed, rejoin := x_rejoin, rotNext := x_rotNext,
      rotPea := x_rotPea, rotDeferred := x_rotDeferred, rotPending := x_rotPending, rotTesting := x_rotTesting,
      level1 := x_level1, level2 := x_level2, hbMark := x_hbMark, hbGood := x_hbGood, hbStopped := x_hbStopped,
      kfault := x_kfault } := fun h => ⟨h0 h, h1 h, h2 h, h3 h⟩

/-- An update of this part with its tables and memories. -/
theorem nv_put
    {x_serial : Word} {x_factory : List (Nat × Word)} {x_lockout : Option LockRecord} {x_safeTimes : List Nat}
    {x_safeTotal : Nat} {x_leave : Option (Nat × Bool)} {x_recorder : Recorder} {x_epoch : Nat} {x_journal : List
    JEntry} {x_jix : Word} {x_wrapped : Bool} {x_starts : Nat} {x_timeFloor : Nat} {x_tkValid : Bool} {x_tkSet : Bool}
    {x_sealed : Option SealRec} {x_repairs : List Word} {userCal : Store Word} {slots : Store SlotRec} {keys : Store
    (List Byte)} {x_fwKey : Option ImageKey} {x_pgKey : Option ImageKey} {x_lifecycle : Nat} {x_lcNext : Option (Nat ×
    List Byte)} {x_actEnd : Option Nat} {x_ownerHash : Option (List Byte)} {x_moazalHash : List Byte} {x_devicePub :
    List Byte} {x_svnFw : Nat} {x_svnPg : Nat} {x_tamper : Option (Nat × Nat)} {x_tamperDue : Bool} {wakes : Store Nat}
    {nonces : Store (List (BitVec 64))} {epochs : Store Word}
    (h0 : s.nv.canonical → Store.wf (fun _ => (0 : Word)) userCal = true)
    (h1 : s.nv.canonical → Store.wf (fun _ => emptySlot) slots = true)
    (h2 : s.nv.canonical → Store.wf (fun _ => ([] : List Byte)) keys = true)
    (h3 : s.nv.canonical → Store.wf (fun _ => (0 : Nat)) wakes = true)
    (h4 : s.nv.canonical → Store.wf (fun _ => ([] : List (BitVec 64))) nonces = true)
    (h5 : s.nv.canonical → Store.wf (fun _ => (0 : Word)) epochs = true) :
    NvOk s {
      serial := x_serial, factory := x_factory, lockout := x_lockout, safeTimes := x_safeTimes,
      safeTotal := x_safeTotal, leave := x_leave, recorder := x_recorder, epoch := x_epoch, journal := x_journal,
      jix := x_jix, wrapped := x_wrapped, starts := x_starts, timeFloor := x_timeFloor, tkValid := x_tkValid,
      tkSet := x_tkSet, sealed := x_sealed, repairs := x_repairs, userCal := userCal, slots := slots, keys := keys,
      fwKey := x_fwKey, pgKey := x_pgKey, lifecycle := x_lifecycle, lcNext := x_lcNext, actEnd := x_actEnd,
      ownerHash := x_ownerHash, moazalHash := x_moazalHash, devicePub := x_devicePub, svnFw := x_svnFw,
      svnPg := x_svnPg, tamper := x_tamper, tamperDue := x_tamperDue, wakes := wakes, nonces := nonces, epochs := epochs } := fun h => ⟨h0 h, h1 h, h2 h, h3 h, h4 h, h5 h⟩

/-- An update of this part with its tables and memories. -/
theorem com_put
    {x_iveIn : List Released} {x_buffer : List Released} {committed : Store Word} {applied : Store Word} {x_hres : List
    (Released × Nat)} {x_formed : Bool}
    (h0 : s.com.good → Store.wf (fun _ => (0 : Word)) committed = true)
    (h1 : s.com.good → Store.wf (fun _ => (0 : Word)) applied = true) :
    ComOk s {
      iveIn := x_iveIn, buffer := x_buffer, committed := committed, applied := applied, hres := x_hres, formed := x_formed } := fun h => ⟨h0 h, h1 h⟩

/-- An update of this part with its tables and memories. -/
theorem pea_put {p : PeaId}
    {mram : Store Word} {sram : Store Word} {scratch : Store Word} {ctx : Store Word} {x_upsets : List Upset} {x_dig :
    BitVec 64} {x_blk : Store (BitVec 64)} {x_sblk : Store (BitVec 64)} {x_cur : Option Release} {x_queue : List
    Release} {x_dr : List Token} {x_arrived : Nat} {x_digestDue : Bool} {x_opsCycle : Nat} {x_doneTick : Option Nat}
    {x_lagging : Bool} {x_scrubAt : List Nat} {x_scrubDone : Bool} {x_lates : List (Word × Nat)} {x_evictions : List
    Nat} {x_digests : List Nat} {x_firstDigest : Bool} {x_phase : EvictPhase} {x_behind : Bool} {x_grp : BitVec 4}
    {x_flight : Nat} {x_testAt : Nat}
    (h0 : Store.wf (fun _ => rawWord p 0) mram = true)
    (h1 : Store.wf (fun _ => rawWord p 0) sram = true)
    (h2 : Store.wf (fun _ => rawWord p 0) scratch = true)
    (h3 : Store.wf (fun _ => rawWord p 0) ctx = true) :
    Pea.canonical p {
      mram := mram, sram := sram, scratch := scratch, ctx := ctx, upsets := x_upsets, dig := x_dig, blk := x_blk,
      sblk := x_sblk, cur := x_cur, queue := x_queue, dr := x_dr, arrived := x_arrived, digestDue := x_digestDue,
      opsCycle := x_opsCycle, doneTick := x_doneTick, lagging := x_lagging, scrubAt := x_scrubAt,
      scrubDone := x_scrubDone, lates := x_lates, evictions := x_evictions, digests := x_digests,
      firstDigest := x_firstDigest, phase := x_phase, behind := x_behind, grp := x_grp, flight := x_flight,
      testAt := x_testAt } := ⟨h0, h1, h2, h3⟩

/-- An update of the fields that the invariant does not speak of keeps. -/
theorem kept_upd (h : Kept q s)
    (x_now : Nat) (x_ticks : Nat) (x_cyc : Cycle) (x_pod : Pod) (x_prog : Option Program) (x_com : Commit) (x_ive : Ive)
    (x_xch : Exchange) (x_boot : Boot) (x_pins : Pins) (x_clock : Clock) (x_upd : Upd) (x_fio : Fio) (x_sfb : Sfb)
    (x_lor : Lor) (x_twin : Twin) (x_evr : RecState) (x_windows : List CoWindow) (x_irqLive : List IrqLive) (x_posted :
    List PostedWrite) (x_hosts : Hosts) (x_out : List OutMsg) (x_crcRuns : List CrcRun) (x_pmon : PmonState) (x_nv :
    NonVol)
    (hc : CycOk s x_cyc) (hm : ComOk s x_com) (hp : PodOk s x_pod) (hn : NvOk s x_nv) :
    Kept q { s with
      now := x_now, ticks := x_ticks, cyc := x_cyc, pod := x_pod, prog := x_prog, com := x_com, ive := x_ive, xch := x_xch,
      boot := x_boot, pins := x_pins, clock := x_clock, upd := x_upd, fio := x_fio, sfb := x_sfb, lor := x_lor,
      twin := x_twin, evr := x_evr, windows := x_windows, irqLive := x_irqLive, posted := x_posted, hosts := x_hosts,
      out := x_out, crcRuns := x_crcRuns, pmon := x_pmon, nv := x_nv } := by
  have c := hc (kept_cyc h)
  have m := hm (kept_com h)
  have p := hp (kept_pod h)
  exact ⟨h.1, { regs := h.2.regs, mem := h.2.mem, queues := h.2.queues, sessions := h.2.sessions, rings := h.2.rings,
                committed := m.1, applied := m.2, nv := hn (kept_nv h), a := p.1, b := p.2.1, c := p.2.2.1, fit := h.2.fit,
                bank := c, half := p.2.2.2 }⟩

/-- An update of the pod with its code half. -/
theorem pod_half {x : Pod} (h : PodOk s x)
    (x_half : Nat) (x_positions : List Position) (x_history : List (Nat × Released)) (x_nextPass : Nat) (x_cycleTokens :
    Nat) (x_skipVec : List Nat) (x_reseed : Option Reseed) (x_rejoin : Option Rejoin) (x_rotNext : Nat) (x_rotPea :
    PeaId) (x_rotDeferred : Bool) (x_rotPending : Bool) (x_rotTesting : Option (PeaId × Nat)) (x_level1 : Bool)
    (x_level2 : Bool) (x_hbMark : Option Bool) (x_hbGood : Bool) (x_hbStopped : Bool) (x_kfault : Bool)
    (hh : x_half ≤ 1) :
    PodOk s { x with
      half := x_half, positions := x_positions, history := x_history, nextPass := x_nextPass,
      cycleTokens := x_cycleTokens, skipVec := x_skipVec, reseed := x_reseed, rejoin := x_rejoin, rotNext := x_rotNext,
      rotPea := x_rotPea, rotDeferred := x_rotDeferred, rotPending := x_rotPending, rotTesting := x_rotTesting,
      level1 := x_level1, level2 := x_level2, hbMark := x_hbMark, hbGood := x_hbGood, hbStopped := x_hbStopped,
      kfault := x_kfault } := fun g => ⟨(h g).1, (h g).2.1, (h g).2.2.1, hh⟩

/-- The same where those four parts are unchanged. -/
theorem kept_with (h : Kept q s)
    (x_now : Nat) (x_ticks : Nat) (x_prog : Option Program) (x_ive : Ive) (x_xch : Exchange) (x_boot : Boot) (x_pins :
    Pins) (x_clock : Clock) (x_upd : Upd) (x_fio : Fio) (x_sfb : Sfb) (x_lor : Lor) (x_twin : Twin) (x_evr : RecState)
    (x_windows : List CoWindow) (x_irqLive : List IrqLive) (x_posted : List PostedWrite) (x_hosts : Hosts) (x_out : List
    OutMsg) (x_crcRuns : List CrcRun) (x_pmon : PmonState) :
    Kept q { s with
      now := x_now, ticks := x_ticks, prog := x_prog, ive := x_ive, xch := x_xch, boot := x_boot, pins := x_pins,
      clock := x_clock, upd := x_upd, fio := x_fio, sfb := x_sfb, lor := x_lor, twin := x_twin, evr := x_evr,
      windows := x_windows, irqLive := x_irqLive, posted := x_posted, hosts := x_hosts, out := x_out,
      crcRuns := x_crcRuns, pmon := x_pmon } := ⟨h.1, { h.2 with }⟩

/-- Cut: a state on the way is kept. -/
theorem kept_mid {x : State} {G : Prop} (h : Kept q x) (g : Kept q x → G) : G := g h

theorem kept_ite {c : Prop} [Decidable c] (hs : c → Kept q s) (ht : ¬ c → Kept q t) : Kept q (if c then s else t) := by
  split
  · exact hs ‹_›
  · exact ht ‹_›

theorem okept_next (h : Kept q s) : OKept q (.next s) := by
  refine ⟨fun t e => ?_⟩
  cases e
  exact h

theorem okept_ite {c : Prop} [Decidable c] {x y : Host.Outcome State Fault Refusal} (hx : c → OKept q x) (hy : ¬ c → OKept q y) :
    OKept q (if c then x else y) := by
  split
  · exact hx ‹_›
  · exact hy ‹_›

theorem stateOf_kept {o : Host.Outcome State Fault Refusal} (ho : OKept q o) (h : Kept q s) : Kept q (stateOf o s) := by
  cases o with
  | next t => exact ho.next t rfl
  | fault _ => exact h
  | refused _ => exact h

theorem kept_ite_fst {α : Type} {c : Prop} [Decidable c] {x y : State × α} (hs : c → Kept q x.1) (ht : ¬ c → Kept q y.1) :
    Kept q (if c then x else y).1 := by
  split
  · exact hs ‹_›
  · exact ht ‹_›

theorem kept_of_eq {α : Type} {p : State × α} {x : α} (e : p = (t, x)) (h : Kept q p.1) : Kept q t := by
  rw [e] at h
  exact h

theorem foldl_kept {β : Type} {f : State → β → State} {l : List β} (h : Kept q s) (hf : ∀ s x, Kept q s → Kept q (f s x)) :
    Kept q (l.foldl f s) := by
  induction l generalizing s with
  | nil => exact h
  | cons x xs ih => exact ih (hf s x h)

theorem foldl_kept_fst {α β : Type} {f : State × α → β → State × α} {l : List β} {p : State × α} (h : Kept q p.1)
    (hf : ∀ s a x, Kept q s → Kept q (f (s, a) x).1) : Kept q (l.foldl f p).1 := by
  induction l generalizing p with
  | nil => exact h
  | cons x xs ih => exact ih (hf p.1 p.2 x h)

/-! ### The updates of the parts -/

theorem State.setReg_kept (h : Kept q s) (a : Nat) (v : Word) : Kept q (s.setReg a v) :=
  ⟨h.1, { h.2 with regs := Store.wf_set _ _ _ _ h.2.regs }⟩

theorem State.setFld_kept (h : Kept q s) (f : Field) (v : Nat) : Kept q (s.setFld f v) := State.setReg_kept h _ _

theorem State.setFlag_kept (h : Kept q s) (f : Field) (b : Bool) : Kept q (s.setFlag f b) := State.setReg_kept h _ _

theorem State.addSat_kept (h : Kept q s) (f : Field) (n : Nat) : Kept q (s.addSat f n) := State.setReg_kept h _ _

theorem State.setSession_kept (h : Kept q s) (i : Nat) (x : Session) : Kept q (s.setSession i x) :=
  ⟨h.1, { h.2 with sessions := Store.wf_set _ _ _ _ h.2.sessions }⟩

theorem State.setPort_kept (h : Kept q s) (r : Nat) (x : Port) : Kept q (s.setPort r x) :=
  ⟨h.1, { h.2 with rings := Store.wf_set _ _ _ _ h.2.rings }⟩

theorem State.setQueue_kept (h : Kept q s) (k : Nat) (x : Queue) (hx : x.entries.length ≤ (queueShape k).1) :
    Kept q (s.setQueue k x) := by
  refine ⟨h.1, { h.2 with queues := Store.wf_set _ _ _ _ h.2.queues, fit := ?_ }⟩
  intro i
  simp only [State.queue, State.setQueue, Store.get_set]
  split
  · subst i; exact hx
  · exact h.2.fit i

theorem pea_canonical (h : Kept q s) (p : PeaId) : (s.pea p).canonical p := by
  cases p
  · exact h.2.a
  · exact h.2.b
  · exact h.2.c

theorem State.setPea_kept (h : Kept q s) (p : PeaId) (x : Pea) (hx : x.canonical p) : Kept q (s.setPea p x) := by
  cases p
  · exact ⟨h.1, { h.2 with a := hx }⟩
  · exact ⟨h.1, { h.2 with b := hx }⟩
  · exact ⟨h.1, { h.2 with c := hx }⟩

/-! ### The memories of a pea -/

theorem setPeaArray_canonical {p : PeaId} {x : Pea} (h : x.canonical p) (m : MemKind) (a : Store Word)
    (ha : Store.wf (fun _ => rawWord p 0) a = true) : (setPeaArray x m a).canonical p := by
  obtain ⟨h1, h2, h3, h4⟩ := h
  cases m
  · exact ⟨ha, h2, h3, h4⟩
  · exact ⟨h1, ha, h3, h4⟩
  · exact ⟨h1, h2, ha, h4⟩
  · exact ⟨h1, h2, h3, ha⟩

theorem peaArray_wf {p : PeaId} {x : Pea} (h : x.canonical p) (m : MemKind) :
    Store.wf (fun _ => rawWord p 0) (peaArray x m) = true := by
  obtain ⟨h1, h2, h3, h4⟩ := h
  cases m <;> assumption

/-- A write of one word keeps the canonical form. -/
theorem peaPut_canonical {p : PeaId} {x : Pea} (h : x.canonical p) (m : MemKind) (w : Nat) (v : Word) :
    (peaPut p x m w v).canonical p := by
  unfold peaPut
  extract_lets y
  with_reducible apply pea_with
  exact setPeaArray_canonical h m _ (Store.wf_set _ _ _ _ (peaArray_wf h m))

theorem digestWrite_canonical {p : PeaId} {x : Pea} (h : x.canonical p) (pr : Program) (m : MemKind) (w : Nat) (u v : Word) :
    (digestWrite pr x m w u v).canonical p := by
  unfold digestWrite
  split
  · split
    · with_reducible apply pea_with; exact h
    · exact h
  · split
    · with_reducible apply pea_with; exact h
    · exact h
  · exact h

theorem peaStore_canonical {p : PeaId} {x : Pea} (h : x.canonical p) (pr : Option Program) (m : MemKind) (w : Nat) (v : Word) :
    (peaStore pr p x m w v).canonical p := by
  unfold peaStore
  split
  · exact digestWrite_canonical (peaPut_canonical h m w v) _ _ _ _ _
  · exact peaPut_canonical h m w v

theorem podOk_ite {c : Prop} [Decidable c] {x y : Pod} (hx : PodOk s x) (hy : PodOk s y) : PodOk s (if c then x else y) := by
  split
  · exact hx
  · exact hy

theorem cycOk_ite {c : Prop} [Decidable c] {x y : Cycle} (hx : CycOk s x) (hy : CycOk s y) : CycOk s (if c then x else y) := by
  split
  · exact hx
  · exact hy

theorem kept_id (h : Kept q s) : Kept q (id s) := h

theorem kept_fit (h : Kept q s) (k : Nat) : (s.queue k).entries.length ≤ (queueShape k).1 := h.2.fit k

theorem emptyQueue_fit (k : Nat) : emptyQueue.entries.length ≤ (queueShape k).1 := Nat.zero_le _

/-- The invariant holds after reset. -/
theorem reset_inv : State.reset.Inv :=
  { regs := rfl, mem := rfl, queues := rfl, sessions := rfl, rings := rfl, committed := rfl, applied := rfl,
    nv := ⟨rfl, rfl, rfl, rfl, rfl, rfl⟩, a := ⟨rfl, rfl, rfl, rfl⟩, b := ⟨rfl, rfl, rfl, rfl⟩, c := ⟨rfl, rfl, rfl, rfl⟩,
    fit := fun k => emptyQueue_fit k, bank := by decide, half := by decide }

theorem pea_reset_canonical (p : PeaId) : Pea.reset.canonical p := ⟨rfl, rfl, rfl, rfl⟩

theorem keepPea_canonical {p : PeaId} {x : Pea} (h : x.canonical p) : (keepPea x).canonical p := ⟨h.1, rfl, rfl, rfl⟩

theorem foldl_canonical {β : Type} {p : PeaId} {f : Pea → β → Pea} {l : List β} {x : Pea} (h : x.canonical p)
    (hf : ∀ x b, x.canonical p → (f x b).canonical p) : (l.foldl f x).canonical p := by
  induction l generalizing x with
  | nil => exact h
  | cons b bs ih => exact ih (hf x b h)

theorem recomputeDigests_canonical {p : PeaId} {x : Pea} (h : x.canonical p) (pr : Program) :
    (recomputeDigests pr p x).canonical p := by
  unfold recomputeDigests
  extract_lets add words y
  refine foldl_canonical (foldl_canonical (x := y) ?_ ?_) ?_
  · with_reducible apply pea_with; exact h
  · intro z w hz
    unfold add
    extract_lets v d
    with_reducible apply pea_with; exact hz
  · intro z w hz
    unfold add
    extract_lets v d
    with_reducible apply pea_with; exact hz

end Sys2Proof.Machine
end

