-- ==== Sys2Proof/Laws/KeepsCore.lean ====
section
/-! SUPPORT. The invariant is kept by the shared operations, sessions, the kernel, time and the recorder: one lemma for each
    definition,
in the order of the model. -/

namespace Sys2Proof.Machine

theorem State.raiseMax_kept {cq : List Instr} {s : State} (h : Kept cq s) (f : Field) (n : Nat) : Kept cq (s.raiseMax f n) := by
  unfold State.raiseMax
  repeat' with_reducible first | assumption | apply State.setFld_kept | split

theorem State.offer_kept {cq : List Instr} {s : State} (h : Kept cq s) (session code page : Nat) (source : Word) (e : EventEntry)
    (rseq : Option Word) : Kept cq (s.offer session code page source e rseq) := by
  unfold State.offer
  repeat' with_reducible first
    | assumption | (apply kept_upd; first | assumption | (refine kept_ite (fun _ => ?_) (fun _ => ?_))) | exact cycOk_refl
    | exact comOk_refl | exact podOk_refl | exact nvOk_refl

theorem State.intoStaging_kept {cq : List Instr} {s : State} (h : Kept cq s) (r : Rec) : Kept cq (s.intoStaging r) := by
  unfold State.intoStaging
  repeat' with_reducible first
    | assumption | apply State.raiseMax_kept
    | ((refine nv_put ?_ ?_ ?_ ?_ ?_ ?_) <;> with_unfolding_all (rintro ⟨_, _, _, _, _, _⟩; first
        | assumption | rfl | exact Store.wf_set _ _ _ _ ‹_›))
    | (apply kept_upd; first | assumption | apply State.raiseMax_kept) | exact cycOk_refl | exact comOk_refl | exact podOk_refl

theorem State.loseStaged_kept {cq : List Instr} {s : State} (h : Kept cq s) (r : Rec) : Kept cq (s.loseStaged r) := by
  unfold State.loseStaged
  repeat' with_reducible first
    | assumption | apply State.addSat_kept | (apply kept_upd; first | assumption | apply State.addSat_kept) | exact cycOk_refl
    | exact comOk_refl | exact podOk_refl | exact nvOk_refl

theorem State.irqRecord_kept {cq : List Instr} {s : State} (h : Kept cq s) (n i : Nat) : Kept cq (s.irqRecord n i) := by
  unfold State.irqRecord
  repeat' with_reducible first
    | assumption | apply State.setFld_kept | apply State.intoStaging_kept | apply State.loseStaged_kept | split | dsimp only

theorem State.irqState_kept {cq : List Instr} {s : State} (h : Kept cq s) (n st : Nat) : Kept cq (s.irqState n st) := by
  unfold State.irqState
  repeat' with_reducible first
    | assumption | apply State.setFld_kept | (apply kept_upd; first | assumption | apply State.setFld_kept) | exact cycOk_refl
    | exact comOk_refl | exact podOk_refl | exact nvOk_refl

theorem State.irqToRing_kept {cq : List Instr} {s : State} (h : Kept cq s) (n : Nat) : Kept cq (s.irqToRing n) := by
  unfold State.irqToRing
  repeat' with_reducible first
    | assumption | apply State.offer_kept | apply State.irqRecord_kept | apply State.irqState_kept | split | dsimp only

theorem State.ringSource_kept {cq : List Instr} {s : State} (h : Kept cq s) (n : Nat) : Kept cq (s.ringSource n) := by
  unfold State.ringSource
  repeat' with_reducible first
    | assumption | apply State.addSat_kept | apply State.irqState_kept | apply State.irqToRing_kept | split | dsimp only

theorem State.withdrawSource_kept {cq : List Instr} {s : State} (h : Kept cq s) (n : Nat) : Kept cq (s.withdrawSource n) := by
  unfold State.withdrawSource
  repeat' with_reducible first | assumption | apply State.irqState_kept | split

theorem State.raiseEvt_kept {cq : List Instr} {s : State} (h : Kept cq s) (page b : Nat) : Kept cq (s.raiseEvt page b) := by
  unfold State.raiseEvt
  repeat' with_reducible first | assumption | apply State.setFld_kept | apply State.ringSource_kept | split | dsimp only

theorem State.errAddr_kept {cq : List Instr} {s : State} (h : Kept cq s) (page cause off : Nat) :
    Kept cq (s.errAddr page cause off) := by
  unfold State.errAddr
  repeat' with_reducible first | assumption | apply State.setReg_kept

theorem State.podCount_kept {cq : List Instr} {s : State} (h : Kept cq s) (i n : Nat) : Kept cq (s.podCount i n) := by
  unfold State.podCount
  repeat' with_reducible first | assumption | apply State.setFld_kept | apply State.raiseEvt_kept | split | dsimp only

theorem State.cntAdd_kept {cq : List Instr} {s : State} (h : Kept cq s) (p fuel i n : Nat) : Kept cq (s.cntAdd p fuel i n) := by
  induction fuel generalizing s i n with
  | zero => exact h
  | succ k ih =>
    unfold State.cntAdd
    repeat' (first
      | with_reducible assumption
      | with_reducible apply ih
      | with_reducible apply State.setFld_kept
      | with_reducible apply State.raiseEvt_kept
      | (with_reducible refine kept_ite (fun _ => ?_) (fun _ => ?_))
      | dsimp only)

theorem State.peaTicks_kept {cq : List Instr} {s : State} (h : Kept cq s) (p e n : Nat) : Kept cq (s.peaTicks p e n) := by
  unfold State.peaTicks
  repeat' with_reducible first | assumption | apply State.cntAdd_kept | (refine foldl_kept ?_ (fun s x h => ?_)) | split

theorem State.peaCount_kept {cq : List Instr} {s : State} (h : Kept cq s) (p e n : Nat) : Kept cq (s.peaCount p e n) := by
  unfold State.peaCount
  repeat' with_reducible first | assumption | apply State.cntAdd_kept | (refine foldl_kept ?_ (fun s x h => ?_)) | split

theorem State.resolve_kept {cq : List Instr} {s : State} (h : Kept cq s) (x : Fin 2) (dst : IpAddr) :
    Kept cq (s.resolve x dst) := by
  unfold State.resolve
  repeat' with_reducible first
    | assumption | (apply kept_upd; first | assumption | (refine kept_ite (fun _ => ?_) (fun _ => ?_))) | exact cycOk_refl
    | exact comOk_refl | exact podOk_refl | exact nvOk_refl

theorem State.notify_kept {cq : List Instr} {s : State} (h : Kept cq s) (q : Nat) : Kept cq (s.notify q) := by
  unfold State.notify
  repeat' with_reducible first
    | assumption | apply State.setSession_kept | apply State.resolve_kept
    | (apply kept_upd; first | assumption | apply State.setSession_kept | apply State.resolve_kept) | exact cycOk_refl
    | exact comOk_refl
    | exact podOk_refl | exact nvOk_refl | split | dsimp only

theorem State.push_kept {cq : List Instr} {s : State} (h : Kept cq s) (k : Nat) (ready : Bool) (b : EntryBody) :
    Kept cq (s.push k ready b) := by
  unfold State.push
  dsimp only
  with_reducible refine kept_ite (fun _ => h) (fun hn => ?_)
  have h1 := State.setQueue_kept h k
    { s.queue k with next := (s.queue k).next + 1, entries := (s.queue k).entries ++ [⟨(s.queue k).next, ready, b⟩] }
    (by rw [List.length_append]; simp only [List.length_cons, List.length_nil]; omega)
  repeat' (first
    | with_reducible assumption
    | with_reducible apply State.notify_kept
    | with_reducible apply State.raiseEvt_kept
    | (with_reducible refine kept_ite (fun _ => ?_) (fun _ => ?_)))

theorem State.ringLoss_kept {cq : List Instr} {s : State} (h : Kept cq s) (i time : Nat) (rseq : Option Word) :
    Kept cq (s.ringLoss i time rseq) := by
  unfold State.ringLoss
  dsimp only
  have h1 := State.podCount_kept (State.addSat_kept h (Fld.SESS_LOSSs_LOST i) 1) 62 1
  have hf : (s.queue (32 + i)).entries.length ≤ (queueShape (32 + i)).1 := h.2.fit _
  split
  · rename_i e he
    have hne : (s.queue (32 + i)).entries ≠ [] := by
      intro h0
      rw [h0] at he
      cases he
    with_reducible refine kept_ite (fun _ => State.setQueue_kept h1 _ _ ?_) (fun _ => ?_)
    · dsimp only
      rw [List.length_append, List.length_dropLast]
      have := List.length_pos_iff.mpr hne
      simp only [List.length_cons, List.length_nil]
      omega
    · have h2 := State.setQueue_kept h1 (32 + i) { s.queue (32 + i) with
        lost := (s.queue (32 + i)).lost + 1, lostFirst := some ((s.queue (32 + i)).lostFirst.getD (time, rseq)) } hf
      with_reducible refine kept_ite (fun _ => ?_) (fun _ => h2)
      exact State.raiseEvt_kept (State.push_kept h2 _ _ _) _ _
  · exact State.setQueue_kept h1 _ _ hf

theorem State.ringWrite_kept {cq : List Instr} {s : State} (h : Kept cq s) (i : Nat) (e : EventEntry) (rseq : Option Word) :
    Kept cq (s.ringWrite i e rseq) := by
  unfold State.ringWrite
  repeat' with_reducible first | assumption | apply State.push_kept | apply State.ringLoss_kept | split | dsimp only

theorem State.stage_kept {cq : List Instr} {s : State} (h : Kept cq s) (r : Rec) : Kept cq (s.stage r) := by
  unfold State.stage
  repeat' with_reducible first
    | assumption | apply State.intoStaging_kept | apply State.loseStaged_kept | apply State.raiseEvt_kept
    | apply State.podCount_kept
    | split

theorem State.raiseRecTo_kept {cq : List Instr} {s : State} (h : Kept cq s) (code page : Nat) (source : Word) (body : List Word)
    (dest : Option Nat) : Kept cq (s.raiseRecTo code page source body dest) := by
  unfold State.raiseRecTo
  repeat' with_reducible first
    | assumption | apply State.addSat_kept | apply State.raiseMax_kept | apply State.raiseEvt_kept | apply State.podCount_kept
    | apply State.stage_kept | split

theorem State.raiseRec_kept {cq : List Instr} {s : State} (h : Kept cq s) (code page : Nat) (source : Word) (body : List Word) :
    Kept cq (s.raiseRec code page source body) := by
  unfold State.raiseRec
  repeat' with_reducible first | assumption | apply State.raiseRecTo_kept

theorem State.recordUnlisted_kept {cq : List Instr} {s : State} (h : Kept cq s) (page event : Nat) (source : Word)
    (body : List Word) : Kept cq (s.recordUnlisted page event source body) := by
  unfold State.recordUnlisted
  repeat' with_reducible first | assumption | apply State.raiseRec_kept

theorem State.pushIfRoom_kept {cq : List Instr} {s : State} (h : Kept cq s) (q : Nat) (b : EntryBody) :
    Kept cq (s.pushIfRoom q b) := by
  unfold State.pushIfRoom
  repeat' with_reducible first | assumption | apply State.push_kept | split

theorem State.journalAdd_kept {cq : List Instr} {s : State} (h : Kept cq s) (e : JEntry) : Kept cq (s.journalAdd e) := by
  unfold State.journalAdd
  repeat' with_reducible first
    | assumption | apply State.pushIfRoom_kept
    | ((refine nv_put ?_ ?_ ?_ ?_ ?_ ?_) <;> with_unfolding_all (rintro ⟨_, _, _, _, _, _⟩; first
        | assumption | rfl | exact Store.wf_set _ _ _ _ ‹_›))
    | (apply kept_upd; first | assumption | apply State.pushIfRoom_kept) | exact cycOk_refl | exact comOk_refl | exact podOk_refl

theorem State.journalDone_kept {cq : List Instr} {s : State} (h : Kept cq s) (num : Word) (status ive : Byte) (result : Nat) :
    Kept cq (s.journalDone num status ive result) := by
  unfold State.journalDone
  repeat' with_reducible first
    | assumption | apply State.pushIfRoom_kept
    | ((refine nv_put ?_ ?_ ?_ ?_ ?_ ?_) <;> with_unfolding_all (rintro ⟨_, _, _, _, _, _⟩; first
        | assumption | rfl | exact Store.wf_set _ _ _ _ ‹_›))
    | (apply kept_upd; first | assumption | apply State.pushIfRoom_kept) | exact cycOk_refl | exact comOk_refl | exact podOk_refl
    | split

theorem State.journalImage_kept {cq : List Instr} {s : State} (h : Kept cq s) (num rc : Word) :
    Kept cq (s.journalImage num rc) := by
  unfold State.journalImage
  repeat' with_reducible first
    | assumption
    | ((refine nv_put ?_ ?_ ?_ ?_ ?_ ?_) <;> with_unfolding_all (rintro ⟨_, _, _, _, _, _⟩; first
        | assumption | rfl | exact Store.wf_set _ _ _ _ ‹_›))
    | (apply kept_upd; assumption) | exact cycOk_refl | exact comOk_refl | exact podOk_refl

theorem State.respond_kept {cq : List Instr} {s : State} (h : Kept cq s) (session : Nat) (num : Word) (status ive : Byte)
    (result : Nat) : Kept cq (s.respond session num status ive result) := by
  unfold State.respond
  dsimp only
  have h1 := State.journalDone_kept h num status ive result
  split
  · exact h1
  · refine State.notify_kept (State.setQueue_kept h1 _ _ ?_) _
    dsimp only
    rw [List.length_map]
    exact h.2.fit _

theorem State.refusalRecord_kept {cq : List Instr} {s : State} (h : Kept cq s) (object kind code : Nat) (num : Word) :
    Kept cq (s.refusalRecord object kind code num) := by
  unfold State.refusalRecord
  extract_lets dest t
  have ht : Kept cq t := State.raiseRecTo_kept h _ _ _ _ _
  clear_value dest t
  cases dest with
  | none => exact ht
  | some i => exact State.offer_kept ht _ _ _ _ _ _

theorem State.lateResult_kept {cq : List Instr} {s : State} (h : Kept cq s) (num : Word) (result : Nat) :
    Kept cq (s.lateResult num result) := by
  unfold State.lateResult
  repeat' with_reducible first | assumption | apply State.offer_kept | split

theorem State.twinSend_kept {cq : List Instr} {s : State} (h : Kept cq s) (b : TwinBody) : Kept cq (s.twinSend b) := by
  unfold State.twinSend
  repeat' with_reducible first
    | assumption | (apply kept_upd; first | assumption | (refine kept_ite (fun _ => ?_) (fun _ => ?_))) | exact cycOk_refl
    | exact comOk_refl | exact podOk_refl | exact nvOk_refl

theorem State.mirror_kept {cq : List Instr} {s : State} (h : Kept cq s) (b : TwinBody) : Kept cq (s.mirror b) := by
  unfold State.mirror
  repeat' with_reducible first | assumption | apply State.twinSend_kept | split

theorem State.showOpen_kept {cq : List Instr} {s : State} (h : Kept cq s) (i : Nat) (b : Bool) : Kept cq (s.showOpen i b) := by
  unfold State.showOpen
  repeat' with_reducible first | assumption | apply State.setFld_kept

theorem State.shareSession_kept {cq : List Instr} {s : State} (h : Kept cq s) (i : Nat) (taken : Option Accepted)
    (nonce : Option (BitVec 64)) : Kept cq (s.shareSession i taken nonce) := by
  unfold State.shareSession
  repeat' with_reducible first | assumption | apply State.mirror_kept | split

theorem State.closeSess_kept {cq : List Instr} {s : State} (h : Kept cq s) (i : Nat) : Kept cq (s.closeSess i) := by
  unfold State.closeSess
  repeat' with_reducible first
    | assumption | apply State.setSession_kept | apply State.raiseEvt_kept | apply State.raiseRec_kept | apply State.showOpen_kept
    | apply State.shareSession_kept | split

theorem State.noteClasses_kept {cq : List Instr} {s : State} (h : Kept cq s) : Kept cq s.noteClasses := by
  unfold State.noteClasses
  repeat' with_reducible first | assumption | apply State.raiseRec_kept | (refine foldl_kept ?_ (fun s x h => ?_)) | split

theorem State.closeAll_kept {cq : List Instr} {s : State} (h : Kept cq s) : Kept cq s.closeAll := by
  unfold State.closeAll
  repeat' with_reducible first | assumption | apply State.closeSess_kept | (refine foldl_kept ?_ (fun s x h => ?_))

theorem State.openSess_kept {cq : List Instr} {s : State} (h : Kept cq s) (i : Nat) (e : Word) : Kept cq (s.openSess i e) := by
  unfold State.openSess
  repeat' with_reducible first
    | assumption | apply State.setReg_kept | apply State.setSession_kept | apply State.raiseEvt_kept | apply State.raiseRec_kept
    | apply State.showOpen_kept
    | ((refine nv_put ?_ ?_ ?_ ?_ ?_ ?_) <;> with_unfolding_all (rintro ⟨_, _, _, _, _, _⟩; first
        | assumption | rfl | exact Store.wf_set _ _ _ _ ‹_›))
    | (apply kept_upd; first
        | assumption | apply State.setReg_kept | apply State.setSession_kept | apply State.raiseEvt_kept
        | apply State.raiseRec_kept | apply State.showOpen_kept)
    | exact cycOk_refl | exact comOk_refl | exact podOk_refl

theorem State.showHalt_kept {cq : List Instr} {s : State} (h : Kept cq s) : Kept cq s.showHalt := by
  unfold State.showHalt
  repeat' with_reducible first
    | assumption | (refine fun (s : State) (h : Kept cq s) => ?_) | apply State.setFld_kept
    | (refine kept_of_eq (by assumption) ?_)
    | split | dsimp only

theorem State.jumpNums_kept {cq : List Instr} {s : State} (h : Kept cq s) : Kept cq s.jumpNums := by
  unfold State.jumpNums
  repeat' with_reducible first
    | assumption | (apply kept_upd; assumption) | exact cycOk_refl | exact comOk_refl | exact podOk_refl | exact nvOk_refl

theorem State.limitNums_kept {cq : List Instr} {s : State} (h : Kept cq s) : Kept cq s.limitNums := by
  unfold State.limitNums
  repeat' with_reducible first
    | assumption | (refine fun (s : State) (h : Kept cq s) => ?_) | apply State.showHalt_kept
    | (intro x; refine kept_mid (q := cq) (x := x) ?_ ?_; subst x; rotate_left; intro hx; rotate_left) | intro x
    | (apply kept_with; first | assumption | (refine fun (s : State) (h : Kept cq s) => ?_) | apply State.showHalt_kept)
    | (apply kept_upd; first | assumption | (refine fun (s : State) (h : Kept cq s) => ?_) | apply State.showHalt_kept)
    | exact cycOk_refl
    | exact comOk_refl | exact podOk_refl | exact nvOk_refl | lift_lets | (refine kept_of_eq (by assumption) ?_) | split
    | dsimp only

theorem State.freeNums_kept {cq : List Instr} {s : State} (h : Kept cq s) : Kept cq s.freeNums := by
  unfold State.freeNums
  repeat' with_reducible first
    | assumption | (refine fun (s : State) (h : Kept cq s) => ?_) | apply State.showHalt_kept
    | (intro x; refine kept_mid (q := cq) (x := x) ?_ ?_; subst x; rotate_left; intro hx; rotate_left) | intro x
    | (apply kept_with; first | assumption | (refine fun (s : State) (h : Kept cq s) => ?_) | apply State.showHalt_kept)
    | (apply kept_upd; first | assumption | (refine fun (s : State) (h : Kept cq s) => ?_) | apply State.showHalt_kept)
    | exact cycOk_refl
    | exact comOk_refl | exact podOk_refl | exact nvOk_refl | lift_lets | (refine kept_of_eq (by assumption) ?_) | split
    | dsimp only

theorem State.activeHosts_kept {cq : List Instr} {s : State} (h : Kept cq s) (cont down : Bool) :
    Kept cq (s.activeHosts cont down) := by
  unfold State.activeHosts
  repeat' with_reducible first
    | assumption | apply State.closeAll_kept | apply State.jumpNums_kept | apply State.freeNums_kept
    | (apply kept_upd; first
        | assumption | apply State.closeAll_kept | apply State.jumpNums_kept | apply State.freeNums_kept
        | (refine kept_ite (fun _ => ?_) (fun _ => ?_)))
    | exact cycOk_refl | exact comOk_refl | exact podOk_refl | exact nvOk_refl

theorem State.setSlot_kept {cq : List Instr} {s : State} (h : Kept cq s) (k : Nat) (x : SlotRec) : Kept cq (s.setSlot k x) :=
  ⟨h.1, { h.2 with nv := ⟨h.2.nv.1, Store.wf_set _ _ _ _ h.2.nv.2.1, h.2.nv.2.2⟩ }⟩

theorem State.activate_kept {cq : List Instr} {s : State} (h : Kept cq s) (k : Nat) : Kept cq (s.activate k) := by
  unfold State.activate
  repeat' with_reducible first | assumption | apply State.setSlot_kept

theorem State.raiseFloor_kept {cq : List Instr} {s : State} (h : Kept cq s) (k : Nat) : Kept cq (s.raiseFloor k) := by
  unfold State.raiseFloor
  repeat' with_reducible first
    | assumption
    | ((refine nv_put ?_ ?_ ?_ ?_ ?_ ?_) <;> with_unfolding_all (rintro ⟨_, _, _, _, _, _⟩; first
        | assumption | rfl | exact Store.wf_set _ _ _ _ ‹_›))
    | (apply kept_upd; first | assumption | (refine kept_ite (fun _ => ?_) (fun _ => ?_))) | exact cycOk_refl | exact comOk_refl
    | exact podOk_refl

theorem State.actPhase_kept {cq : List Instr} {s : State} (h : Kept cq s) (k ph : Nat) : Kept cq (s.actPhase k ph) := by
  unfold State.actPhase
  repeat' with_reducible first | assumption | apply State.setFld_kept | apply State.raiseEvt_kept | apply State.raiseRec_kept

theorem State.endActivation_kept {cq : List Instr} {s : State} (h : Kept cq s) (ph : Nat) : Kept cq (s.endActivation ph) := by
  unfold State.endActivation
  repeat' with_reducible first
    | assumption | apply State.actPhase_kept | (apply kept_upd; first | assumption | apply State.actPhase_kept) | exact cycOk_refl
    | exact comOk_refl | exact podOk_refl | exact nvOk_refl | split

theorem State.confirmTrial_kept {cq : List Instr} {s : State} (h : Kept cq s) : Kept cq s.confirmTrial := by
  unfold State.confirmTrial
  repeat' with_reducible first
    | assumption | apply State.raiseRec_kept | apply State.activate_kept | apply State.raiseFloor_kept | apply State.actPhase_kept
    | (apply nv_with; first | exact nvOk_refl | (apply nvOk_of (q := cq); assumption))
    | (apply kept_upd; first
        | assumption | apply State.raiseRec_kept | apply State.activate_kept | apply State.raiseFloor_kept
        | apply State.actPhase_kept | (refine kept_ite (fun _ => ?_) (fun _ => ?_)))
    | exact cycOk_refl | exact comOk_refl | exact podOk_refl | split

theorem State.setRole_kept {cq : List Instr} {s : State} (h : Kept cq s) (r epoch cause : Nat) :
    Kept cq (s.setRole r epoch cause) := by
  unfold State.setRole
  repeat' with_reducible first
    | assumption | apply State.setReg_kept | apply State.setFld_kept | apply State.raiseEvt_kept | apply State.raiseRec_kept
    | apply State.confirmTrial_kept
    | (apply kept_upd; first
        | assumption | apply State.setReg_kept | apply State.setFld_kept | apply State.raiseEvt_kept | apply State.raiseRec_kept
        | apply State.confirmTrial_kept | (refine kept_ite (fun _ => ?_) (fun _ => ?_)))
    | exact cycOk_refl | exact comOk_refl | exact podOk_refl | exact nvOk_refl

theorem State.noteClaim_kept {cq : List Instr} {s : State} (h : Kept cq s) (c : Nat) : Kept cq (s.noteClaim c) := by
  unfold State.noteClaim
  repeat' with_reducible first
    | assumption | (apply kept_upd; assumption) | exact cycOk_refl | exact comOk_refl | exact podOk_refl | exact nvOk_refl

theorem State.storeEpoch_kept {cq : List Instr} {s : State} (h : Kept cq s) (e : Nat) : Kept cq (s.storeEpoch e) := by
  unfold State.storeEpoch
  repeat' with_reducible first
    | assumption
    | ((refine nv_put ?_ ?_ ?_ ?_ ?_ ?_) <;> with_unfolding_all (rintro ⟨_, _, _, _, _, _⟩; first
        | assumption | rfl | exact Store.wf_set _ _ _ _ ‹_›))
    | (apply kept_upd; assumption) | exact cycOk_refl | exact comOk_refl | exact podOk_refl

theorem State.enterActive_kept {cq : List Instr} {s : State} (h : Kept cq s) (e cause : Nat) :
    Kept cq (s.enterActive e cause) := by
  unfold State.enterActive
  repeat' with_reducible first
    | assumption | apply State.activeHosts_kept | apply State.setRole_kept | apply State.storeEpoch_kept

theorem State.takeActive_kept {cq : List Instr} {s : State} (h : Kept cq s) (cause : Nat) : Kept cq (s.takeActive cause).1 := by
  unfold State.takeActive
  repeat' with_reducible first
    | assumption | apply State.raiseEvt_kept | apply State.raiseRec_kept | apply State.enterActive_kept | split

theorem State.endXfer_kept {cq : List Instr} {s : State} (h : Kept cq s) (cause : Nat) : Kept cq (s.endXfer cause) := by
  unfold State.endXfer
  repeat' with_reducible first
    | assumption | apply State.setReg_kept | apply State.raiseEvt_kept | apply State.raiseRec_kept
    | (apply kept_upd; first | assumption | apply State.setReg_kept | apply State.raiseEvt_kept | apply State.raiseRec_kept)
    | exact cycOk_refl | exact comOk_refl | exact podOk_refl | exact nvOk_refl

theorem State.startBlock_kept {cq : List Instr} {s : State} (h : Kept cq s) (c : Nat) : Kept cq (s.startBlock c) := by
  unfold State.startBlock
  repeat' with_reducible first
    | assumption | apply State.setFld_kept | apply State.raiseEvt_kept | apply State.recordUnlisted_kept | split

theorem State.outputsTo_kept {cq : List Instr} {s : State} (h : Kept cq s) (old st : Nat) : Kept cq (s.outputsTo old st) := by
  unfold State.outputsTo
  dsimp only
  refine kept_ite (fun _ => ?_) fun _ => kept_ite (fun _ => ?_) fun _ => h
  · with_reducible apply kept_upd
    · exact h
    · exact cycOk_refl
    · exact com_put (fun _ => rfl) fun _ => rfl
    · exact podOk_refl
    · exact nvOk_refl
  · exact State.setFld_kept (State.setFld_kept (State.setFld_kept (State.setFld_kept h _ _) _ _) _ _) _ _

theorem State.toState_kept {cq : List Instr} {s : State} (h : Kept cq s) (st : Nat) : Kept cq (s.toState st) := by
  unfold State.toState
  repeat' with_reducible first
    | assumption | apply State.setReg_kept | apply State.setFld_kept | apply State.raiseEvt_kept | apply State.raiseRec_kept
    | apply State.setRole_kept | apply State.endXfer_kept | apply State.outputsTo_kept
    | (intro x; refine kept_mid (q := cq) (x := x) ?_ ?_; subst x; rotate_left; intro hx; rotate_left) | split | dsimp only

theorem State.stopKernel_kept {cq : List Instr} {s : State} (h : Kept cq s) : Kept cq s.stopKernel := by
  unfold State.stopKernel
  repeat' with_reducible first
    | assumption
    | ((refine pod_put ?_ ?_ ?_ ?_) <;> with_unfolding_all (rintro ⟨_, _, _, _⟩; first
        | assumption | (apply pea_with; assumption) | omega))
    | ((refine cyc_put ?_); with_unfolding_all (intro h0; first | exact h0 | omega)) | (apply kept_upd; assumption)
    | exact comOk_refl
    | exact nvOk_refl

theorem State.lockOut_kept {cq : List Instr} {s : State} (h : Kept cq s) (cause detail : Nat) :
    Kept cq (s.lockOut cause detail) := by
  unfold State.lockOut
  repeat' with_reducible first
    | assumption | apply State.setFld_kept | apply State.raiseEvt_kept | apply State.toState_kept
    | ((refine nv_put ?_ ?_ ?_ ?_ ?_ ?_) <;> with_unfolding_all (rintro ⟨_, _, _, _, _, _⟩; first
        | assumption | rfl | exact Store.wf_set _ _ _ _ ‹_›))
    | (apply kept_upd; first | assumption | apply State.setFld_kept | apply State.raiseEvt_kept | apply State.toState_kept)
    | exact cycOk_refl | exact comOk_refl | exact podOk_refl

theorem State.causeAfterLeave_kept {cq : List Instr} {s : State} (h : Kept cq s) (cause detail : Nat) (locking : Bool) :
    Kept cq (s.causeAfterLeave cause detail locking) := by
  unfold State.causeAfterLeave
  repeat' with_reducible first
    | assumption | (apply kept_upd; first | assumption | (refine kept_ite (fun _ => ?_) (fun _ => ?_))) | exact cycOk_refl
    | exact comOk_refl | exact podOk_refl | exact nvOk_refl

theorem State.enterSafe_kept {cq : List Instr} {s : State} (h : Kept cq s) (cause detail : Nat) (locking : Bool) :
    Kept cq (s.enterSafe cause detail locking) := by
  unfold State.enterSafe
  repeat' with_reducible first
    | assumption | apply State.setReg_kept | apply State.setFld_kept | apply State.raiseEvt_kept | apply State.raiseRec_kept
    | apply State.toState_kept | apply State.stopKernel_kept | apply State.lockOut_kept | apply State.causeAfterLeave_kept
    | ((refine nv_put ?_ ?_ ?_ ?_ ?_ ?_) <;> with_unfolding_all (rintro ⟨_, _, _, _, _, _⟩; first
        | assumption | rfl | exact Store.wf_set _ _ _ _ ‹_›))
    | (apply kept_upd; first
        | assumption | apply State.setReg_kept | apply State.setFld_kept | apply State.raiseEvt_kept | apply State.raiseRec_kept
        | apply State.toState_kept | apply State.stopKernel_kept | apply State.lockOut_kept | apply State.causeAfterLeave_kept
        | (refine kept_ite (fun _ => ?_) (fun _ => ?_)))
    | exact cycOk_refl | exact comOk_refl | exact podOk_refl

theorem State.kernelFault_kept {cq : List Instr} {s : State} (h : Kept cq s) (cause voter : Nat) :
    Kept cq (s.kernelFault cause voter) := by
  unfold State.kernelFault
  repeat' with_reducible first
    | assumption | apply State.setReg_kept | apply State.raiseEvt_kept | apply State.raiseRec_kept | apply State.enterSafe_kept
    | split

theorem State.iveFault_kept {cq : List Instr} {s : State} (h : Kept cq s) (cause half : Nat) :
    Kept cq (s.iveFault cause half) := by
  unfold State.iveFault
  repeat' with_reducible first
    | assumption | apply State.setReg_kept | apply State.setFld_kept | apply State.raiseEvt_kept | apply State.raiseRec_kept
    | apply State.enterSafe_kept | split

theorem State.timebaseFault_kept {cq : List Instr} {s : State} (h : Kept cq s) : Kept cq s.timebaseFault := by
  unfold State.timebaseFault
  repeat' with_reducible first | assumption | apply State.setFld_kept | apply State.raiseRec_kept | apply State.enterSafe_kept

theorem State.setClock_kept {cq : List Instr} {s : State} (h : Kept cq s) (c : Clock) : Kept cq (s.setClock c) := by
  unfold State.setClock
  repeat' with_reducible first
    | assumption | (apply kept_upd; assumption) | exact cycOk_refl | exact comOk_refl | exact podOk_refl | exact nvOk_refl

theorem State.markSet_kept {cq : List Instr} {s : State} (h : Kept cq s) (src : Nat) : Kept cq (s.markSet src) := by
  unfold State.markSet
  repeat' with_reducible first | assumption | apply State.setFld_kept | apply State.raiseEvt_kept | split | dsimp only

theorem State.endSlew_kept {cq : List Instr} {s : State} (h : Kept cq s) : Kept cq s.endSlew := by
  unfold State.endSlew
  repeat' with_reducible first | assumption | apply State.setReg_kept | apply State.setFld_kept | apply State.setClock_kept

theorem State.slewBy_kept {cq : List Instr} {s : State} (h : Kept cq s) (d : Int) (ppm : Nat) : Kept cq (s.slewBy d ppm) := by
  unfold State.slewBy
  repeat' with_reducible first
    | assumption | apply State.setReg_kept | apply State.setFld_kept | apply State.setClock_kept | apply State.endSlew_kept
    | split

theorem State.stepTime_kept {cq : List Instr} {s : State} (h : Kept cq s) (t src : Nat) : Kept cq (s.stepTime t src) := by
  unfold State.stepTime
  repeat' with_reducible first
    | assumption | apply State.raiseEvt_kept | apply State.raiseRec_kept | apply State.endSlew_kept
    | (apply kept_upd; first | assumption | apply State.raiseEvt_kept | apply State.raiseRec_kept | apply State.endSlew_kept)
    | exact cycOk_refl | exact comOk_refl | exact podOk_refl | exact nvOk_refl

theorem State.applyTime_kept {cq : List Instr} {s : State} (h : Kept cq s) (t : Nat) : Kept cq (s.applyTime t) := by
  unfold State.applyTime
  repeat' with_reducible first
    | assumption | apply State.markSet_kept | apply State.slewBy_kept | apply State.stepTime_kept | split

theorem State.orderTime_kept {cq : List Instr} {s : State} (h : Kept cq s) (t : Nat) : Kept cq (s.orderTime t) := by
  unfold State.orderTime
  repeat' with_reducible first | assumption | apply State.setClock_kept | apply State.applyTime_kept | split

theorem State.boundaryTime_kept {cq : List Instr} {s : State} (h : Kept cq s) : Kept cq s.boundaryTime := by
  unfold State.boundaryTime
  repeat' with_reducible first | assumption | apply State.setClock_kept | apply State.applyTime_kept | split

theorem State.adoptTime_kept {cq : List Instr} {s : State} (h : Kept cq s) (t : Nat) : Kept cq (s.adoptTime t) := by
  unfold State.adoptTime
  repeat' with_reducible first
    | assumption | apply State.markSet_kept | (apply kept_upd; first | assumption | apply State.markSet_kept) | exact cycOk_refl
    | exact comOk_refl | exact podOk_refl | exact nvOk_refl

theorem State.syncTime_kept {cq : List Instr} {s : State} (h : Kept cq s) (t : Nat) : Kept cq (s.syncTime t) := by
  unfold State.syncTime
  repeat' with_reducible first
    | assumption | apply State.markSet_kept | apply State.endSlew_kept
    | (apply kept_upd; first | assumption | apply State.markSet_kept | apply State.endSlew_kept) | exact cycOk_refl
    | exact comOk_refl
    | exact podOk_refl | exact nvOk_refl

theorem State.ppsEdge_kept {cq : List Instr} {s : State} (h : Kept cq s) : Kept cq s.ppsEdge := by
  unfold State.ppsEdge
  repeat' with_reducible first
    | assumption | apply State.setFld_kept | apply State.setClock_kept | apply State.slewBy_kept | apply State.stepTime_kept
    | split
    | dsimp only

theorem State.saveFloor_kept {cq : List Instr} {s : State} (h : Kept cq s) : Kept cq s.saveFloor := by
  unfold State.saveFloor
  repeat' with_reducible first
    | assumption
    | ((refine nv_put ?_ ?_ ?_ ?_ ?_ ?_) <;> with_unfolding_all (rintro ⟨_, _, _, _, _, _⟩; first
        | assumption | rfl | exact Store.wf_set _ _ _ _ ‹_›))
    | (apply kept_upd; first | assumption | (refine kept_ite (fun _ => ?_) (fun _ => ?_))) | exact cycOk_refl | exact comOk_refl
    | exact podOk_refl

theorem State.alignTimekeeper_kept {cq : List Instr} {s : State} (h : Kept cq s) : Kept cq s.alignTimekeeper := by
  unfold State.alignTimekeeper
  repeat' with_reducible first
    | assumption | apply State.setFld_kept
    | ((refine nv_put ?_ ?_ ?_ ?_ ?_ ?_) <;> with_unfolding_all (rintro ⟨_, _, _, _, _, _⟩; first
        | assumption | rfl | exact Store.wf_set _ _ _ _ ‹_›))
    | (apply kept_upd; first | assumption | apply State.setFld_kept | (refine kept_ite (fun _ => ?_) (fun _ => ?_)))
    | exact cycOk_refl
    | exact comOk_refl | exact podOk_refl

theorem State.fireWake_kept {cq : List Instr} {s : State} (h : Kept cq s) (src session : Nat) :
    Kept cq (s.fireWake src session) := by
  unfold State.fireWake
  repeat' with_reducible first
    | assumption | apply State.setFld_kept | apply State.raiseEvt_kept | apply State.raiseRec_kept
    | (apply kept_upd; first
        | assumption | apply State.setFld_kept | apply State.raiseEvt_kept | apply State.raiseRec_kept
        | (refine kept_ite (fun _ => ?_) (fun _ => ?_)))
    | exact cycOk_refl | exact comOk_refl | exact podOk_refl | exact nvOk_refl

theorem execTimekeeperAlign_kept {cq : List Instr} {s : State} (h : Kept cq s) : OKept cq (execTimekeeperAlign s) := by
  unfold execTimekeeperAlign
  repeat' with_reducible first | assumption | apply State.alignTimekeeper_kept | apply okept_next | split

theorem execTimeFloorSave_kept {cq : List Instr} {s : State} (h : Kept cq s) : OKept cq (execTimeFloorSave s) := by
  unfold execTimeFloorSave
  repeat' with_reducible first | assumption | apply State.saveFloor_kept | apply okept_next | split

theorem execTimekeeperSupplyBreak_kept {cq : List Instr} {s : State} (h : Kept cq s) :
    OKept cq (execTimekeeperSupplyBreak s) := by
  unfold execTimekeeperSupplyBreak
  repeat' with_reducible first
    | assumption | apply okept_next
    | ((refine nv_put ?_ ?_ ?_ ?_ ?_ ?_) <;> with_unfolding_all (rintro ⟨_, _, _, _, _, _⟩; first
        | assumption | rfl | exact Store.wf_set _ _ _ _ ‹_›))
    | (apply kept_upd; assumption) | exact cycOk_refl | exact comOk_refl | exact podOk_refl | split

theorem execPpsEdge_kept {cq : List Instr} {s : State} (h : Kept cq s) : OKept cq (execPpsEdge s) := by
  unfold execPpsEdge
  repeat' with_reducible first
    | assumption | apply State.addSat_kept | apply State.ppsEdge_kept | apply okept_next | split | dsimp only

theorem execPpsTimeout_kept {cq : List Instr} {s : State} (h : Kept cq s) : OKept cq (execPpsTimeout s) := by
  unfold execPpsTimeout
  repeat' with_reducible first
    | assumption | apply State.setFld_kept | apply State.raiseEvt_kept | apply State.setClock_kept | apply okept_next | split
    | dsimp only

theorem State.setRecorder_kept {cq : List Instr} {s : State} (h : Kept cq s) (r : Recorder) : Kept cq (s.setRecorder r) := by
  unfold State.setRecorder
  repeat' with_reducible first
    | assumption
    | ((refine nv_put ?_ ?_ ?_ ?_ ?_ ?_) <;> with_unfolding_all (rintro ⟨_, _, _, _, _, _⟩; first
        | assumption | rfl | exact Store.wf_set _ _ _ _ ‹_›))
    | (apply kept_upd; assumption) | exact cycOk_refl | exact comOk_refl | exact podOk_refl

theorem State.q49Lose_kept {cq : List Instr} {s : State} (h : Kept cq s) (c : Nat) : Kept cq (s.q49Lose c) := by
  unfold State.q49Lose
  extract_lets t l u0 u r x
  have ht : Kept cq t := State.raiseEvt_kept (State.podCount_kept (State.addSat_kept h _ _) _ _) _ _
  have hu : Kept cq u := by
    with_reducible apply kept_upd
    · exact ht
    all_goals exact fun h => h
  have hf : x.entries.length ≤ (queueShape 49).1 := hu.2.fit 49
  refine kept_ite (fun hg => State.setQueue_kept hu _ _ ?_) (fun _ => kept_ite (fun _ => State.push_kept hu _ _ _) fun _ => hu)
  dsimp only
  rw [List.length_append, List.length_dropLast]
  have h1 : ((x.entries.getLast?.map fun e => ({ e with body := .record r } : QEntry)).toList).length ≤ 1 := by
    cases x.entries.getLast? <;> simp
  have h2 : x.entries ≠ [] := by
    intro h0
    have : (u.queue 49).entries = [] := h0
    simp [State.q49Gap, this] at hg
  have := List.length_pos_iff.mpr h2
  have h3 : x.entries.length - 1 + 1 ≤ (queueShape 49).1 := by omega
  exact Nat.le_trans (Nat.add_le_add_left h1 _) h3

theorem State.offerQ49_kept {cq : List Instr} {s : State} (h : Kept cq s) (r : Rec) : Kept cq (s.offerQ49 r) := by
  unfold State.offerQ49
  repeat' with_reducible first | assumption | apply State.push_kept | apply State.q49Lose_kept | split | dsimp only

theorem State.countWritten_kept {cq : List Instr} {s : State} (h : Kept cq s) : Kept cq s.countWritten := by
  unfold State.countWritten
  repeat' with_reducible first
    | assumption | apply State.setFld_kept | apply State.raiseMax_kept
    | (apply kept_upd; first
        | assumption | apply State.setFld_kept | apply State.raiseMax_kept | (refine kept_ite (fun _ => ?_) (fun _ => ?_)))
    | exact cycOk_refl | exact comOk_refl | exact podOk_refl | exact nvOk_refl

theorem State.writeRecord_kept {cq : List Instr} {s : State} (h : Kept cq s) (x : Rec) : Kept cq (s.writeRecord x) := by
  unfold State.writeRecord
  repeat' with_reducible first
    | assumption | apply State.offer_kept | apply State.raiseEvt_kept | apply State.podCount_kept | apply State.raiseRec_kept
    | apply State.setRecorder_kept | apply State.offerQ49_kept | apply State.countWritten_kept
    | (apply kept_upd; first
        | assumption | apply State.offer_kept | apply State.raiseEvt_kept | apply State.podCount_kept | apply State.raiseRec_kept
        | apply State.setRecorder_kept | apply State.offerQ49_kept | apply State.countWritten_kept
        | (refine foldl_kept ?_ (fun s x h => ?_)) | (refine kept_ite (fun _ => ?_) (fun _ => ?_)))
    | exact cycOk_refl | exact comOk_refl | exact podOk_refl | exact nvOk_refl

theorem State.writeStaged__kept {cq : List Instr} {s : State} (h : Kept cq s) (n : Nat) : Kept cq (State.writeStaged_ n s) := by
  induction n generalizing s with
  | zero => exact h
  | succ n ih =>
    unfold State.writeStaged_
    repeat' with_reducible first
      | assumption | apply ih | apply State.writeRecord_kept
      | (apply kept_upd; first | assumption | apply ih | apply State.writeRecord_kept) | exact cycOk_refl | exact comOk_refl
      | exact podOk_refl | exact nvOk_refl | split

theorem State.reportLoss_kept {cq : List Instr} {s : State} (h : Kept cq s) : Kept cq s.reportLoss := by
  unfold State.reportLoss
  repeat' with_reducible first
    | assumption | apply State.stage_kept | (apply kept_upd; first | assumption | apply State.stage_kept) | exact cycOk_refl
    | exact comOk_refl | exact podOk_refl | exact nvOk_refl | split

theorem State.flushRecorder_kept {cq : List Instr} {s : State} (h : Kept cq s) : Kept cq s.flushRecorder := by
  unfold State.flushRecorder
  repeat' with_reducible first
    | assumption | apply State.addSat_kept | apply State.podCount_kept | apply State.writeStaged__kept
    | apply State.reportLoss_kept
    | (apply kept_upd; first
        | assumption | apply State.addSat_kept | apply State.podCount_kept | apply State.writeStaged__kept
        | apply State.reportLoss_kept | (refine foldl_kept ?_ (fun s x h => ?_)))
    | exact cycOk_refl | exact comOk_refl | exact podOk_refl | exact nvOk_refl

theorem State.recClear_kept {cq : List Instr} {s : State} (h : Kept cq s) (session : Nat) (num : Word) :
    Kept cq (s.recClear session num) := by
  unfold State.recClear
  repeat' with_reducible first
    | assumption | apply State.setFld_kept | apply State.raiseRec_kept
    | (apply kept_upd; first | assumption | apply State.setFld_kept | apply State.raiseRec_kept) | exact cycOk_refl
    | exact comOk_refl
    | exact podOk_refl | exact nvOk_refl

theorem execRecorderWrite_kept {cq : List Instr} {s : State} (h : Kept cq s) (n : Nat) : OKept cq (execRecorderWrite n s) := by
  unfold execRecorderWrite
  repeat' with_reducible first | assumption | apply State.writeStaged__kept | apply okept_next

theorem execRecordsLostReport_kept {cq : List Instr} {s : State} (h : Kept cq s) : OKept cq (execRecordsLostReport s) := by
  unfold execRecordsLostReport
  repeat' with_reducible first | assumption | apply State.reportLoss_kept | apply okept_next

theorem execRecorderEraseEnd_kept {cq : List Instr} {s : State} (h : Kept cq s) : OKept cq (execRecorderEraseEnd s) := by
  unfold execRecorderEraseEnd
  repeat' with_reducible first
    | assumption | apply State.setFld_kept | apply State.raiseEvt_kept | apply State.setRecorder_kept | apply okept_next
    | (apply kept_upd; first | assumption | apply State.setFld_kept | apply State.raiseEvt_kept | apply State.setRecorder_kept)
    | exact cycOk_refl | exact comOk_refl | exact podOk_refl | exact nvOk_refl | split

theorem execFirmwareRecord_kept {cq : List Instr} {s : State} (h : Kept cq s) (_core : Fin 4) (source : Word) (body : List Word) :
    OKept cq (execFirmwareRecord _core source body s) := by
  unfold execFirmwareRecord
  repeat' with_reducible first | assumption | apply State.raiseRec_kept | apply okept_next | split

end Sys2Proof.Machine
end

