-- ==== Sys2Proof/Laws/KeepsPod.lean ====
section
/-! SUPPORT. The invariant is kept by the peas, the voters and the code that peas run: one lemma for each definition,
in the order of the model. -/

namespace Sys2Proof.Machine

theorem State.setPeaState_kept {cq : List Instr} {s : State} (h : Kept cq s) (p : PeaId) (st : Nat) :
    Kept cq (s.setPeaState p st) := by
  unfold State.setPeaState
  repeat' with_reducible first | assumption | apply State.setFld_kept | apply State.peaCount_kept | split

theorem State.showPod_kept {cq : List Instr} {s : State} (h : Kept cq s) : Kept cq s.showPod := by
  unfold State.showPod
  repeat' with_reducible first | assumption | apply State.setFld_kept

theorem State.peasTo_kept {cq : List Instr} {s : State} (h : Kept cq s) (st : Nat) : Kept cq (s.peasTo st) := by
  unfold State.peasTo
  repeat' with_reducible first
    | assumption | apply State.setFld_kept | apply State.setPeaState_kept | apply State.showPod_kept
    | (refine foldl_kept ?_ (fun s x h => ?_))

theorem State.writeHalf_kept {cq : List Instr} {s : State} (h : Kept cq s) (p : PeaId) (pr : Program) (half : Nat)
    (flips : List (Nat × Word)) : Kept cq (s.writeHalf p pr half flips) := by
  unfold State.writeHalf
  repeat' with_reducible first
    | assumption | (refine State.setPea_kept ?_ _ _ ?_) | apply peaPut_canonical | refine pea_canonical (q := cq) ?_ _
    | (refine foldl_canonical ?_ (fun x b hx => ?_))

theorem State.noteStaged_kept {cq : List Instr} {s : State} (h : Kept cq s) : Kept cq s.noteStaged := by
  unfold State.noteStaged
  repeat' with_reducible first | assumption | apply State.setFld_kept | apply State.raiseEvt_kept | split

theorem State.stagePea_kept {cq : List Instr} {s : State} (h : Kept cq s) (p : PeaId) (flips : List (Nat × Word)) :
    Kept cq (s.stagePea p flips) := by
  unfold State.stagePea
  repeat' with_reducible first
    | assumption | apply State.setReg_kept | apply State.writeHalf_kept | apply State.noteStaged_kept | split | dsimp only

theorem State.memErr_kept {cq : List Instr} {s : State} (h : Kept cq s) (p : PeaId) (m : MemKind) (w : Nat) (uncorr : Bool) :
    Kept cq (s.memErr p m w uncorr) := by
  unfold State.memErr
  repeat' with_reducible first | assumption | apply State.setReg_kept

theorem State.correctWord_kept {cq : List Instr} {s : State} (h : Kept cq s) (p : PeaId) (m : MemKind) (w : Nat) :
    Kept cq (s.correctWord p m w) := by
  unfold State.correctWord
  repeat' with_reducible first
    | assumption | apply State.addSat_kept | apply State.raiseEvt_kept | apply State.peaCount_kept | apply State.raiseRec_kept
    | apply State.memErr_kept
    | (apply pea_with; first | assumption | refine pea_canonical (q := cq) ?_ _ | exact pea_reset_canonical _)
    | (apply kept_upd; first
        | assumption | apply State.addSat_kept | apply State.raiseEvt_kept | apply State.peaCount_kept
        | apply State.raiseRec_kept | apply State.memErr_kept | (refine State.setPea_kept ?_ _ _ ?_))
    | exact cycOk_refl | exact comOk_refl | exact podOk_refl | exact nvOk_refl

theorem State.readWord_kept {cq : List Instr} {s : State} (h : Kept cq s) (p : PeaId) (m : MemKind) (w : Nat) :
    Kept cq (s.readWord p m w).1 := by
  unfold State.readWord
  repeat' with_reducible first | assumption | apply State.correctWord_kept | split | dsimp only

theorem State.writeWord_kept {cq : List Instr} {s : State} (h : Kept cq s) (p : PeaId) (m : MemKind) (w : Nat) (v : Word) :
    Kept cq (s.writeWord p m w v) := by
  unfold State.writeWord
  repeat' with_reducible first
    | assumption | (refine State.setPea_kept ?_ _ _ ?_) | apply peaStore_canonical | refine pea_canonical (q := cq) ?_ _

theorem State.latchDonor_kept {cq : List Instr} {s : State} (h : Kept cq s) : Kept cq s.latchDonor := by
  unfold State.latchDonor
  repeat' with_reducible first
    | assumption | (apply kept_upd; first | assumption | (refine kept_ite (fun _ => ?_) (fun _ => ?_))) | exact cycOk_refl
    | exact comOk_refl | exact podOk_refl | exact nvOk_refl

theorem State.stampSamples_kept {cq : List Instr} {s : State} (h : Kept cq s) (f : Sample → Sample) :
    Kept cq (s.stampSamples f) := by
  unfold State.stampSamples
  repeat' with_reducible first
    | assumption | (apply kept_upd; assumption) | exact cycOk_refl | exact comOk_refl | exact podOk_refl | exact nvOk_refl

theorem State.showBuffer_kept {cq : List Instr} {s : State} (h : Kept cq s) : Kept cq s.showBuffer := by
  unfold State.showBuffer
  repeat' with_reducible first | assumption | apply State.setFld_kept | apply State.raiseMax_kept

theorem State.bufferToken_kept {cq : List Instr} {s : State} (h : Kept cq s) (t : Released) : Kept cq (s.bufferToken t) := by
  unfold State.bufferToken
  repeat' with_reducible first
    | assumption | apply State.raiseEvt_kept | apply State.kernelFault_kept | apply State.showBuffer_kept
    | ((refine com_put ?_ ?_) <;> with_unfolding_all (rintro ⟨_, _⟩; first | assumption | exact Store.wf_set _ _ _ _ ‹_›))
    | (apply kept_upd; first
        | assumption | apply State.raiseEvt_kept | apply State.kernelFault_kept | apply State.showBuffer_kept
        | (refine kept_ite (fun _ => ?_) (fun _ => ?_)))
    | exact cycOk_refl | exact podOk_refl | exact nvOk_refl

theorem State.deliver_kept {cq : List Instr} {s : State} (h : Kept cq s) (t : Released) : Kept cq (s.deliver t) := by
  unfold State.deliver
  repeat' with_reducible first
    | assumption | apply State.setReg_kept | apply State.setFld_kept | apply State.podCount_kept | apply State.latchDonor_kept
    | apply State.stampSamples_kept | apply State.bufferToken_kept
    | ((refine pod_put ?_ ?_ ?_ ?_) <;> with_unfolding_all (rintro ⟨_, _, _, _⟩; first
        | assumption | (apply pea_with; assumption) | omega))
    | ((refine com_put ?_ ?_) <;> with_unfolding_all (rintro ⟨_, _⟩; first | assumption | exact Store.wf_set _ _ _ _ ‹_›))
    | (apply kept_upd; first
        | assumption | apply State.setReg_kept | apply State.setFld_kept | apply State.podCount_kept
        | apply State.latchDonor_kept | apply State.stampSamples_kept | apply State.bufferToken_kept
        | (refine kept_ite (fun _ => ?_) (fun _ => ?_)))
    | exact cycOk_refl | exact nvOk_refl

theorem State.passTokens_kept {cq : List Instr} {s : State} (h : Kept cq s) (n : Nat) : Kept cq (State.passTokens n s) := by
  induction n generalizing s with
  | zero => exact h
  | succ n ih =>
    unfold State.passTokens
    repeat' with_reducible first | assumption | apply ih | apply State.deliver_kept | split

theorem State.digestAgreed_kept {cq : List Instr} {s : State} (h : Kept cq s) (p : PeaId) : Kept cq (s.digestAgreed p) := by
  unfold State.digestAgreed
  repeat' with_reducible first
    | assumption | (apply pea_with; first | assumption | refine pea_canonical (q := cq) ?_ _ | exact pea_reset_canonical _)
    | (apply kept_upd; first | assumption | (refine State.setPea_kept ?_ _ _ ?_)) | exact cycOk_refl | exact comOk_refl
    | exact podOk_refl
    | exact nvOk_refl

theorem State.dropClosed_kept {cq : List Instr} {s : State} (h : Kept cq s) : Kept cq s.dropClosed := by
  unfold State.dropClosed
  repeat' with_reducible first
    | assumption | apply State.digestAgreed_kept
    | ((refine pod_put ?_ ?_ ?_ ?_) <;> with_unfolding_all (rintro ⟨_, _, _, _⟩; first
        | assumption | (apply pea_with; assumption) | omega))
    | (apply kept_upd; first | assumption | apply State.digestAgreed_kept | (refine foldl_kept ?_ (fun s x h => ?_)))
    | exact cycOk_refl
    | exact comOk_refl | exact nvOk_refl

theorem State.settle_kept {cq : List Instr} {s : State} (h : Kept cq s) : Kept cq s.settle := by
  unfold State.settle
  repeat' with_reducible first | assumption | apply State.passTokens_kept | apply State.dropClosed_kept

theorem State.showLag_kept {cq : List Instr} {s : State} (h : Kept cq s) : Kept cq s.showLag := by
  unfold State.showLag
  repeat' with_reducible first | assumption | apply State.setFld_kept

theorem State.clearLag_kept {cq : List Instr} {s : State} (h : Kept cq s) : Kept cq s.clearLag := by
  unfold State.clearLag
  repeat' with_reducible first
    | assumption | apply State.showLag_kept
    | (apply pea_with; first | assumption | refine pea_canonical (q := cq) ?_ _ | exact pea_reset_canonical _)
    | (apply kept_upd; first
        | assumption | apply State.showLag_kept | (refine foldl_kept ?_ (fun s x h => ?_)) | (refine State.setPea_kept ?_ _ _ ?_))
    | exact cycOk_refl | exact comOk_refl | exact podOk_refl | exact nvOk_refl

theorem State.afterEvict_kept {cq : List Instr} {s : State} (h : Kept cq s) (p : PeaId) : Kept cq (s.afterEvict p) := by
  unfold State.afterEvict
  repeat' with_reducible first
    | assumption | apply State.raiseEvt_kept | apply State.kernelFault_kept | apply State.noteStaged_kept
    | apply State.settle_kept
    | apply State.clearLag_kept
    | ((refine pod_put ?_ ?_ ?_ ?_) <;> with_unfolding_all (rintro ⟨_, _, _, _⟩; first
        | assumption | (apply pea_with; assumption) | omega))
    | (apply kept_with; first
        | assumption | apply State.raiseEvt_kept | apply State.kernelFault_kept | apply State.noteStaged_kept
        | apply State.settle_kept | apply State.clearLag_kept | (refine kept_ite (fun _ => ?_) (fun _ => ?_)))
    | (apply kept_upd; first
        | assumption | apply State.raiseEvt_kept | apply State.kernelFault_kept | apply State.noteStaged_kept
        | apply State.settle_kept | apply State.clearLag_kept | (refine kept_ite (fun _ => ?_) (fun _ => ?_)))
    | exact cycOk_refl | exact comOk_refl | exact nvOk_refl

theorem State.evict_kept {cq : List Instr} {s : State} (h : Kept cq s) (p : PeaId) (reason : Nat) (path : Bool) :
    Kept cq (s.evict p reason path) := by
  unfold State.evict
  repeat' with_reducible first
    | assumption | apply State.setReg_kept | apply State.setFld_kept | apply State.addSat_kept | apply State.raiseEvt_kept
    | apply State.podCount_kept | apply State.raiseRec_kept | apply State.setPeaState_kept | apply State.showPod_kept
    | apply State.showLag_kept | apply State.afterEvict_kept
    | (apply pea_with; first | assumption | refine pea_canonical (q := cq) ?_ _ | exact pea_reset_canonical _)
    | ((refine pod_put ?_ ?_ ?_ ?_) <;> with_unfolding_all (rintro ⟨_, _, _, _⟩; first
        | assumption | (apply pea_with; assumption) | omega))
    | (apply kept_upd; first
        | assumption | apply State.setReg_kept | apply State.setFld_kept | apply State.addSat_kept | apply State.raiseEvt_kept
        | apply State.podCount_kept | apply State.raiseRec_kept | apply State.setPeaState_kept | apply State.showPod_kept
        | apply State.showLag_kept | apply State.afterEvict_kept | (refine State.setPea_kept ?_ _ _ ?_)
        | (refine kept_ite (fun _ => ?_) (fun _ => ?_)))
    | exact cycOk_refl | exact comOk_refl | exact nvOk_refl

theorem State.flagPea_kept {cq : List Instr} {s : State} (h : Kept cq s) (p : PeaId) (kind : Nat) (tag : Word) (k : Nat) :
    Kept cq (s.flagPea p kind tag k) := by
  unfold State.flagPea
  repeat' with_reducible first
    | assumption | apply State.setReg_kept | apply State.addSat_kept | apply State.raiseEvt_kept | apply State.podCount_kept
    | apply State.stampSamples_kept | split

theorem State.digestDisagree_kept {cq : List Instr} {s : State} (h : Kept cq s) (p : PeaId) : Kept cq (s.digestDisagree p) := by
  unfold State.digestDisagree
  repeat' with_reducible first
    | assumption | apply State.raiseEvt_kept | apply State.evict_kept
    | (apply pea_with; first | assumption | refine pea_canonical (q := cq) ?_ _ | exact pea_reset_canonical _)
    | ((refine pod_put ?_ ?_ ?_ ?_) <;> with_unfolding_all (rintro ⟨_, _, _, _⟩; first
        | assumption | (apply pea_with; assumption) | omega))
    | (apply kept_with; first
        | assumption | apply State.raiseEvt_kept | apply State.evict_kept | (refine State.setPea_kept ?_ _ _ ?_)
        | (refine kept_ite (fun _ => ?_) (fun _ => ?_)))
    | (apply kept_upd; first
        | assumption | apply State.raiseEvt_kept | apply State.evict_kept | (refine State.setPea_kept ?_ _ _ ?_)
        | (refine kept_ite (fun _ => ?_) (fun _ => ?_)))
    | exact cycOk_refl | exact comOk_refl | exact nvOk_refl | split

theorem State.mismatch_kept {cq : List Instr} {s : State} (h : Kept cq s) (p : PeaId) (tag : Word) (k : Nat) :
    Kept cq (s.mismatch p tag k) := by
  unfold State.mismatch
  repeat' with_reducible first
    | assumption | apply State.evict_kept | apply State.flagPea_kept | apply State.digestDisagree_kept | split

theorem State.late_kept {cq : List Instr} {s : State} (h : Kept cq s) (p : PeaId) (tag : Word) (k : Nat) :
    Kept cq (s.late p tag k) := by
  unfold State.late
  repeat' with_reducible first
    | assumption | apply State.showLag_kept | apply State.evict_kept | apply State.flagPea_kept
    | (apply pea_with; first | assumption | refine pea_canonical (q := cq) ?_ _ | exact pea_reset_canonical _)
    | (apply kept_upd; first
        | assumption | apply State.showLag_kept | apply State.evict_kept | apply State.flagPea_kept
        | (refine State.setPea_kept ?_ _ _ ?_) | (refine kept_ite (fun _ => ?_) (fun _ => ?_)))
    | exact cycOk_refl | exact comOk_refl | exact podOk_refl | exact nvOk_refl

theorem State.checkLag_kept {cq : List Instr} {s : State} (h : Kept cq s) : Kept cq s.checkLag := by
  unfold State.checkLag
  repeat' with_reducible first | assumption | apply State.evict_kept | (refine foldl_kept ?_ (fun s x h => ?_)) | split

theorem State.putPosition_kept {cq : List Instr} {s : State} (h : Kept cq s) (q : Position) : Kept cq (s.putPosition q) := by
  unfold State.putPosition
  repeat' with_reducible first
    | assumption
    | ((refine pod_put ?_ ?_ ?_ ?_) <;> with_unfolding_all (rintro ⟨_, _, _, _⟩; first
        | assumption | (apply pea_with; assumption) | omega))
    | (apply kept_upd; assumption) | exact cycOk_refl | exact comOk_refl | exact nvOk_refl

theorem State.noteSkew_kept {cq : List Instr} {s : State} (h : Kept cq s) (p : PeaId) (q : Position) :
    Kept cq (s.noteSkew p q) := by
  unfold State.noteSkew
  repeat' with_reducible first | assumption | apply State.setReg_kept | split | dsimp only

theorem State.arriveTriplex_kept {cq : List Instr} {s : State} (h : Kept cq s) (q : Position) (p : PeaId) (t : Released) :
    Kept cq (s.arriveTriplex q p t) := by
  unfold State.arriveTriplex
  repeat' with_reducible first
    | assumption | apply State.raiseEvt_kept | apply State.podCount_kept | apply State.kernelFault_kept | apply State.settle_kept
    | apply State.mismatch_kept | apply State.putPosition_kept | apply State.noteSkew_kept | split

theorem State.arriveDuplex_kept {cq : List Instr} {s : State} (h : Kept cq s) (q : Position) (p : PeaId) (t : Released) :
    Kept cq (s.arriveDuplex q p t) := by
  unfold State.arriveDuplex
  repeat' with_reducible first
    | assumption | apply State.kernelFault_kept | apply State.settle_kept | apply State.putPosition_kept | split

theorem State.arrive_kept {cq : List Instr} {s : State} (h : Kept cq s) (p : PeaId) (k : Nat) (t : Released) :
    Kept cq (s.arrive p k t) := by
  unfold State.arrive
  repeat' with_reducible first
    | assumption | apply State.kernelFault_kept | apply State.digestAgreed_kept | apply State.showLag_kept
    | apply State.mismatch_kept
    | apply State.arriveTriplex_kept | apply State.arriveDuplex_kept
    | (apply pea_with; first | assumption | refine pea_canonical (q := cq) ?_ _ | exact pea_reset_canonical _)
    | ((refine pod_put ?_ ?_ ?_ ?_) <;> with_unfolding_all (rintro ⟨_, _, _, _⟩; first
        | assumption | (apply pea_with; assumption) | omega))
    | (apply kept_with; first
        | assumption | apply State.kernelFault_kept | apply State.digestAgreed_kept | apply State.showLag_kept
        | apply State.mismatch_kept | apply State.arriveTriplex_kept | apply State.arriveDuplex_kept
        | (refine State.setPea_kept ?_ _ _ ?_) | (refine kept_ite (fun _ => ?_) (fun _ => ?_)))
    | (apply kept_upd; first
        | assumption | apply State.kernelFault_kept | apply State.digestAgreed_kept | apply State.showLag_kept
        | apply State.mismatch_kept | apply State.arriveTriplex_kept | apply State.arriveDuplex_kept
        | (refine State.setPea_kept ?_ _ _ ?_) | (refine kept_ite (fun _ => ?_) (fun _ => ?_)))
    | exact cycOk_refl | exact comOk_refl | exact nvOk_refl | split

theorem State.voterDifference_kept {cq : List Instr} {s : State} (h : Kept cq s) : Kept cq s.voterDifference := by
  unfold State.voterDifference
  repeat' with_reducible first | assumption | apply State.raiseEvt_kept | apply State.kernelFault_kept

theorem execTokenCopyArrival_kept {cq : List Instr} {s : State} (h : Kept cq s) (p : PeaId) (mask : BitVec 128) (differ : Bool) :
    OKept cq (execTokenCopyArrival p mask differ s) := by
  unfold execTokenCopyArrival
  repeat' with_reducible first
    | assumption | apply State.setFld_kept | apply State.kernelFault_kept | apply State.evict_kept | apply State.flagPea_kept
    | apply State.checkLag_kept | apply State.arrive_kept | apply State.voterDifference_kept
    | (apply pea_with; first | assumption | refine pea_canonical (q := cq) ?_ _ | exact pea_reset_canonical _) | apply okept_next
    | (apply kept_upd; first
        | assumption | apply State.setFld_kept | apply State.kernelFault_kept | apply State.evict_kept | apply State.flagPea_kept
        | apply State.checkLag_kept | apply State.arrive_kept | apply State.voterDifference_kept
        | (refine State.setPea_kept ?_ _ _ ?_))
    | exact cycOk_refl | exact comOk_refl | exact podOk_refl | exact nvOk_refl | split | dsimp only

theorem execSkewTimerExpiry_kept {cq : List Instr} {s : State} (h : Kept cq s) (x : VoterTimer) :
    OKept cq (execSkewTimerExpiry x s) := by
  unfold execSkewTimerExpiry
  repeat' with_reducible first
    | assumption | apply State.settle_kept | apply State.late_kept | apply State.putPosition_kept
    | apply State.voterDifference_kept
    | apply okept_next
    | (apply kept_upd; first
        | assumption | apply State.settle_kept | apply State.late_kept | apply State.putPosition_kept
        | apply State.voterDifference_kept | (refine foldl_kept ?_ (fun s x h => ?_)))
    | exact cycOk_refl | exact comOk_refl | exact podOk_refl | exact nvOk_refl | split

theorem execSplitTimerExpiry_kept {cq : List Instr} {s : State} (h : Kept cq s) (x : VoterTimer) :
    OKept cq (execSplitTimerExpiry x s) := by
  unfold execSplitTimerExpiry
  repeat' with_reducible first
    | assumption | apply State.raiseEvt_kept | apply State.kernelFault_kept | apply State.voterDifference_kept | apply okept_next
    | split

theorem execHeldRelease_kept {cq : List Instr} {s : State} (h : Kept cq s) (p : PeaId) : OKept cq (execHeldRelease p s) := by
  unfold execHeldRelease
  repeat' with_reducible first | assumption | apply State.setPeaState_kept | apply okept_next | split

theorem State.peaFault_kept {cq : List Instr} {s : State} (h : Kept cq s) (p : PeaId) (kind group task cause : Nat) :
    Kept cq (s.peaFault p kind group task cause) := by
  unfold State.peaFault
  repeat' with_reducible first
    | assumption | apply State.setReg_kept | apply State.addSat_kept | apply State.raiseEvt_kept | apply State.raiseRec_kept
    | apply State.evict_kept
    | (apply pea_with; first | assumption | refine pea_canonical (q := cq) ?_ _ | exact pea_reset_canonical _)
    | (apply kept_upd; first
        | assumption | apply State.setReg_kept | apply State.addSat_kept | apply State.raiseEvt_kept | apply State.raiseRec_kept
        | apply State.evict_kept | (refine State.setPea_kept ?_ _ _ ?_) | (refine kept_ite (fun _ => ?_) (fun _ => ?_)))
    | exact cycOk_refl | exact comOk_refl | exact podOk_refl | exact nvOk_refl

theorem State.sample_kept {cq : List Instr} {s : State} (h : Kept cq s) (p : PeaId) (f : Sample → Sample) :
    Kept cq (s.sample p f) := by
  unfold State.sample
  repeat' with_reducible first
    | assumption | (apply kept_upd; assumption) | exact cycOk_refl | exact comOk_refl | exact podOk_refl | exact nvOk_refl

theorem State.trapPea_kept {cq : List Instr} {s : State} (h : Kept cq s) (p : PeaId) (slot pc cause : Nat) :
    Kept cq (s.trapPea p slot pc cause) := by
  unfold State.trapPea
  repeat' with_reducible first
    | assumption | apply State.setReg_kept | apply State.raiseEvt_kept | apply State.peaCount_kept | apply State.peaFault_kept
    | apply State.sample_kept | split

theorem State.uncorrectable_kept {cq : List Instr} {s : State} (h : Kept cq s) (p : PeaId) (m : MemKind) (w : Nat) :
    Kept cq (s.uncorrectable p m w) := by
  unfold State.uncorrectable
  repeat' with_reducible first | assumption | apply State.memErr_kept | apply State.peaFault_kept

/-- The state that an instruction ends with is kept. -/
def UKept (q : List Instr) : UbcRes → Prop
  | .done s _ => Kept q s
  | .trap s _ => Kept q s
  | .halt s => Kept q s

theorem ukept_done {cq : List Instr} {s : State} {t : Option Nat} (h : Kept cq s) : UKept cq (.done s t) := h
theorem ukept_trap {cq : List Instr} {s : State} {c : Nat} (h : Kept cq s) : UKept cq (.trap s c) := h
theorem ukept_halt {cq : List Instr} {s : State} (h : Kept cq s) : UKept cq (.halt s) := h
theorem ubcDone_u {cq : List Instr} {s : State} (h : Kept cq s) : UKept cq (ubcDone s) := h
theorem ubcTrap_u {cq : List Instr} {s : State} {c : Nat} (h : Kept cq s) : UKept cq (ubcTrap c s) := h

theorem ukept_ite {cq : List Instr} {c : Prop} [Decidable c] {x y : UbcRes} (hx : c → UKept cq x) (hy : ¬ c → UKept cq y) :
    UKept cq (if c then x else y) := by
  split
  · exact hx ‹_›
  · exact hy ‹_›

theorem ubcRead_u {cq : List Instr} {s : State} (h : Kept cq s) (p : PeaId) (m : MemKind) (w : Nat) {k : Word → UbcK}
    (hk : ∀ v s, Kept cq s → UKept cq (k v s)) : UKept cq (ubcRead p m w k s) := by
  unfold ubcRead
  split
  · exact hk _ _ (kept_of_eq (by assumption) (State.readWord_kept h _ _ _))
  · exact State.uncorrectable_kept (kept_of_eq (by assumption) (State.readWord_kept h _ _ _)) _ _ _

theorem ubcWrite_u {cq : List Instr} {s : State} (h : Kept cq s) (p : PeaId) (m : MemKind) (w : Nat) (v : Word) {k : UbcK}
    (hk : ∀ s, Kept cq s → UKept cq (k s)) : UKept cq (ubcWrite p m w v k s) := hk _ (State.writeWord_kept h _ _ _ _)

theorem ubcReg_u {cq : List Instr} {s : State} (h : Kept cq s) (p : PeaId) (x : Release) (r : Nat) {k : Word → UbcK}
    (hk : ∀ v s, Kept cq s → UKept cq (k v s)) : UKept cq (ubcReg p x r k s) := ubcRead_u h _ _ _ hk

theorem ubcPut_u {cq : List Instr} {s : State} (h : Kept cq s) (p : PeaId) (x : Release) (r : Nat) (v : Word) {k : UbcK}
    (hk : ∀ s, Kept cq s → UKept cq (k s)) : UKept cq (ubcPut p x r v k s) := ubcWrite_u h _ _ _ _ hk

theorem ubcCheck_u {cq : List Instr} {s : State} (h : Kept cq s) {b : Bool} {c : Nat} {k : UbcK} (hk : UKept cq (k s)) :
    UKept cq (ubcCheck b c k s) := by
  unfold ubcCheck
  split
  · exact hk
  · exact h

theorem ubcVital_u {cq : List Instr} {s : State} (h : Kept cq s) (p : PeaId) (x : Release) (r : Nat) {k : Bool → UbcK}
    (hk : ∀ b s, Kept cq s → UKept cq (k b s)) : UKept cq (ubcVital p x r k s) := by
  unfold ubcVital
  refine ubcReg_u h _ _ _ fun v s h => ?_
  cases vital? v with
  | some b => exact hk _ _ h
  | none => exact h

theorem ubcSym_u {cq : List Instr} {s : State} (h : Kept cq s) (id : Nat) {k : Symbol → UbcK} (hk : ∀ y, UKept cq (k y s)) :
    UKept cq (ubcSym id k s) := by
  unfold ubcSym
  refine ukept_ite (fun _ => h) fun _ => ?_
  split
  · exact hk _
  · exact h

theorem holdPea_kept {cq : List Instr} {s : State} (h : Kept cq s) (p : PeaId) (n : Nat) : Kept cq (holdPea s p n) := by
  unfold holdPea
  repeat' with_reducible first
    | assumption | apply State.raiseEvt_kept | apply State.podCount_kept | apply State.setPeaState_kept
    | (apply pea_with; first | assumption | refine pea_canonical (q := cq) ?_ _ | exact pea_reset_canonical _)
    | (apply kept_upd; first
        | assumption | apply State.raiseEvt_kept | apply State.podCount_kept | apply State.setPeaState_kept
        | (refine State.setPea_kept ?_ _ _ ?_))
    | exact cycOk_refl | exact comOk_refl | exact podOk_refl | exact nvOk_refl

theorem pushToken_kept {cq : List Instr} {s : State} (h : Kept cq s) (p : PeaId) (tag p0 p1 : Word) :
    Kept cq (pushToken s p tag p0 p1) := by
  unfold pushToken
  repeat' with_reducible first
    | assumption | apply State.setFld_kept | apply State.raiseMax_kept | apply State.peaCount_kept | apply State.evict_kept
    | apply State.flagPea_kept | apply holdPea_kept
    | (apply pea_with; first | assumption | refine pea_canonical (q := cq) ?_ _ | exact pea_reset_canonical _)
    | (apply kept_upd; first
        | assumption | apply State.setFld_kept | apply State.raiseMax_kept | apply State.peaCount_kept | apply State.evict_kept
        | apply State.flagPea_kept | apply holdPea_kept | (refine State.setPea_kept ?_ _ _ ?_)
        | (refine kept_ite (fun _ => ?_) (fun _ => ?_)))
    | exact cycOk_refl | exact comOk_refl | exact podOk_refl | exact nvOk_refl

theorem emitToken_kept {cq : List Instr} {s : State} (h : Kept cq s) (p : PeaId) (x : Release) (kind : Nat) (p0 p1 : Word) :
    Kept cq (emitToken s p x kind p0 p1) := by
  unfold emitToken
  repeat' with_reducible first
    | assumption | apply State.peaCount_kept | apply State.sample_kept | apply pushToken_kept
    | (apply pea_with; first | assumption | refine pea_canonical (q := cq) ?_ _ | exact pea_reset_canonical _)
    | (apply kept_upd; first
        | assumption | apply State.peaCount_kept | apply State.sample_kept | apply pushToken_kept
        | (refine State.setPea_kept ?_ _ _ ?_) | (refine kept_ite (fun _ => ?_) (fun _ => ?_)))
    | exact cycOk_refl | exact comOk_refl | exact podOk_refl | exact nvOk_refl

theorem ubcEmit_u {cq : List Instr} {s : State} (h : Kept cq s) {p : PeaId} {x : Release} {kind : Nat} {w : BitVec 24} :
    UKept cq (ubcEmit p x kind w s) := by
  unfold ubcEmit
  refine ubcCheck_u h (ubcReg_u h _ _ _ fun p0 s h => ubcReg_u h _ _ _ fun p1 s h => ?_)
  dsimp only
  exact ubcCheck_u h (ubcCheck_u h (ubcCheck_u h (emitToken_kept h _ _ _ _ _)))

theorem ubcBranch_u {cq : List Instr} {s : State} (h : Kept cq s) {p : PeaId} {x : Release} {w : BitVec 24} {taken : Bool} :
    UKept cq (ubcBranch p x w taken s) := by
  unfold ubcBranch
  refine ukept_ite (fun _ => h) fun _ => ukept_ite (fun _ => ?_) (fun _ => h)
  exact State.peaCount_kept h _ _ _

theorem sampleTry_kept {cq : List Instr} {s : State} (h : Kept cq s) (p : PeaId) (x : Release) (opcode : Nat) :
    Kept cq (sampleTry s p x opcode) := by
  unfold sampleTry
  repeat' with_reducible first
    | assumption | apply State.setFld_kept
    | (apply kept_upd; first | assumption | apply State.setFld_kept | (refine kept_ite (fun _ => ?_) (fun _ => ?_)))
    | exact cycOk_refl
    | exact comOk_refl | exact podOk_refl | exact nvOk_refl | dsimp only

theorem finishInstr_kept {cq : List Instr} {s : State} (h : Kept cq s) (p : PeaId) (x : Release) (ops : Nat) (target : Option Nat)
    : Kept cq (finishInstr s p x ops target) := by
  unfold finishInstr
  repeat' with_reducible first
    | assumption | apply State.peaCount_kept | apply State.sample_kept | apply State.trapPea_kept
    | (apply pea_with; first | assumption | refine pea_canonical (q := cq) ?_ _ | exact pea_reset_canonical _)
    | (apply kept_upd; first
        | assumption | apply State.peaCount_kept | apply State.sample_kept | apply State.trapPea_kept
        | (refine State.setPea_kept ?_ _ _ ?_))
    | exact cycOk_refl | exact comOk_refl | exact podOk_refl | exact nvOk_refl | split | dsimp only

theorem leavePipe_kept {cq : List Instr} {s : State} (h : Kept cq s) (p : PeaId) : Kept cq (leavePipe s p) := by
  unfold leavePipe
  repeat' with_reducible first
    | assumption | (apply pea_with; first | assumption | refine pea_canonical (q := cq) ?_ _ | exact pea_reset_canonical _)
    | (apply kept_upd; first | assumption | (refine State.setPea_kept ?_ _ _ ?_) | (refine kept_ite (fun _ => ?_) (fun _ => ?_)))
    | exact cycOk_refl | exact comOk_refl | exact podOk_refl | exact nvOk_refl

theorem fetchWord_kept {cq : List Instr} {s : State} (h : Kept cq s) (p : PeaId) (x : Release) : Kept cq (fetchWord s p x).1 := by
  unfold fetchWord
  extract_lets a
  have h0 := State.readWord_kept h p .mram a
  split
  all_goals rename_i e; rw [e] at h0
  · exact leavePipe_kept h0 _
  · exact State.uncorrectable_kept h0 _ _ _


theorem runInstr_kept {cq : List Instr} {s : State} (h : Kept cq s) (p : PeaId) (opcode ops : Nat) (enc : Bool)
    {body : Release → UbcK} (hb : ∀ x s, Kept cq s → UKept cq (body x s)) : OKept cq (runInstr p opcode ops enc body s) := by
  unfold runInstr
  split
  · exact okept_next h
  · refine okept_ite (fun _ => okept_next h) fun _ => ?_
    split
    rename_i s1 ok e1
    have h1 : Kept cq s1 := kept_of_eq e1 (fetchWord_kept h _ _)
    refine okept_ite (fun _ => okept_next h1) fun _ => ?_
    extract_lets t
    have ht : Kept cq t := sampleTry_kept h1 _ _ _
    refine okept_ite (fun _ => okept_next (State.trapPea_kept ht _ _ _ _)) fun _ => ?_
    refine okept_ite (fun _ => okept_next (State.trapPea_kept ht _ _ _ _)) fun _ => ?_
    have hu := hb ‹_› t ht
    split
    all_goals rename_i e; rw [e] at hu
    · exact okept_next (finishInstr_kept hu _ _ _ _)
    · exact okept_next (State.trapPea_kept hu _ _ _ _)
    · exact okept_next hu

theorem State.writeElem_kept {cq : List Instr} {s : State} (h : Kept cq s) (ps : List PeaId) (y : Symbol) (bank elem : Nat)
    (v : Word) : Kept cq (s.writeElem ps y bank elem v) := by
  unfold State.writeElem
  repeat' with_reducible first | assumption | apply State.writeWord_kept | (refine foldl_kept ?_ (fun s x h => ?_))

theorem State.deliverImage_kept {cq : List Instr} {s : State} (h : Kept cq s) (img : Image) (bank : Nat) :
    Kept cq (s.deliverImage img bank) := by
  unfold State.deliverImage
  repeat' with_reducible first
    | assumption | apply State.peaCount_kept | apply State.writeWord_kept | apply State.writeElem_kept
    | (apply kept_upd; first
        | assumption | apply State.peaCount_kept | apply State.writeWord_kept | apply State.writeElem_kept
        | (refine foldl_kept ?_ (fun s x h => ?_)))
    | exact cycOk_refl | exact comOk_refl | exact podOk_refl | exact nvOk_refl | split

theorem State.imgReg_kept {cq : List Instr} {s : State} (h : Kept cq s) (a : Nat) (v : Word) (o : Option RegDef) :
    Kept cq (s.imgReg a v o) := by
  cases o with
  | none => exact h
  | some r => exact State.setReg_kept h _ _

theorem State.putImg_kept {cq : List Instr} {s : State} (h : Kept cq s) (a : Nat) (v : Word) : Kept cq (s.putImg a v) :=
  State.imgReg_kept h _ _ _

theorem State.loadImg_kept {cq : List Instr} {s : State} (h : Kept cq s) (pr : Program) : Kept cq (s.loadImg pr) := by
  unfold State.loadImg
  repeat' with_reducible first
    | assumption | apply State.setReg_kept | apply State.setFld_kept | apply State.putImg_kept
    | (refine foldl_kept ?_ (fun s x h => ?_))
    | split

theorem State.refuseProgram_kept {cq : List Instr} {s : State} (h : Kept cq s) (code detail : Nat) (build : Word) :
    Kept cq (s.refuseProgram code detail build) := by
  unfold State.refuseProgram
  repeat' with_reducible first | assumption | apply State.setReg_kept | apply State.raiseEvt_kept | apply State.raiseRec_kept

theorem execBr_kept {cq : List Instr} {s : State} (h : Kept cq s) (p : PeaId) (w : BitVec 24) : OKept cq (execBr p w s) := by
  unfold execBr
  repeat' with_reducible first | assumption | (refine runInstr_kept ?_ _ _ _ _ (fun x s h => ?_)) | apply ubcBranch_u

theorem execBt_kept {cq : List Instr} {s : State} (h : Kept cq s) (p : PeaId) (w : BitVec 24) : OKept cq (execBt p w s) := by
  unfold execBt
  repeat' with_reducible first
    | assumption | (refine runInstr_kept ?_ _ _ _ _ (fun x s h => ?_)) | (refine ubcVital_u ?_ _ _ _ (fun b s h => ?_))
    | apply ubcBranch_u

theorem execBf_kept {cq : List Instr} {s : State} (h : Kept cq s) (p : PeaId) (w : BitVec 24) : OKept cq (execBf p w s) := by
  unfold execBf
  repeat' with_reducible first
    | assumption | (refine runInstr_kept ?_ _ _ _ _ (fun x s h => ?_)) | (refine ubcVital_u ?_ _ _ _ (fun b s h => ?_))
    | apply ubcBranch_u

theorem execBnz_kept {cq : List Instr} {s : State} (h : Kept cq s) (p : PeaId) (w : BitVec 24) : OKept cq (execBnz p w s) := by
  unfold execBnz
  repeat' with_reducible first
    | assumption | (refine runInstr_kept ?_ _ _ _ _ (fun x s h => ?_)) | (refine ubcReg_u ?_ _ _ _ (fun v s h => ?_))
    | apply ubcBranch_u

theorem execBz_kept {cq : List Instr} {s : State} (h : Kept cq s) (p : PeaId) (w : BitVec 24) : OKept cq (execBz p w s) := by
  unfold execBz
  repeat' with_reducible first
    | assumption | (refine runInstr_kept ?_ _ _ _ _ (fun x s h => ?_)) | (refine ubcReg_u ?_ _ _ _ (fun v s h => ?_))
    | apply ubcBranch_u

theorem execCall_kept {cq : List Instr} {s : State} (h : Kept cq s) (p : PeaId) (w : BitVec 24) : OKept cq (execCall p w s) := by
  unfold execCall
  repeat' with_reducible first
    | assumption | (refine runInstr_kept ?_ _ _ _ _ (fun x s h => ?_)) | (refine ubcPut_u ?_ _ _ _ _ (fun s h => ?_))
    | apply ubcCheck_u
    | apply ubcBranch_u

theorem execRet_kept {cq : List Instr} {s : State} (h : Kept cq s) (p : PeaId) (w : BitVec 24) : OKept cq (execRet p w s) := by
  unfold execRet
  repeat' with_reducible first
    | assumption | apply State.peaCount_kept | (refine runInstr_kept ?_ _ _ _ _ (fun x s h => ?_))
    | (refine ubcReg_u ?_ _ _ _ (fun v s h => ?_)) | apply ukept_done | apply ukept_trap | split

theorem execLoop_kept {cq : List Instr} {s : State} (h : Kept cq s) (p : PeaId) (w : BitVec 24) : OKept cq (execLoop p w s) := by
  unfold execLoop
  repeat' with_reducible first
    | assumption | (refine runInstr_kept ?_ _ _ _ _ (fun x s h => ?_)) | (refine ubcReg_u ?_ _ _ _ (fun v s h => ?_))
    | (refine ubcPut_u ?_ _ _ _ _ (fun s h => ?_)) | apply ubcCheck_u | apply ubcBranch_u

theorem execTrap_kept {cq : List Instr} {s : State} (h : Kept cq s) (p : PeaId) (w : BitVec 24) : OKept cq (execTrap p w s) := by
  unfold execTrap
  repeat' with_reducible first | assumption | (refine runInstr_kept ?_ _ _ _ _ (fun x s h => ?_)) | apply ubcTrap_u

theorem execUndefinedOpcode_kept {cq : List Instr} {s : State} (h : Kept cq s) (p : PeaId) (w : Word) :
    OKept cq (execUndefinedOpcode p w s) := by
  unfold execUndefinedOpcode
  repeat' with_reducible first | assumption | apply State.trapPea_kept | apply fetchWord_kept | apply okept_next | split

theorem ubcClass_u {cq : List Instr} {s : State} (h : Kept cq s) {x : Release} {y : Symbol} {k : UbcK} (hk : UKept cq (k s)) :
    UKept cq (ubcClass x y k s) := ubcCheck_u h hk

theorem ubcTimer_u {cq : List Instr} {s : State} (h : Kept cq s) (p : PeaId) (x : Release) (w : BitVec 24)
    {pre : Symbol → UbcK → UbcK} {k : Symbol → Nat → Word → Word → UbcK} (hp : ∀ y k, UKept cq (k s) → UKept cq (pre y k s))
    (hk : ∀ y a w0 w1 s, Kept cq s → UKept cq (k y a w0 w1 s)) : UKept cq (ubcTimer p x w pre k s) := by
  unfold ubcTimer
  refine ubcSym_u h _ fun y => ubcCheck_u h (hp _ _ (ubcRead_u h _ _ _ fun w0 s h => ubcRead_u h _ _ _ fun w1 s h => ?_))
  exact ubcCheck_u h (hk _ _ _ _ _ h)

theorem execTstart_kept {cq : List Instr} {s : State} (h : Kept cq s) (p : PeaId) (w : BitVec 24) :
    OKept cq (execTstart p w s) := by
  unfold execTstart
  repeat' with_reducible first
    | assumption | (refine runInstr_kept ?_ _ _ _ _ (fun x s h => ?_)) | (refine ubcReg_u ?_ _ _ _ (fun v s h => ?_))
    | (refine ubcWrite_u ?_ _ _ _ _ (fun s h => ?_)) | apply ubcDone_u | apply ubcCheck_u
    | (refine ubcTimer_u ?_ _ _ _ (fun y k hk => ?_) (fun y a w0 w1 s h => ?_)) | apply ubcClass_u

theorem execTstop_kept {cq : List Instr} {s : State} (h : Kept cq s) (p : PeaId) (w : BitVec 24) :
    OKept cq (execTstop p w s) := by
  unfold execTstop
  repeat' with_reducible first
    | assumption | (refine runInstr_kept ?_ _ _ _ _ (fun x s h => ?_)) | (refine ubcWrite_u ?_ _ _ _ _ (fun s h => ?_))
    | apply ubcDone_u
    | (refine ubcTimer_u ?_ _ _ _ (fun y k hk => ?_) (fun y a w0 w1 s h => ?_)) | apply ubcClass_u

theorem execTread_kept {cq : List Instr} {s : State} (h : Kept cq s) (p : PeaId) (w : BitVec 24) :
    OKept cq (execTread p w s) := by
  unfold execTread
  repeat' with_reducible first
    | assumption | (refine runInstr_kept ?_ _ _ _ _ (fun x s h => ?_)) | (refine ubcPut_u ?_ _ _ _ _ (fun s h => ?_))
    | apply ubcDone_u
    | (refine ubcTimer_u ?_ _ _ _ (fun y k hk => ?_) (fun y a w0 w1 s h => ?_))

theorem execTexp_kept {cq : List Instr} {s : State} (h : Kept cq s) (p : PeaId) (w : BitVec 24) : OKept cq (execTexp p w s) := by
  unfold execTexp
  repeat' with_reducible first
    | assumption | (refine runInstr_kept ?_ _ _ _ _ (fun x s h => ?_)) | (refine ubcPut_u ?_ _ _ _ _ (fun s h => ?_))
    | apply ubcDone_u
    | (refine ubcTimer_u ?_ _ _ _ (fun y k hk => ?_) (fun y a w0 w1 s h => ?_))

theorem ubcClassBool_u {cq : List Instr} {s : State} (h : Kept cq s) (cls : Nat) (v : Word) {k : Bool → UbcK}
    (hk : ∀ b, UKept cq (k b s)) : UKept cq (ubcClassBool cls v k s) := by
  unfold ubcClassBool
  split
  · cases vital? v with
    | some b => exact hk _
    | none => exact h
  · split
    · exact hk _
    · split
      · exact hk _
      · exact h

theorem execEdge_kept {cq : List Instr} {s : State} (h : Kept cq s) (p : PeaId) (w : BitVec 24) : OKept cq (execEdge p w s) := by
  unfold execEdge
  repeat' with_reducible first
    | assumption | (refine runInstr_kept ?_ _ _ _ _ (fun x s h => ?_)) | (refine ubcRead_u ?_ _ _ _ (fun v s h => ?_))
    | (refine ubcReg_u ?_ _ _ _ (fun v s h => ?_)) | (refine ubcWrite_u ?_ _ _ _ _ (fun s h => ?_))
    | (refine ubcPut_u ?_ _ _ _ _ (fun s h => ?_)) | apply ubcDone_u | apply ubcCheck_u | (refine ubcSym_u ?_ _ (fun y => ?_))
    | apply ubcClass_u | (refine ubcClassBool_u ?_ _ _ (fun b => ?_)) | split

theorem execEmitCmd_kept {cq : List Instr} {s : State} (h : Kept cq s) (p : PeaId) (w : BitVec 24) :
    OKept cq (execEmitCmd p w s) := by
  unfold execEmitCmd
  repeat' with_reducible first | assumption | (refine runInstr_kept ?_ _ _ _ _ (fun x s h => ?_)) | apply ubcEmit_u

theorem execEmitPoint_kept {cq : List Instr} {s : State} (h : Kept cq s) (p : PeaId) (w : BitVec 24) :
    OKept cq (execEmitPoint p w s) := by
  unfold execEmitPoint
  repeat' with_reducible first | assumption | (refine runInstr_kept ?_ _ _ _ _ (fun x s h => ?_)) | apply ubcEmit_u

theorem execEmitSignal_kept {cq : List Instr} {s : State} (h : Kept cq s) (p : PeaId) (w : BitVec 24) :
    OKept cq (execEmitSignal p w s) := by
  unfold execEmitSignal
  repeat' with_reducible first | assumption | (refine runInstr_kept ?_ _ _ _ _ (fun x s h => ?_)) | apply ubcEmit_u

theorem execEmitLock_kept {cq : List Instr} {s : State} (h : Kept cq s) (p : PeaId) (w : BitVec 24) :
    OKept cq (execEmitLock p w s) := by
  unfold execEmitLock
  repeat' with_reducible first | assumption | (refine runInstr_kept ?_ _ _ _ _ (fun x s h => ?_)) | apply ubcEmit_u

theorem execEmitRelease_kept {cq : List Instr} {s : State} (h : Kept cq s) (p : PeaId) (w : BitVec 24) :
    OKept cq (execEmitRelease p w s) := by
  unfold execEmitRelease
  repeat' with_reducible first | assumption | (refine runInstr_kept ?_ _ _ _ _ (fun x s h => ?_)) | apply ubcEmit_u

theorem execEmitHres_kept {cq : List Instr} {s : State} (h : Kept cq s) (p : PeaId) (w : BitVec 24) :
    OKept cq (execEmitHres p w s) := by
  unfold execEmitHres
  repeat' with_reducible first | assumption | (refine runInstr_kept ?_ _ _ _ _ (fun x s h => ?_)) | apply ubcEmit_u

theorem State.clearRegs_kept {cq : List Instr} {s : State} (h : Kept cq s) (p : PeaId) (slot : Nat) :
    Kept cq (s.clearRegs p slot) :=
  State.setPea_kept h p _ (foldl_canonical (pea_canonical h p) fun _ _ hx => peaPut_canonical hx _ _ _)

theorem State.emitDigest_kept {cq : List Instr} {s : State} (h : Kept cq s) (p : PeaId) : Kept cq (s.emitDigest p) := by
  unfold State.emitDigest
  repeat' with_reducible first
    | assumption | apply pushToken_kept
    | (apply pea_with; first | assumption | refine pea_canonical (q := cq) ?_ _ | exact pea_reset_canonical _)
    | (apply kept_upd; first | assumption | apply pushToken_kept | (refine State.setPea_kept ?_ _ _ ?_)) | exact cycOk_refl
    | exact comOk_refl | exact podOk_refl | exact nvOk_refl

theorem State.goIdle_kept {cq : List Instr} {s : State} (h : Kept cq s) (p : PeaId) : Kept cq (s.goIdle p) := by
  unfold State.goIdle
  repeat' with_reducible first
    | assumption | apply State.setReg_kept | apply State.setPeaState_kept | apply State.emitDigest_kept
    | (apply pea_with; first | assumption | refine pea_canonical (q := cq) ?_ _ | exact pea_reset_canonical _)
    | (apply kept_upd; first
        | assumption | apply State.setReg_kept | apply State.setPeaState_kept | apply State.emitDigest_kept
        | (refine State.setPea_kept ?_ _ _ ?_) | (refine kept_ite (fun _ => ?_) (fun _ => ?_)))
    | exact cycOk_refl | exact comOk_refl | exact podOk_refl | exact nvOk_refl

theorem State.runOrHold_kept {cq : List Instr} {s : State} (h : Kept cq s) (p : PeaId) : Kept cq (s.runOrHold p) := by
  unfold State.runOrHold
  repeat' with_reducible first | assumption | apply State.setPeaState_kept | apply holdPea_kept | split

theorem State.startNext_kept {cq : List Instr} {s : State} (h : Kept cq s) (p : PeaId) : Kept cq (s.startNext p) := by
  unfold State.startNext
  repeat' with_reducible first
    | assumption | apply State.setReg_kept | apply State.peaCount_kept | apply State.clearRegs_kept | apply State.goIdle_kept
    | apply State.runOrHold_kept
    | (apply pea_with; first | assumption | refine pea_canonical (q := cq) ?_ _ | exact pea_reset_canonical _)
    | (apply kept_upd; first
        | assumption | apply State.setReg_kept | apply State.peaCount_kept | apply State.clearRegs_kept | apply State.goIdle_kept
        | apply State.runOrHold_kept | (refine State.setPea_kept ?_ _ _ ?_))
    | exact cycOk_refl | exact comOk_refl | exact podOk_refl | exact nvOk_refl | split

theorem execEndOp_kept {cq : List Instr} {s : State} (h : Kept cq s) (p : PeaId) (w : BitVec 24) :
    OKept cq (execEndOp p w s) := by
  unfold execEndOp
  repeat' with_reducible first
    | assumption | apply State.peaCount_kept | apply State.sample_kept | apply State.trapPea_kept | apply emitToken_kept
    | apply sampleTry_kept | apply fetchWord_kept | apply State.startNext_kept
    | (apply pea_with; first | assumption | refine pea_canonical (q := cq) ?_ _ | exact pea_reset_canonical _) | apply okept_next
    | (apply kept_upd; first
        | assumption | apply State.peaCount_kept | apply State.sample_kept | apply State.trapPea_kept | apply emitToken_kept
        | apply sampleTry_kept | apply fetchWord_kept | apply State.startNext_kept | (refine State.setPea_kept ?_ _ _ ?_))
    | exact cycOk_refl | exact comOk_refl | exact podOk_refl | exact nvOk_refl | (refine kept_of_eq (by assumption) ?_) | split
    | dsimp only

theorem State.advanceTimer_kept {cq : List Instr} {s : State} (h : Kept cq s) (p : PeaId) (id m : Nat) :
    Kept cq (s.advanceTimer p id m).1 := by
  unfold State.advanceTimer
  repeat' with_reducible first
    | assumption | apply State.readWord_kept | apply State.writeWord_kept | apply State.uncorrectable_kept
    | (refine kept_of_eq (by assumption) ?_) | split | dsimp only

theorem State.advanceTask_kept {cq : List Instr} {s : State} (h : Kept cq s) (p : PeaId) (slot : Nat) :
    Kept cq (s.advanceTask p slot).1 := by
  unfold State.advanceTask
  repeat' with_reducible first
    | assumption | apply State.peaCount_kept | apply State.trapPea_kept | apply State.advanceTimer_kept
    | ((refine foldl_kept_fst ?_ ?_) <;> first | (intro s a x h) | skip) | (refine kept_ite_fst (fun _ => ?_) (fun _ => ?_))
    | split

theorem State.releasePea_kept {cq : List Instr} {s : State} (h : Kept cq s) (p : PeaId) (n : Word) (run : List (Nat × Nat)) :
    Kept cq (s.releasePea p n run) := by
  unfold State.releasePea
  repeat' with_reducible first
    | assumption | apply State.setReg_kept | apply State.setFld_kept | apply State.startNext_kept
    | (apply pea_with; first | assumption | refine pea_canonical (q := cq) ?_ _ | exact pea_reset_canonical _)
    | (apply kept_upd; first
        | assumption | apply State.setReg_kept | apply State.setFld_kept | apply State.startNext_kept
        | (refine State.setPea_kept ?_ _ _ ?_) | (refine kept_ite (fun _ => ?_) (fun _ => ?_)))
    | exact cycOk_refl | exact comOk_refl | exact podOk_refl | exact nvOk_refl

theorem State.advanceDue_kept {cq : List Instr} {s : State} (h : Kept cq s) (p : PeaId) (n : Word) :
    Kept cq (s.advanceDue p n).1 := by
  unfold State.advanceDue
  repeat' with_reducible first
    | assumption | apply State.advanceTask_kept | ((refine foldl_kept_fst ?_ ?_) <;> first | (intro s a x h) | skip) | split

theorem State.holdTriggers_kept {cq : List Instr} {s : State} (h : Kept cq s) (expired : List Nat) (run : List (Nat × Nat)) :
    Kept cq (s.holdTriggers expired run) := by
  unfold State.holdTriggers
  repeat' with_reducible first
    | assumption | apply State.setReg_kept | apply State.setFld_kept | apply State.raiseEvt_kept | apply State.podCount_kept
    | ((refine cyc_put ?_); with_unfolding_all (intro h0; first | exact h0 | omega))
    | (apply kept_with; first
        | assumption | apply State.setReg_kept | apply State.setFld_kept | apply State.raiseEvt_kept | apply State.podCount_kept
        | (refine foldl_kept ?_ (fun s x h => ?_)) | (refine kept_ite (fun _ => ?_) (fun _ => ?_)))
    | (apply kept_upd; first
        | assumption | apply State.setReg_kept | apply State.setFld_kept | apply State.raiseEvt_kept | apply State.podCount_kept
        | (refine foldl_kept ?_ (fun s x h => ?_)) | (refine kept_ite (fun _ => ?_) (fun _ => ?_)))
    | exact comOk_refl | exact podOk_refl | exact nvOk_refl

theorem State.releaseCycle_kept {cq : List Instr} {s : State} (h : Kept cq s) (n : Word) : Kept cq (s.releaseCycle n) := by
  unfold State.releaseCycle
  repeat' with_reducible first
    | assumption | apply State.setReg_kept | apply State.setFld_kept | apply State.late_kept | apply State.releasePea_kept
    | apply State.advanceDue_kept | apply State.holdTriggers_kept
    | (apply kept_upd; first
        | assumption | apply State.setReg_kept | apply State.setFld_kept | apply State.late_kept | apply State.releasePea_kept
        | apply State.advanceDue_kept | apply State.holdTriggers_kept
        | ((refine foldl_kept_fst ?_ ?_) <;> first | (intro s a x h) | skip) | (refine foldl_kept ?_ (fun s x h => ?_)))
    | exact cycOk_refl | exact comOk_refl | exact podOk_refl | exact nvOk_refl

end Sys2Proof.Machine
end

