-- ==== Sys2Proof/Laws/KeepsKernel.lean ====
section
/-! SUPPORT. The invariant is kept by the invariant engine, exchange, outputs, the ring, reset and start: one lemma for each
    definition,
in the order of the model. -/

namespace Sys2Proof.Machine

theorem State.setIve_kept {cq : List Instr} {s : State} (h : Kept cq s) (v : Ive) : Kept cq (s.setIve v) := by
  unfold State.setIve
  repeat' with_reducible first
    | assumption | (apply kept_upd; assumption) | exact cycOk_refl | exact comOk_refl | exact podOk_refl | exact nvOk_refl

theorem State.showHold_kept {cq : List Instr} {s : State} (h : Kept cq s) : Kept cq s.showHold := by
  unfold State.showHold
  repeat' with_reducible first | assumption | apply State.setReg_kept

theorem State.listRefusal_kept {cq : List Instr} {s : State} (h : Kept cq s) (x : Refused) : Kept cq (s.listRefusal x) := by
  unfold State.listRefusal
  repeat' with_reducible first | assumption | apply State.raiseEvt_kept | apply State.setIve_kept | split | dsimp only

theorem State.reportRefusal_kept {cq : List Instr} {s : State} (h : Kept cq s) (kind object code : Nat) (p1 : Word) (wdr : Bool) :
    Kept cq (s.reportRefusal kind object code p1 wdr) := by
  unfold State.reportRefusal
  repeat' with_reducible first
    | assumption | apply State.setReg_kept | apply State.addSat_kept | apply State.raiseEvt_kept | apply State.refusalRecord_kept
    | apply State.setIve_kept | apply State.listRefusal_kept

theorem State.withdraw_kept {cq : List Instr} {s : State} (h : Kept cq s) (g code : Nat) (p1 : Word) :
    Kept cq (s.withdraw g code p1) := by
  unfold State.withdraw
  repeat' with_reducible first
    | assumption | apply State.addSat_kept | apply State.raiseEvt_kept | apply State.raiseRec_kept | apply State.showBuffer_kept
    | apply State.setIve_kept | apply State.listRefusal_kept
    | ((refine com_put ?_ ?_) <;> with_unfolding_all (rintro ⟨_, _⟩; first | assumption | exact Store.wf_set _ _ _ _ ‹_›))
    | (apply kept_upd; first
        | assumption | apply State.addSat_kept | apply State.raiseEvt_kept | apply State.raiseRec_kept
        | apply State.showBuffer_kept | apply State.setIve_kept | apply State.listRefusal_kept)
    | exact cycOk_refl | exact podOk_refl | exact nvOk_refl

theorem State.checkTime_kept {cq : List Instr} {s : State} (h : Kept cq s) (kind w : Nat) (full : Bool) :
    Kept cq (s.checkTime kind w full) := by
  unfold State.checkTime
  repeat' with_reducible first | assumption | apply State.podCount_kept | apply State.setIve_kept

theorem State.sampleIve_kept {cq : List Instr} {s : State} (h : Kept cq s) (t : Released) (out code : Nat) :
    Kept cq (s.sampleIve t out code) := by
  unfold State.sampleIve
  repeat' with_reducible first
    | assumption | (apply kept_upd; assumption) | exact cycOk_refl | exact comOk_refl | exact podOk_refl | exact nvOk_refl

theorem State.iveAccept_kept {cq : List Instr} {s : State} (h : Kept cq s) (t : Released) : Kept cq (s.iveAccept t) := by
  unfold State.iveAccept
  repeat' with_reducible first | assumption | apply State.bufferToken_kept | apply State.sampleIve_kept

theorem State.iveRefuse_kept {cq : List Instr} {s : State} (h : Kept cq s) (t : Released) (code : Nat) :
    Kept cq (s.iveRefuse t code) := by
  unfold State.iveRefuse
  repeat' with_reducible first
    | assumption | apply State.podCount_kept | apply State.reportRefusal_kept | apply State.withdraw_kept
    | apply State.sampleIve_kept
    | split | dsimp only

theorem State.iveTake_kept {cq : List Instr} {s : State} (h : Kept cq s) : Kept cq s.iveTake := by
  unfold State.iveTake
  repeat' with_reducible first
    | assumption
    | ((refine com_put ?_ ?_) <;> with_unfolding_all (rintro ⟨_, _⟩; first | assumption | exact Store.wf_set _ _ _ _ ‹_›))
    | (apply kept_upd; assumption) | exact cycOk_refl | exact podOk_refl | exact nvOk_refl

theorem State.iveCorrected_kept {cq : List Instr} {s : State} (h : Kept cq s) (n : Nat) : Kept cq (s.iveCorrected n) := by
  unfold State.iveCorrected
  repeat' with_reducible first | assumption | apply State.addSat_kept | apply State.raiseEvt_kept | split

theorem State.iveApart_kept {cq : List Instr} {s : State} (h : Kept cq s) (x : Bool) : Kept cq (s.iveApart x) := by
  unfold State.iveApart
  repeat' with_reducible first | assumption | apply State.setIve_kept | split

theorem State.iveDecide_kept {cq : List Instr} {s : State} (h : Kept cq s) (want : Released → Bool) (f : IveCheck)
    {body : Released → State → State} (hb : ∀ t s, Kept cq s → Kept cq (body t s)) : Kept cq (s.iveDecide want f body) := by
  unfold State.iveDecide
  split
  · exact h
  · cases f with
    | agree n x => exact State.settle_kept (hb _ _ (State.iveApart_kept (State.iveCorrected_kept (State.iveTake_kept h) _) _))
    | differ => exact State.iveFault_kept h _ _
    | badTable half => exact State.iveFault_kept h _ _
    | badState half => exact State.iveFault_kept h _ _

theorem State.expireTimers_kept {cq : List Instr} {s : State} (h : Kept cq s) : Kept cq s.expireTimers := by
  unfold State.expireTimers
  repeat' with_reducible first
    | assumption | apply State.raiseEvt_kept | apply State.podCount_kept | apply State.raiseRec_kept | apply State.setIve_kept
    | apply State.showHold_kept
    | (apply kept_upd; first
        | assumption | apply State.raiseEvt_kept | apply State.podCount_kept | apply State.raiseRec_kept
        | apply State.setIve_kept | apply State.showHold_kept | (refine foldl_kept ?_ (fun s x h => ?_))
        | (refine kept_ite (fun _ => ?_) (fun _ => ?_)))
    | exact cycOk_refl | exact comOk_refl | exact podOk_refl | exact nvOk_refl

theorem State.iveDigestNow_kept {cq : List Instr} {s : State} (h : Kept cq s) : Kept cq s.iveDigestNow := by
  unfold State.iveDigestNow
  repeat' with_reducible first | assumption | apply State.setIve_kept

theorem State.switchTables_kept {cq : List Instr} {s : State} (h : Kept cq s) : Kept cq s.switchTables := by
  unfold State.switchTables
  repeat' with_reducible first | assumption | apply State.setReg_kept | apply State.setFld_kept | apply State.setIve_kept | split

theorem State.showForces_kept {cq : List Instr} {s : State} (h : Kept cq s) : Kept cq s.showForces := by
  unfold State.showForces
  repeat' with_reducible first | assumption | apply State.setFld_kept

theorem State.emptyForce_kept {cq : List Instr} {s : State} (h : Kept cq s) (e : Nat) : Kept cq (s.emptyForce e) := by
  unfold State.emptyForce
  repeat' with_reducible first | assumption | apply State.setReg_kept

theorem State.clearForce_kept {cq : List Instr} {s : State} (h : Kept cq s) (e : Nat) : Kept cq (s.clearForce e) := by
  unfold State.clearForce
  repeat' with_reducible first
    | assumption | apply State.raiseEvt_kept | apply State.writeElem_kept | apply State.emptyForce_kept | split

theorem State.setForce_kept {cq : List Instr} {s : State} (h : Kept cq s) (e : Nat) (y : Symbol) (elem : Nat) (v : Word) :
    Kept cq (s.setForce e y elem v) := by
  unfold State.setForce
  repeat' with_reducible first | assumption | apply State.setReg_kept | apply State.raiseEvt_kept | apply State.writeElem_kept

theorem State.applyForce_kept {cq : List Instr} {s : State} (h : Kept cq s) (op id elem : Nat) (v : Word) :
    Kept cq (s.applyForce op id elem v) := by
  unfold State.applyForce
  repeat' with_reducible first
    | assumption | apply State.clearForce_kept | apply State.setForce_kept
    | (apply kept_upd; first
        | assumption | apply State.clearForce_kept | apply State.setForce_kept | (refine foldl_kept ?_ (fun s x h => ?_)))
    | exact cycOk_refl | exact comOk_refl | exact podOk_refl | exact nvOk_refl | split

theorem State.decideForce_kept {cq : List Instr} {s : State} (h : Kept cq s) (r : ReqRec) : Kept cq (s.decideForce r) := by
  unfold State.decideForce
  repeat' with_reducible first
    | assumption | apply State.setReg_kept | apply State.addSat_kept | apply State.raiseEvt_kept | apply State.raiseRec_kept
    | apply State.respond_kept | apply State.showForces_kept | apply State.applyForce_kept | split

theorem State.refuseExchange_kept {cq : List Instr} {s : State} (h : Kept cq s) (code : Nat) :
    Kept cq (s.refuseExchange code) := by
  unfold State.refuseExchange
  repeat' with_reducible first | assumption | apply State.raiseEvt_kept | apply State.refuseProgram_kept | split

theorem State.showStaged_kept {cq : List Instr} {s : State} (h : Kept cq s) : Kept cq s.showStaged := by
  unfold State.showStaged
  repeat' with_reducible first | assumption | apply State.setReg_kept | apply State.setFld_kept | split

theorem State.showXstat_kept {cq : List Instr} {s : State} (h : Kept cq s) : Kept cq s.showXstat := by
  unfold State.showXstat
  repeat' with_reducible first | assumption | apply State.setFld_kept | apply State.showStaged_kept | split | dsimp only

theorem State.setArmed_kept {cq : List Instr} {s : State} (h : Kept cq s) (a : Option Armed) : Kept cq (s.setArmed a) := by
  unfold State.setArmed
  repeat' with_reducible first
    | assumption | apply State.showXstat_kept | (apply kept_upd; first | assumption | apply State.showXstat_kept)
    | exact cycOk_refl
    | exact comOk_refl | exact podOk_refl | exact nvOk_refl

theorem State.armNow_kept {cq : List Instr} {s : State} (h : Kept cq s) (a : Armed) : Kept cq (s.armNow a) := by
  unfold State.armNow
  repeat' with_reducible first | assumption | apply State.setReg_kept | apply State.respond_kept | apply State.setArmed_kept

theorem State.exchangeArm_kept {cq : List Instr} {s : State} (h : Kept cq s) (session : Nat) (num : Word) (flags time : Nat)
    (build : Word) : Kept cq (s.exchangeArm session num flags time build) := by
  unfold State.exchangeArm
  repeat' with_reducible first
    | assumption | apply State.respond_kept | apply State.twinSend_kept | apply State.refuseExchange_kept
    | apply State.setArmed_kept
    | apply State.armNow_kept | split | dsimp only

theorem State.exchangeCancel_kept {cq : List Instr} {s : State} (h : Kept cq s) (session : Nat) (num : Word) :
    Kept cq (s.exchangeCancel session num) := by
  unfold State.exchangeCancel
  repeat' with_reducible first
    | assumption | apply State.respond_kept | apply State.twinSend_kept | apply State.refuseExchange_kept
    | apply State.setArmed_kept
    | split

theorem State.latchReady_kept {cq : List Instr} {s : State} (h : Kept cq s) : Kept cq s.latchReady := by
  unfold State.latchReady
  repeat' with_reducible first
    | assumption | (apply kept_upd; assumption) | exact cycOk_refl | exact comOk_refl | exact podOk_refl | exact nvOk_refl | split

theorem State.decideExchange_kept {cq : List Instr} {s : State} (h : Kept cq s) : Kept cq s.decideExchange := by
  unfold State.decideExchange
  repeat' with_reducible first
    | assumption | apply State.twinSend_kept | apply State.refuseExchange_kept | apply State.setArmed_kept
    | apply State.latchReady_kept
    | split | dsimp only

theorem State.carryForces_kept {cq : List Instr} {s : State} (h : Kept cq s) (new : Program) : Kept cq (s.carryForces new) := by
  unfold State.carryForces
  repeat' with_reducible first
    | assumption | apply State.setReg_kept | apply State.setFld_kept | apply State.raiseEvt_kept | apply State.raiseRec_kept
    | apply State.showForces_kept | apply State.emptyForce_kept
    | (apply kept_upd; first
        | assumption | apply State.setReg_kept | apply State.setFld_kept | apply State.raiseEvt_kept | apply State.raiseRec_kept
        | apply State.showForces_kept | apply State.emptyForce_kept | (refine foldl_kept ?_ (fun s x h => ?_)))
    | exact cycOk_refl | exact comOk_refl | exact podOk_refl | exact nvOk_refl

theorem State.applyCarried_kept {cq : List Instr} {s : State} (h : Kept cq s) (ps : List PeaId) :
    Kept cq (s.applyCarried ps) := by
  unfold State.applyCarried
  repeat' with_reducible first
    | assumption | apply State.writeElem_kept
    | (apply kept_upd; first | assumption | apply State.writeElem_kept | (refine foldl_kept ?_ (fun s x h => ?_)))
    | exact cycOk_refl
    | exact comOk_refl | exact podOk_refl | exact nvOk_refl | split

theorem State.carryHeld_kept {cq : List Instr} {s : State} (h : Kept cq s) : Kept cq s.carryHeld := by
  unfold State.carryHeld
  repeat' with_reducible first
    | assumption | apply State.setReg_kept | apply State.setFld_kept | apply State.recordUnlisted_kept
    | ((refine cyc_put ?_); with_unfolding_all (intro h0; first | exact h0 | omega))
    | (apply kept_upd; first
        | assumption | apply State.setReg_kept | apply State.setFld_kept | apply State.recordUnlisted_kept
        | (refine foldl_kept ?_ (fun s x h => ?_)))
    | exact comOk_refl | exact podOk_refl | exact nvOk_refl

theorem State.exchangeSessions_kept {cq : List Instr} {s : State} (h : Kept cq s) (old new : Program) :
    Kept cq (s.exchangeSessions old new) := by
  unfold State.exchangeSessions
  repeat' with_reducible first
    | assumption | apply State.closeSess_kept | apply State.noteClasses_kept | (refine foldl_kept ?_ (fun s x h => ?_))

theorem State.recordMigration_kept {cq : List Instr} {s : State} (h : Kept cq s) (old new : Program) :
    Kept cq (s.recordMigration old new) := by
  unfold State.recordMigration
  repeat' with_reducible first
    | assumption | apply State.recordUnlisted_kept
    | (apply kept_upd; first | assumption | apply State.recordUnlisted_kept | (refine foldl_kept ?_ (fun s x h => ?_)))
    | exact cycOk_refl
    | exact comOk_refl | exact podOk_refl | exact nvOk_refl | split

theorem State.exchangeSwitch_kept {cq : List Instr} {s : State} (h : Kept cq s) (old new : Program) :
    Kept cq (s.exchangeSwitch old new) := by
  unfold State.exchangeSwitch
  repeat' with_reducible first
    | assumption | apply State.setReg_kept | apply State.setFld_kept | apply State.raiseEvt_kept | apply State.podCount_kept
    | apply State.raiseRec_kept | apply State.activate_kept | apply State.raiseFloor_kept | apply State.loadImg_kept
    | apply State.switchTables_kept | apply State.showXstat_kept | apply State.carryForces_kept | apply State.applyCarried_kept
    | apply State.carryHeld_kept | apply State.exchangeSessions_kept | apply State.recordMigration_kept
    | (refine foldl_kept ?_ (fun s x h => ?_)) | (refine kept_ite (fun _ => ?_) (fun _ => ?_))
    | ((refine pod_put ?_ ?_ ?_ ?_) <;> with_unfolding_all (rintro ⟨_, _, _, _⟩; first
        | assumption | (apply pea_with; assumption) | omega))
    | (apply kept_upd; first
        | assumption | apply State.setReg_kept | apply State.setFld_kept | apply State.raiseEvt_kept | apply State.podCount_kept
        | apply State.raiseRec_kept | apply State.activate_kept | apply State.raiseFloor_kept | apply State.loadImg_kept
        | apply State.switchTables_kept | apply State.showXstat_kept | apply State.carryForces_kept
        | apply State.applyCarried_kept | apply State.carryHeld_kept | apply State.exchangeSessions_kept
        | apply State.recordMigration_kept)
    | exact cycOk_refl | exact comOk_refl | exact nvOk_refl

theorem State.migratePea_kept {cq : List Instr} {s : State} (h : Kept cq s) (p : PeaId) (old new : Program) :
    Kept cq (s.migratePea p old new) := by
  unfold State.migratePea
  repeat' with_reducible first
    | assumption | apply State.setReg_kept | apply State.advanceDue_kept | apply State.applyCarried_kept
    | (refine State.setPea_kept ?_ _ _ ?_) | apply peaPut_canonical | apply recomputeDigests_canonical
    | refine pea_canonical (q := cq) ?_ _ | (refine foldl_canonical ?_ (fun x b hx => ?_))

theorem State.setTwin_kept {cq : List Instr} {s : State} (h : Kept cq s) (x : Twin) : Kept cq (s.setTwin x) := by
  unfold State.setTwin
  repeat' with_reducible first
    | assumption | (apply kept_upd; assumption) | exact cycOk_refl | exact comOk_refl | exact podOk_refl | exact nvOk_refl

theorem State.planRole_kept {cq : List Instr} {s : State} (h : Kept cq s) (r cause from_ : Nat) :
    Kept cq (s.planRole r cause from_) := by
  unfold State.planRole
  repeat' with_reducible first | assumption | apply State.setTwin_kept

theorem State.seeClaim_kept {cq : List Instr} {s : State} (h : Kept cq s) (c : Nat) : Kept cq (s.seeClaim c) := by
  unfold State.seeClaim
  repeat' with_reducible first
    | assumption | apply State.noteClaim_kept | apply State.setTwin_kept | apply State.planRole_kept | split | dsimp only

theorem State.seeRival_kept {cq : List Instr} {s : State} (h : Kept cq s) (c serial : Nat) : Kept cq (s.seeRival c serial) := by
  unfold State.seeRival
  repeat' with_reducible first | assumption | apply State.planRole_kept | apply State.seeClaim_kept | split | dsimp only

theorem State.noteClash_kept {cq : List Instr} {s : State} (h : Kept cq s) (serial : Word) : Kept cq (s.noteClash serial) := by
  unfold State.noteClash
  repeat' with_reducible first
    | assumption | apply State.setFld_kept | apply State.raiseEvt_kept | apply State.raiseRec_kept | apply State.planRole_kept
    | split
    | dsimp only

theorem State.failXfer_kept {cq : List Instr} {s : State} (h : Kept cq s) (cause : Nat) : Kept cq (s.failXfer cause) := by
  unfold State.failXfer
  repeat' with_reducible first
    | assumption | apply State.raiseEvt_kept | apply State.setRole_kept | apply State.endXfer_kept | apply State.toState_kept
    | split

theorem State.linkDown_kept {cq : List Instr} {s : State} (h : Kept cq s) : Kept cq s.linkDown := by
  unfold State.linkDown
  repeat' with_reducible first
    | assumption | apply State.setFld_kept | apply State.addSat_kept | apply State.raiseEvt_kept | apply State.podCount_kept
    | apply State.raiseRec_kept | apply State.limitNums_kept | apply State.setTwin_kept | apply State.failXfer_kept
    | (apply kept_upd; first
        | assumption | apply State.setFld_kept | apply State.addSat_kept | apply State.raiseEvt_kept | apply State.podCount_kept
        | apply State.raiseRec_kept | apply State.limitNums_kept | apply State.setTwin_kept | apply State.failXfer_kept
        | (refine kept_ite (fun _ => ?_) (fun _ => ?_)))
    | exact cycOk_refl | exact comOk_refl | exact podOk_refl | exact nvOk_refl

theorem State.badFrame_kept {cq : List Instr} {s : State} (h : Kept cq s) : Kept cq s.badFrame := by
  unfold State.badFrame
  repeat' with_reducible first
    | assumption | apply State.addSat_kept | apply State.podCount_kept | apply State.setTwin_kept | apply State.linkDown_kept
    | split
    | dsimp only

theorem State.twinRx_kept {cq : List Instr} {s : State} (h : Kept cq s) (h : TwinHdr) (b : TwinBody) (k : Nat)
    (body : State → State) (h_body : ∀ s, Kept cq s → Kept cq (body s)) : Kept cq (s.twinRx h b k body) := by
  unfold State.twinRx
  repeat' with_reducible first
    | assumption | apply h_body | apply State.setReg_kept | apply State.podCount_kept | apply State.setTwin_kept
    | apply State.noteClash_kept | apply State.badFrame_kept | split

theorem State.sendProbe_kept {cq : List Instr} {s : State} (h : Kept cq s) : Kept cq s.sendProbe := by
  unfold State.sendProbe
  repeat' with_reducible first | assumption | apply State.twinSend_kept | apply State.setTwin_kept

theorem State.linkCycle_kept {cq : List Instr} {s : State} (h : Kept cq s) : Kept cq s.linkCycle := by
  unfold State.linkCycle
  repeat' with_reducible first
    | assumption | apply State.setFld_kept | apply State.raiseEvt_kept | apply State.raiseRec_kept | apply State.freeNums_kept
    | apply State.setTwin_kept | apply State.sendProbe_kept | split | dsimp only

theorem State.xferPhase_kept {cq : List Instr} {s : State} (h : Kept cq s) (ph : Nat) : Kept cq (s.xferPhase ph) := by
  unfold State.xferPhase
  repeat' with_reducible first | assumption | apply State.setFld_kept | apply State.setTwin_kept

theorem State.takeComparison_kept {cq : List Instr} {s : State} (h : Kept cq s) : Kept cq s.takeComparison := by
  unfold State.takeComparison
  repeat' with_reducible first
    | assumption | apply State.setReg_kept | apply State.setFld_kept | apply State.addSat_kept | apply State.setTwin_kept
    | apply State.planRole_kept | apply State.xferPhase_kept | (refine kept_ite (fun _ => ?_) (fun _ => ?_)) | split

theorem State.digestCycleEnd_kept {cq : List Instr} {s : State} (h : Kept cq s) : Kept cq s.digestCycleEnd := by
  unfold State.digestCycleEnd
  repeat' with_reducible first
    | assumption | apply State.setFld_kept | apply State.addSat_kept | apply State.setTwin_kept | apply State.planRole_kept
    | split

theorem State.haltTasks_kept {cq : List Instr} {s : State} (h : Kept cq s) : Kept cq s.haltTasks := by
  unfold State.haltTasks
  repeat' with_reducible first
    | assumption | apply State.setFld_kept | apply State.setPeaState_kept | apply State.showBuffer_kept
    | (refine foldl_kept ?_ (fun s x h => ?_))
    | ((refine pod_put ?_ ?_ ?_ ?_) <;> with_unfolding_all (rintro ⟨_, _, _, _⟩; first
        | assumption | (apply pea_with; assumption) | omega))
    | ((refine com_put ?_ ?_) <;> with_unfolding_all (rintro ⟨_, _⟩; first | assumption | exact Store.wf_set _ _ _ _ ‹_›))
    | (apply kept_upd; first | assumption | apply State.setFld_kept | apply State.setPeaState_kept | apply State.showBuffer_kept)
    | exact cycOk_refl | exact nvOk_refl

theorem State.startCycles_kept {cq : List Instr} {s : State} (h : Kept cq s) (n : Word) (ago : Nat) :
    Kept cq (s.startCycles n ago) := by
  unfold State.startCycles
  repeat' with_reducible first
    | assumption | ((refine cyc_put ?_); with_unfolding_all (intro h0; first | exact h0 | omega)) | (apply kept_upd; assumption)
    | exact comOk_refl | exact podOk_refl | exact nvOk_refl

theorem State.joinCycles_kept {cq : List Instr} {s : State} (h : Kept cq s) (n : Word) (ago : Nat) :
    Kept cq (s.joinCycles n ago) := by
  unfold State.joinCycles
  repeat' with_reducible first
    | assumption | apply State.startCycles_kept | (apply kept_upd; first | assumption | apply State.startCycles_kept)
    | exact cycOk_refl
    | exact comOk_refl | exact podOk_refl | exact nvOk_refl

theorem State.writeBlock_kept {cq : List Instr} {s : State} (h : Kept cq s) (b : Nat) (ws : List Word) :
    Kept cq (s.writeBlock b ws) := by
  unfold State.writeBlock
  repeat' with_reducible first
    | assumption | apply State.writeWord_kept | apply State.setIve_kept | apply State.showHold_kept
    | (refine foldl_kept ?_ (fun s x h => ?_)) | split

theorem State.showBlocks_kept {cq : List Instr} {s : State} (h : Kept cq s) (n : Nat) : Kept cq (s.showBlocks n) := by
  unfold State.showBlocks
  repeat' with_reducible first | assumption | apply State.setFld_kept

theorem State.startJoin_kept {cq : List Instr} {s : State} (h : Kept cq s) (cause : Nat) : Kept cq (s.startJoin cause) := by
  unfold State.startJoin
  repeat' with_reducible first
    | assumption | apply State.setReg_kept | apply State.twinSend_kept | apply State.setRole_kept | apply State.toState_kept
    | apply State.setTwin_kept | apply State.haltTasks_kept | apply State.xferPhase_kept

theorem State.adoptStaged_kept {cq : List Instr} {s : State} (h : Kept cq s) : Kept cq s.adoptStaged := by
  unfold State.adoptStaged
  repeat' with_reducible first
    | assumption | apply State.setFld_kept | apply State.activate_kept | apply State.raiseFloor_kept | apply State.loadImg_kept
    | apply State.switchTables_kept | apply State.showXstat_kept
    | (apply pea_with; first | assumption | refine pea_canonical (q := cq) ?_ _ | exact pea_reset_canonical _)
    | ((refine pod_put ?_ ?_ ?_ ?_) <;> with_unfolding_all (rintro ⟨_, _, _, _⟩; first
        | assumption | (apply pea_with; assumption) | omega))
    | (apply kept_with; first
        | assumption | apply State.setFld_kept | apply State.activate_kept | apply State.raiseFloor_kept
        | apply State.loadImg_kept | apply State.switchTables_kept | apply State.showXstat_kept
        | (refine foldl_kept ?_ (fun s x h => ?_)) | (refine State.setPea_kept ?_ _ _ ?_))
    | (apply kept_upd; first
        | assumption | apply State.setFld_kept | apply State.activate_kept | apply State.raiseFloor_kept
        | apply State.loadImg_kept | apply State.switchTables_kept | apply State.showXstat_kept
        | (refine foldl_kept ?_ (fun s x h => ?_)) | (refine State.setPea_kept ?_ _ _ ?_))
    | exact cycOk_refl | exact comOk_refl | exact nvOk_refl | split

theorem State.catchup_kept {cq : List Instr} {s : State} (h : Kept cq s) (n : Word) (digests : List (BitVec 64)) :
    Kept cq (s.catchup n digests) := by
  unfold State.catchup
  repeat' with_reducible first
    | assumption | apply State.twinSend_kept | apply State.setTwin_kept | apply State.showBlocks_kept
    | apply State.xferPhase_kept | split
    | dsimp only

theorem State.restrict_kept {cq : List Instr} {s : State} (h : Kept cq s) : Kept cq s.restrict := by
  unfold State.restrict
  extract_lets s1 s2 s3 v c0 s4 w s5
  have h1 : Kept cq s1 := by
    unfold s1
    split
    · exact h
    · extract_lets words
      refine foldl_kept h fun s p h => State.setPea_kept h _ _ (recomputeDigests_canonical ?_ _)
      exact foldl_canonical (pea_canonical h p) fun _ _ hx => peaPut_canonical hx _ _ _
  have h2 : Kept cq s2 := foldl_kept h1 fun s e h => State.emptyForce_kept h _
  have h3 : Kept cq s3 := State.showForces_kept h2
  have h4 : Kept cq s4 := by
    with_reducible apply kept_upd
    · exact h3
    · exact cycOk_refl
    · exact com_put (fun h => Store.wf_filter _ _ _ h.1) fun h => h.2
    · exact podOk_refl
    · exact nvOk_refl
  exact State.setFld_kept (State.showHold_kept (State.setIve_kept h4 _)) _ _

theorem State.becomeActive_kept {cq : List Instr} {s : State} (h : Kept cq s) (cause : Nat) : Kept cq (s.becomeActive cause) := by
  unfold State.becomeActive
  repeat' with_reducible first
    | assumption | apply State.takeActive_kept | apply State.toState_kept | (refine kept_of_eq (by assumption) ?_) | split

theorem State.planTakeover_kept {cq : List Instr} {s : State} (h : Kept cq s) (cause : Nat) : Kept cq (s.planTakeover cause) := by
  unfold State.planTakeover
  repeat' with_reducible first
    | assumption | apply State.raiseEvt_kept | apply State.raiseRec_kept | apply State.storeEpoch_kept | apply State.setTwin_kept
    | split

theorem State.takeOver_kept {cq : List Instr} {s : State} (h : Kept cq s) (cause epoch : Nat) :
    Kept cq (s.takeOver cause epoch) := by
  unfold State.takeOver
  repeat' with_reducible first
    | assumption | apply State.enterActive_kept | apply State.toState_kept | apply State.setTwin_kept | apply State.restrict_kept
    | split
    | dsimp only

theorem State.leaveRun_kept {cq : List Instr} {s : State} (h : Kept cq s) : Kept cq s.leaveRun := by
  unfold State.leaveRun
  repeat' with_reducible first
    | assumption | apply State.startBlock_kept | apply State.toState_kept | apply State.setTwin_kept | apply State.haltTasks_kept
    | ((refine cyc_put ?_); with_unfolding_all (intro h0; first | exact h0 | omega))
    | (apply kept_upd; first
        | assumption | apply State.startBlock_kept | apply State.toState_kept | apply State.setTwin_kept
        | apply State.haltTasks_kept)
    | exact comOk_refl | exact podOk_refl | exact nvOk_refl

theorem State.roleCycle_kept {cq : List Instr} {s : State} (h : Kept cq s) : Kept cq s.roleCycle := by
  unfold State.roleCycle
  repeat' with_reducible first
    | assumption | apply State.raiseEvt_kept | apply State.setRole_kept | apply State.endXfer_kept | apply State.toState_kept
    | apply State.setTwin_kept | apply State.startJoin_kept | apply State.takeOver_kept | apply State.leaveRun_kept | split

theorem State.noteAlign_kept {cq : List Instr} {s : State} (h : Kept cq s) (e : Int) (src : Nat) :
    Kept cq (s.noteAlign e src) := by
  unfold State.noteAlign
  repeat' with_reducible first
    | assumption | apply State.setReg_kept | apply State.raiseMax_kept | apply State.setTwin_kept | apply State.planRole_kept
    | (refine kept_ite (fun _ => ?_) (fun _ => ?_))

theorem State.noteSeen_kept {cq : List Instr} {s : State} (h : Kept cq s) (f : Nat) (c : SfbChannel) :
    Kept cq (s.noteSeen f c) := by
  unfold State.noteSeen
  repeat' with_reducible first
    | assumption | (apply kept_upd; assumption) | exact cycOk_refl | exact comOk_refl | exact podOk_refl | exact nvOk_refl

theorem State.firstSeen_kept {cq : List Instr} {s : State} (h : Kept cq s) (f : Nat) (c : SfbChannel) :
    Kept cq (s.firstSeen f c) := by
  unfold State.firstSeen
  repeat' with_reducible first
    | assumption | apply State.noteSeen_kept | (apply kept_upd; first | assumption | apply State.noteSeen_kept) | exact cycOk_refl
    | exact comOk_refl | exact podOk_refl | exact nvOk_refl

theorem State.showSfb_kept {cq : List Instr} {s : State} (h : Kept cq s) : Kept cq s.showSfb := by
  unfold State.showSfb
  repeat' with_reducible first | assumption | apply State.setFld_kept | split | dsimp only

theorem State.sfbEnter_kept {cq : List Instr} {s : State} (h : Kept cq s) (f : Nat) (c : SfbChannel) :
    Kept cq (s.sfbEnter f c) := by
  unfold State.sfbEnter
  repeat' with_reducible first
    | assumption | apply State.setFld_kept | apply State.addSat_kept | apply State.raiseEvt_kept | apply State.raiseRec_kept
    | apply State.enterSafe_kept | apply State.firstSeen_kept | apply State.showSfb_kept | split | dsimp only

theorem State.sfbInto_kept {cq : List Instr} {s : State} (h : Kept cq s) (f : Nat) : Kept cq (s.sfbInto f) := by
  unfold State.sfbInto
  repeat' with_reducible first | assumption | apply State.noteSeen_kept | apply State.sfbEnter_kept | split

theorem State.sfbFault_kept {cq : List Instr} {s : State} (h : Kept cq s) (f cause : Nat) : Kept cq (s.sfbFault f cause) := by
  unfold State.sfbFault
  repeat' with_reducible first
    | assumption | apply State.setFld_kept | apply State.raiseEvt_kept | apply State.raiseRec_kept | apply State.showSfb_kept
    | apply State.sfbInto_kept | (intro x; refine kept_mid (q := cq) (x := x) ?_ ?_; subst x; rotate_left; intro hx; rotate_left)
    | split

theorem State.chStatus_kept {cq : List Instr} {s : State} (h : Kept cq s) (c st : Nat) : Kept cq (s.chStatus c st) := by
  unfold State.chStatus
  repeat' with_reducible first | assumption | apply State.setFld_kept | apply State.raiseRec_kept | split

theorem State.stuckOn_kept {cq : List Instr} {s : State} (h : Kept cq s) (c : Nat) : Kept cq (s.stuckOn c) := by
  unfold State.stuckOn
  repeat' with_reducible first
    | assumption | apply State.setFld_kept | apply State.raiseEvt_kept | apply State.raiseRec_kept | apply State.enterSafe_kept

theorem State.toggle_kept {cq : List Instr} {s : State} (h : Kept cq s) (voter : Bool) : Kept cq (s.toggle voter) := by
  unfold State.toggle
  extract_lets p0 p
  have hp : PodOk s p := by
    unfold p
    split
    all_goals exact fun h0 => h0
  have put : ∀ (m : Option Bool) (g : Bool), Kept cq { s with pod := { p with hbMark := m, hbGood := g } } := by
    intro m g
    with_reducible apply kept_upd
    · exact h
    · exact cycOk_refl
    · exact comOk_refl
    · exact hp
    · exact nvOk_refl
  split
  · exact put _ p.hbGood
  · exact kept_ite (fun _ => put p.hbMark _) fun _ => put _ _

theorem State.showEnergy_kept {cq : List Instr} {s : State} (h : Kept cq s) : Kept cq s.showEnergy := by
  unfold State.showEnergy
  repeat' with_reducible first | assumption | apply State.setFld_kept | split | dsimp only

theorem execHeartbeatTransition_kept {cq : List Instr} {s : State} (h : Kept cq s) (voter : Bool) :
    OKept cq (execHeartbeatTransition voter s) := by
  unfold execHeartbeatTransition
  repeat' with_reducible first
    | assumption | apply State.setFld_kept | apply State.raiseEvt_kept | apply State.toggle_kept | apply State.showEnergy_kept
    | apply okept_next
    | ((refine pod_put ?_ ?_ ?_ ?_) <;> with_unfolding_all (rintro ⟨_, _, _, _⟩; first
        | assumption | (apply pea_with; assumption) | omega))
    | (apply kept_upd; first
        | assumption | apply State.setFld_kept | apply State.raiseEvt_kept | apply State.toggle_kept
        | apply State.showEnergy_kept)
    | exact cycOk_refl | exact comOk_refl | exact nvOk_refl | split | dsimp only

theorem execReservoirDischarged_kept {cq : List Instr} {s : State} (h : Kept cq s) : OKept cq (execReservoirDischarged s) := by
  unfold execReservoirDischarged
  repeat' with_reducible first | assumption | apply State.setReg_kept | apply State.setFld_kept | apply okept_next | split

theorem execReadbackFault_kept {cq : List Instr} {s : State} (h : Kept cq s) (c : Fin 32) : OKept cq (execReadbackFault c s) := by
  unfold execReadbackFault
  repeat' with_reducible first
    | assumption | apply State.setReg_kept | apply State.raiseEvt_kept | apply State.raiseRec_kept | apply okept_next | split

theorem execStuckOn_kept {cq : List Instr} {s : State} (h : Kept cq s) (x : StuckAt) : OKept cq (execStuckOn x s) := by
  unfold execStuckOn
  repeat' with_reducible first | assumption | apply State.enterSafe_kept | apply State.stuckOn_kept | apply okept_next | split

theorem execOffPulse_kept {cq : List Instr} {s : State} (h : Kept cq s) (c : Fin 32) (falls : Bool) :
    OKept cq (execOffPulse c falls s) := by
  unfold execOffPulse
  repeat' with_reducible first
    | assumption | apply State.raiseEvt_kept | apply State.stuckOn_kept | apply okept_next | split | dsimp only

theorem execChfaultClear_kept {cq : List Instr} {s : State} (h : Kept cq s) (mask : Word) :
    OKept cq (execChfaultClear mask s) := by
  unfold execChfaultClear
  repeat' with_reducible first | assumption | apply State.setReg_kept | apply okept_next

theorem execSfbDemand_kept {cq : List Instr} {s : State} (h : Kept cq s) (f : Fin 8) (x : SfbSight) :
    OKept cq (execSfbDemand f x s) := by
  unfold execSfbDemand
  repeat' with_reducible first
    | assumption | apply State.noteSeen_kept | apply State.showSfb_kept | apply State.sfbEnter_kept | apply okept_next
    | (apply kept_upd; first | assumption | apply State.noteSeen_kept | apply State.showSfb_kept | apply State.sfbEnter_kept)
    | exact cycOk_refl | exact comOk_refl | exact podOk_refl | exact nvOk_refl | split

theorem execSfbDemandEnd_kept {cq : List Instr} {s : State} (h : Kept cq s) (f : Fin 8) : OKept cq (execSfbDemandEnd f s) := by
  unfold execSfbDemandEnd
  repeat' with_reducible first
    | assumption | apply State.setFld_kept | apply State.showSfb_kept | apply State.sfbFault_kept | apply okept_next
    | (refine kept_ite (fun _ => ?_) (fun _ => ?_))
    | (apply kept_upd; first | assumption | apply State.setFld_kept | apply State.showSfb_kept | apply State.sfbFault_kept)
    | exact cycOk_refl | exact comOk_refl | exact podOk_refl | exact nvOk_refl | split

theorem execSfbReset_kept {cq : List Instr} {s : State} (h : Kept cq s) (f : Fin 8) : OKept cq (execSfbReset f s) := by
  unfold execSfbReset
  repeat' with_reducible first
    | assumption | apply State.raiseEvt_kept | apply okept_next | (apply kept_upd; first | assumption | apply State.raiseEvt_kept)
    | exact cycOk_refl | exact comOk_refl | exact podOk_refl | exact nvOk_refl | split

theorem execSfbDiscFault_kept {cq : List Instr} {s : State} (h : Kept cq s) (f : Fin 8) : OKept cq (execSfbDiscFault f s) := by
  unfold execSfbDiscFault
  repeat' with_reducible first | assumption | apply State.sfbFault_kept | apply okept_next

theorem execSfbChdiff_kept {cq : List Instr} {s : State} (h : Kept cq s) : OKept cq (execSfbChdiff s) := by
  unfold execSfbChdiff
  repeat' with_reducible first
    | assumption | apply State.setFld_kept | apply State.raiseEvt_kept | apply State.sfbFault_kept
    | (refine foldl_kept ?_ (fun s x h => ?_)) | apply okept_next

theorem State.setRingRole_kept {cq : List Instr} {s : State} (h : Kept cq s) (r role : Nat) : Kept cq (s.setRingRole r role) := by
  unfold State.setRingRole
  repeat' with_reducible first
    | assumption | apply State.setFld_kept | apply State.addSat_kept | apply State.setPort_kept | apply State.raiseEvt_kept
    | apply State.raiseRec_kept | split | dsimp only

theorem State.enterListen_kept {cq : List Instr} {s : State} (h : Kept cq s) (r : Nat) : Kept cq (s.enterListen r) := by
  unfold State.enterListen
  repeat' with_reducible first
    | assumption | (refine fun (s : State) (h : Kept cq s) => ?_) | apply State.setRingRole_kept
    | (refine kept_ite (fun _ => ?_) (fun _ => ?_))
    | (intro x; refine kept_mid (q := cq) (x := x) ?_ ?_; subst x; rotate_left; intro hx; rotate_left) | intro x | lift_lets
    | (refine kept_of_eq (by assumption) ?_) | split | dsimp only

theorem State.stopRing_kept {cq : List Instr} {s : State} (h : Kept cq s) (r after : Nat) : Kept cq (s.stopRing r after) := by
  unfold State.stopRing
  repeat' with_reducible first | assumption | apply State.setPort_kept | apply State.setRingRole_kept

theorem State.haltRing_kept {cq : List Instr} {s : State} (h : Kept cq s) (r : Nat) : Kept cq (s.haltRing r) := by
  unfold State.haltRing
  repeat' with_reducible first | assumption | apply State.setRingRole_kept | apply State.stopRing_kept | split

theorem State.unhaltRing_kept {cq : List Instr} {s : State} (h : Kept cq s) (r : Nat) : Kept cq (s.unhaltRing r) := by
  unfold State.unhaltRing
  repeat' with_reducible first | assumption | apply State.enterListen_kept | split

theorem State.showHeader_kept {cq : List Instr} {s : State} (h : Kept cq s) (r : Nat) (f : RingFrame) :
    Kept cq (s.showHeader r f) := by
  unfold State.showHeader
  repeat' with_reducible first | assumption | apply State.setReg_kept | apply State.setFld_kept

theorem State.showSent_kept {cq : List Instr} {s : State} (h : Kept cq s) (r : Nat) (f : RingFrame) :
    Kept cq (s.showSent r f) := by
  unfold State.showSent
  repeat' with_reducible first | assumption | apply State.setReg_kept | apply State.setFld_kept | split

theorem State.readmit_kept {cq : List Instr} {s : State} (h : Kept cq s) (r : Nat) : Kept cq (s.readmit r) := by
  unfold State.readmit
  repeat' with_reducible first | assumption | apply State.setFld_kept | apply State.setPort_kept | split

theorem State.launch_kept {cq : List Instr} {s : State} (h : Kept cq s) (r : Nat) : Kept cq (s.launch r) := by
  unfold State.launch
  repeat' with_reducible first
    | assumption | apply State.setPort_kept | apply State.showHeader_kept | apply State.showSent_kept | apply State.readmit_kept
    | (apply kept_upd; first
        | assumption | apply State.setPort_kept | apply State.showHeader_kept | apply State.showSent_kept
        | apply State.readmit_kept)
    | exact cycOk_refl | exact comOk_refl | exact podOk_refl | exact nvOk_refl

theorem State.noteWitness_kept {cq : List Instr} {s : State} (h : Kept cq s) (addr wit : Nat) :
    Kept cq (s.noteWitness addr wit) := by
  unfold State.noteWitness
  repeat' with_reducible first | assumption | apply State.setTwin_kept | split

theorem State.takeWindow_kept {cq : List Instr} {s : State} (h : Kept cq s) (r addr : Nat) (w : List Byte) :
    Kept cq (s.takeWindow r addr w) := by
  unfold State.takeWindow
  repeat' with_reducible first
    | assumption | apply State.noteWitness_kept | ((refine cyc_put ?_); with_unfolding_all (intro h0; first | exact h0 | omega))
    | (apply kept_upd; first | assumption | apply State.noteWitness_kept) | exact comOk_refl | exact podOk_refl | exact nvOk_refl

theorem State.exclude_kept {cq : List Instr} {s : State} (h : Kept cq s) (r : Nat) : Kept cq (s.exclude r) := by
  unfold State.exclude
  repeat' with_reducible first | assumption | apply State.setPort_kept

theorem State.obeyBypass_kept {cq : List Instr} {s : State} (h : Kept cq s) (r : Nat) : Kept cq (s.obeyBypass r) := by
  unfold State.obeyBypass
  repeat' with_reducible first | assumption | apply State.exclude_kept

theorem State.obeyCutNext_kept {cq : List Instr} {s : State} (h : Kept cq s) (r : Nat) : Kept cq (s.obeyCutNext r) := by
  unfold State.obeyCutNext
  repeat' with_reducible first
    | assumption | (apply kept_upd; first | assumption | (refine kept_ite (fun _ => ?_) (fun _ => ?_))) | exact cycOk_refl
    | exact comOk_refl | exact podOk_refl | exact nvOk_refl

theorem State.obeyJoin_kept {cq : List Instr} {s : State} (h : Kept cq s) (r : Nat) : Kept cq (s.obeyJoin r) := by
  unfold State.obeyJoin
  repeat' with_reducible first | assumption | apply State.setPort_kept

theorem State.obeyCode_kept {cq : List Instr} {s : State} (h : Kept cq s) (r : Nat) (h : List Byte) (code : Nat)
    (act : State → State) (h_act : ∀ s, Kept cq s → Kept cq (act s)) : Kept cq (s.obeyCode r h code act) := by
  unfold State.obeyCode
  repeat' with_reducible first | assumption | apply h_act | split

theorem State.obey_kept {cq : List Instr} {s : State} (h : Kept cq s) (r : Nat) (h : List Byte) : Kept cq (s.obey r h) := by
  unfold State.obey
  repeat' with_reducible first
    | assumption | apply State.obeyBypass_kept | apply State.obeyCutNext_kept | apply State.obeyJoin_kept
    | apply State.obeyCode_kept
    | intro x

theorem State.noteSched_kept {cq : List Instr} {s : State} (h : Kept cq s) (f : RingFrame) : Kept cq (s.noteSched f) := by
  unfold State.noteSched
  repeat' with_reducible first | assumption | apply State.setReg_kept | apply State.raiseEvt_kept | split

theorem State.heardValid_kept {cq : List Instr} {s : State} (h : Kept cq s) (r : Nat) (f : RingFrame) :
    Kept cq (s.heardValid r f) := by
  unfold State.heardValid
  repeat' with_reducible first | assumption | apply State.setPort_kept

theorem State.noteOffset_kept {cq : List Instr} {s : State} (h : Kept cq s) (r : Nat) (x : RingRx) :
    Kept cq (s.noteOffset r x) := by
  unfold State.noteOffset
  repeat' with_reducible first | assumption | apply State.setPort_kept | split | dsimp only

theorem State.heardFrame_kept {cq : List Instr} {s : State} (h : Kept cq s) (r : Nat) (x : RingRx) :
    Kept cq (s.heardFrame r x) := by
  unfold State.heardFrame
  repeat' with_reducible first
    | assumption | apply State.setPort_kept | apply State.seeClaim_kept | apply State.enterListen_kept
    | apply State.showHeader_kept
    | apply State.noteSched_kept | apply State.heardValid_kept | apply State.noteOffset_kept
    | (apply kept_upd; first
        | assumption | apply State.setPort_kept | apply State.seeClaim_kept | apply State.enterListen_kept
        | apply State.showHeader_kept | apply State.noteSched_kept | apply State.heardValid_kept | apply State.noteOffset_kept
        | (refine foldl_kept ?_ (fun s x h => ?_)) | (refine kept_ite (fun _ => ?_) (fun _ => ?_)))
    | exact cycOk_refl | exact comOk_refl | exact podOk_refl | exact nvOk_refl

theorem State.noteDrift_kept {cq : List Instr} {s : State} (h : Kept cq s) (r : Nat) (x : RingRx) :
    Kept cq (s.noteDrift r x) := by
  unfold State.noteDrift
  repeat' with_reducible first
    | assumption | apply State.setFld_kept | apply State.setPort_kept | apply State.raiseEvt_kept | split

theorem State.forward_kept {cq : List Instr} {s : State} (h : Kept cq s) (r : Nat) (x : RingRx) : Kept cq (s.forward r x) := by
  unfold State.forward
  repeat' with_reducible first
    | assumption | apply State.showSent_kept
    | (apply kept_upd; first | assumption | apply State.showSent_kept | (refine kept_ite (fun _ => ?_) (fun _ => ?_)))
    | exact cycOk_refl
    | exact comOk_refl | exact podOk_refl | exact nvOk_refl

theorem State.ringRx_kept {cq : List Instr} {s : State} (h : Kept cq s) (r type : Nat) (x : RingRx) (body : State → State)
    (h_body : ∀ s, Kept cq s → Kept cq (body s)) : Kept cq (s.ringRx r type x body) := by
  unfold State.ringRx
  repeat' with_reducible first
    | assumption | apply h_body | apply State.obey_kept | apply State.heardFrame_kept | apply State.noteDrift_kept
    | apply State.forward_kept | (intro x; refine kept_mid (q := cq) (x := x) ?_ ?_; subst x; rotate_left; intro hx; rotate_left)
    | split

theorem State.yieldTo_kept {cq : List Instr} {s : State} (h : Kept cq s) (r : Nat) (f : RingFrame) : Kept cq (s.yieldTo r f) := by
  unfold State.yieldTo
  repeat' with_reducible first | assumption | apply State.setRingRole_kept | split | dsimp only

theorem State.takeUnitWindow_kept {cq : List Instr} {s : State} (h : Kept cq s) (r u : Nat) (f : RingFrame) :
    Kept cq (s.takeUnitWindow r u f) := by
  unfold State.takeUnitWindow
  repeat' with_reducible first
    | assumption | apply State.setReg_kept | apply State.setTwin_kept | apply State.seeRival_kept
    | apply State.takeComparison_kept
    | (apply pea_with; first | assumption | refine pea_canonical (q := cq) ?_ _ | exact pea_reset_canonical _) | split
    | dsimp only

theorem State.showSuspect_kept {cq : List Instr} {s : State} (h : Kept cq s) (r outcome ord pos : Nat) :
    Kept cq (s.showSuspect r outcome ord pos) := by
  unfold State.showSuspect
  repeat' with_reducible first | assumption | apply State.setReg_kept | split | dsimp only

theorem State.endContain_kept {cq : List Instr} {s : State} (h : Kept cq s) (r outcome : Nat) (c : Containment) :
    Kept cq (s.endContain r outcome c) := by
  unfold State.endContain
  repeat' with_reducible first
    | assumption | apply State.setPort_kept | apply State.raiseEvt_kept | apply State.raiseRec_kept | apply State.showSuspect_kept

theorem State.addOrder_kept {cq : List Instr} {s : State} (h : Kept cq s) (r code target : Nat) :
    Kept cq (s.addOrder r code target) := by
  unfold State.addOrder
  repeat' with_reducible first | assumption | apply State.setPort_kept

theorem State.firstOrder_kept {cq : List Instr} {s : State} (h : Kept cq s) (r code target : Nat) :
    Kept cq (s.firstOrder r code target) := by
  unfold State.firstOrder
  repeat' with_reducible first | assumption | apply State.setPort_kept

theorem State.containStep_kept {cq : List Instr} {s : State} (h : Kept cq s) (r : Nat) (f : RingFrame) (cs : List WinClass)
    (c : Containment) : Kept cq (s.containStep r f cs c) := by
  unfold State.containStep
  repeat' with_reducible first
    | assumption | apply State.setPort_kept | apply State.stopRing_kept | apply State.endContain_kept
    | apply State.firstOrder_kept | split
    | dsimp only

theorem State.contain_kept {cq : List Instr} {s : State} (h : Kept cq s) (r : Nat) (order : List Nat) (f : RingFrame)
    (cs : List WinClass) (i : Nat) : Kept cq (s.contain r order f cs i) := by
  unfold State.contain
  repeat' with_reducible first | assumption | apply State.setPort_kept | apply State.firstOrder_kept

theorem State.noSuspect_kept {cq : List Instr} {s : State} (h : Kept cq s) (r : Nat) : Kept cq (s.noSuspect r) := by
  unfold State.noSuspect
  repeat' with_reducible first | assumption | apply State.setPort_kept

theorem State.attributeDamage_kept {cq : List Instr} {s : State} (h : Kept cq s) (r : Nat) (f : RingFrame) (cs : List WinClass) :
    Kept cq (s.attributeDamage r f cs) := by
  unfold State.attributeDamage
  repeat' with_reducible first
    | assumption | apply State.setPort_kept | apply State.raiseEvt_kept | apply State.raiseRec_kept | apply State.stopRing_kept
    | apply State.showSuspect_kept | apply State.contain_kept | apply State.noSuspect_kept | split | dsimp only

theorem State.reboot_kept {cq : List Instr} {s : State} (h : Kept cq s) (cause : Nat) : Kept cq (s.reboot cause) := by
  unfold State.reboot
  lift_lets
  intro r
  have hr : r.Inv := reset_inv
  have hp := kept_pod h
  intro p b e x
  have hx : Kept cq x := by
    refine ⟨h.1, { regs := rfl, mem := ?_, queues := rfl, sessions := rfl, rings := rfl, committed := rfl, applied := rfl,
                   nv := (State.saveFloor_kept h).2.nv, a := keepPea_canonical hp.1, b := keepPea_canonical hp.2.1, c :=
                       keepPea_canonical hp.2.2.1,
                   fit := hr.fit, bank := hr.bank, half := hr.half }⟩
    exact Store.wf_filter (fun _ => 0) _ _ h.2.mem
  intro t1 t2 t3 t4
  have h1 : Kept cq t1 := foldl_kept hx fun s y h => State.setReg_kept h _ _
  have h4 : Kept cq t4 := State.setFld_kept (State.setFld_kept (State.setReg_kept h1 _ _) _ _) _ _
  exact kept_ite (fun _ => State.setReg_kept h4 _ _) fun _ => h4

theorem State.goOff_kept {cq : List Instr} {s : State} (h : Kept cq s) (stay : Bool) : Kept cq (s.goOff stay) := by
  unfold State.goOff
  repeat' with_reducible first
    | assumption | apply State.reboot_kept | (apply kept_upd; first | assumption | apply State.reboot_kept) | exact cycOk_refl
    | exact comOk_refl | exact podOk_refl | exact nvOk_refl

theorem State.setBank_kept {cq : List Instr} {s : State} (h : Kept cq s) (b m : Nat) : Kept cq (s.setBank b m) := by
  unfold State.setBank
  repeat' with_reducible first | assumption | apply State.setFld_kept | apply State.raiseEvt_kept | split

theorem State.setBanks_kept {cq : List Instr} {s : State} (h : Kept cq s) (f : Nat → Nat) : Kept cq (s.setBanks f) := by
  unfold State.setBanks
  repeat' with_reducible first | assumption | apply State.setBank_kept | (refine foldl_kept ?_ (fun s x h => ?_))

theorem State.cutEnergy_kept {cq : List Instr} {s : State} (h : Kept cq s) : Kept cq s.cutEnergy := by
  unfold State.cutEnergy
  repeat' with_reducible first
    | assumption | apply State.setReg_kept | apply State.setFld_kept
    | ((refine pod_put ?_ ?_ ?_ ?_) <;> with_unfolding_all (rintro ⟨_, _, _, _⟩; first
        | assumption | (apply pea_with; assumption) | omega))
    | (apply kept_upd; first | assumption | apply State.setReg_kept | apply State.setFld_kept) | exact cycOk_refl
    | exact comOk_refl
    | exact nvOk_refl

theorem State.sliceBanks_kept {cq : List Instr} {s : State} (h : Kept cq s) (n : Nat) : Kept cq (s.sliceBanks n) := by
  unfold State.sliceBanks
  repeat' with_reducible first | assumption | apply State.setBanks_kept

theorem State.startBist_kept {cq : List Instr} {s : State} (h : Kept cq s) (mode : Nat) : Kept cq (s.startBist mode) := by
  unfold State.startBist
  repeat' with_reducible first
    | assumption | apply State.setReg_kept | apply State.setFld_kept | apply State.peasTo_kept | apply State.sliceBanks_kept
    | (apply kept_upd; first
        | assumption | apply State.setReg_kept | apply State.setFld_kept | apply State.peasTo_kept | apply State.sliceBanks_kept)
    | exact cycOk_refl | exact comOk_refl | exact podOk_refl | exact nvOk_refl

theorem State.enterShutdown_kept {cq : List Instr} {s : State} (h : Kept cq s) (op : Nat) : Kept cq (s.enterShutdown op) := by
  unfold State.enterShutdown
  repeat' with_reducible first
    | assumption | apply State.setPort_kept | apply State.toState_kept | apply State.stopKernel_kept | apply State.saveFloor_kept
    | apply State.stopRing_kept | apply State.cutEnergy_kept | apply State.startBist_kept
    | (apply kept_upd; first
        | assumption | apply State.setPort_kept | apply State.toState_kept | apply State.stopKernel_kept
        | apply State.saveFloor_kept | apply State.stopRing_kept | apply State.cutEnergy_kept | apply State.startBist_kept
        | (refine foldl_kept ?_ (fun s x h => ?_)) | (refine kept_ite (fun _ => ?_) (fun _ => ?_)))
    | exact cycOk_refl | exact comOk_refl | exact podOk_refl | exact nvOk_refl

theorem State.park_kept {cq : List Instr} {s : State} (h : Kept cq s) : Kept cq s.park := by
  unfold State.park
  extract_lets s1 s2 s3
  have h1 : Kept cq s1 := State.peasTo_kept (State.toState_kept (State.writeStaged__kept h _) _) _
  have h2 : Kept cq s2 := State.setBanks_kept h1 _
  have h3 : Kept cq s3 := foldl_kept h2 fun s y h => State.setFld_kept h _ _
  have hp := kept_pod h3
  refine ⟨h3.1, { regs := h3.2.regs, mem := ?_, queues := rfl, sessions := h3.2.sessions, rings := h3.2.rings, committed :=
      h3.2.committed,
                  applied := h3.2.applied, nv := h3.2.nv, a := keepPea_canonical hp.1, b := keepPea_canonical hp.2.1,
                  c := keepPea_canonical hp.2.2.1, fit := reset_inv.fit, bank := h3.2.bank, half := hp.2.2.2 }⟩
  exact Store.wf_filter (fun _ => 0) _ _ h3.2.mem

theorem State.wakeUp_kept {cq : List Instr} {s : State} (h : Kept cq s) (src session : Nat) : Kept cq (s.wakeUp src session) := by
  unfold State.wakeUp
  repeat' with_reducible first | assumption | apply State.fireWake_kept | apply State.reboot_kept | split | dsimp only

theorem State.wipe_kept {cq : List Instr} {s : State} (h : Kept cq s) : Kept cq s.wipe := by
  unfold State.wipe
  repeat' with_reducible first
    | assumption | apply State.setFld_kept
    | ((refine nv_put ?_ ?_ ?_ ?_ ?_ ?_) <;> with_unfolding_all (rintro ⟨_, _, _, _, _, _⟩; first
        | assumption | rfl | exact Store.wf_set _ _ _ _ ‹_›))
    | (apply kept_upd; first | assumption | apply State.setFld_kept) | exact cycOk_refl | exact comOk_refl | exact podOk_refl

theorem State.tamperRecord_kept {cq : List Instr} {s : State} (h : Kept cq s) : Kept cq s.tamperRecord := by
  unfold State.tamperRecord
  repeat' with_reducible first
    | assumption | apply State.raiseRec_kept | (apply nv_with; first | exact nvOk_refl | (apply nvOk_of (q := cq); assumption))
    | (apply kept_upd; first | assumption | apply State.raiseRec_kept) | exact cycOk_refl | exact comOk_refl | exact podOk_refl
    | split

theorem State.romRevert_kept {cq : List Instr} {s : State} (h : Kept cq s) (k : Nat) : Kept cq (s.romRevert k) := by
  unfold State.romRevert
  repeat' with_reducible first
    | assumption | apply State.raiseEvt_kept | apply State.raiseRec_kept | apply State.setSlot_kept
    | ((refine nv_put ?_ ?_ ?_ ?_ ?_ ?_) <;> with_unfolding_all (rintro ⟨_, _, _, _, _, _⟩; first
        | assumption | rfl | exact Store.wf_set _ _ _ _ ‹_›))
    | (apply kept_with; first | assumption | apply State.raiseEvt_kept | apply State.raiseRec_kept | apply State.setSlot_kept)
    | (apply kept_upd; first | assumption | apply State.raiseEvt_kept | apply State.raiseRec_kept | apply State.setSlot_kept)
    | exact cycOk_refl | exact comOk_refl | exact podOk_refl

theorem State.readTimekeeper_kept {cq : List Instr} {s : State} (h : Kept cq s) : Kept cq s.readTimekeeper := by
  unfold State.readTimekeeper
  repeat' with_reducible first
    | assumption | apply State.setFld_kept
    | (apply kept_upd; first | assumption | apply State.setFld_kept | (refine kept_ite (fun _ => ?_) (fun _ => ?_)))
    | exact cycOk_refl
    | exact comOk_refl | exact podOk_refl | exact nvOk_refl

theorem State.bootTo_kept {cq : List Instr} {s : State} (h : Kept cq s) (st cause sprout : Nat) :
    Kept cq (s.bootTo st cause sprout) := by
  unfold State.bootTo
  repeat' with_reducible first
    | assumption | apply State.setFld_kept | apply State.raiseEvt_kept | apply State.raiseRec_kept | apply State.tamperRecord_kept
    | (refine kept_ite (fun _ => ?_) (fun _ => ?_))
    | (apply kept_upd; first
        | assumption | apply State.setFld_kept | apply State.raiseEvt_kept | apply State.raiseRec_kept
        | apply State.tamperRecord_kept)
    | exact cycOk_refl | exact comOk_refl | exact podOk_refl | exact nvOk_refl

theorem State.resumeCause_kept {cq : List Instr} {s : State} (h : Kept cq s) : Kept cq s.resumeCause := by
  unfold State.resumeCause
  repeat' with_reducible first
    | assumption | apply State.enterSafe_kept | (apply kept_upd; first | assumption | apply State.enterSafe_kept)
    | exact cycOk_refl
    | exact comOk_refl | exact podOk_refl | exact nvOk_refl | split

theorem State.beginStart_kept {cq : List Instr} {s : State} (h : Kept cq s) : Kept cq s.beginStart := by
  unfold State.beginStart
  repeat' with_reducible first
    | assumption | apply State.setFld_kept | apply State.raiseEvt_kept | apply State.raiseRec_kept | apply State.bootTo_kept
    | apply State.resumeCause_kept | (apply nv_with; first | exact nvOk_refl | (apply nvOk_of (q := cq); assumption))
    | (apply kept_upd; first
        | assumption | apply State.setFld_kept | apply State.raiseEvt_kept | apply State.raiseRec_kept | apply State.bootTo_kept
        | apply State.resumeCause_kept)
    | exact cycOk_refl | exact comOk_refl | exact podOk_refl | split | dsimp only

theorem State.romStart_kept {cq : List Instr} {s : State} (h : Kept cq s) (svcBreak : Bool) : Kept cq (s.romStart svcBreak) := by
  unfold State.romStart
  repeat' with_reducible first
    | assumption | apply State.setSlot_kept | apply State.romRevert_kept | apply State.readTimekeeper_kept
    | apply State.bootTo_kept
    | apply State.beginStart_kept | split | dsimp only

theorem State.enterSprout_kept {cq : List Instr} {s : State} (h : Kept cq s) (code : Nat) : Kept cq (s.enterSprout code) := by
  unfold State.enterSprout
  repeat' with_reducible first | assumption | apply State.setFld_kept | apply State.toState_kept

theorem State.beginLoad_kept {cq : List Instr} {s : State} (h : Kept cq s) : Kept cq s.beginLoad := by
  unfold State.beginLoad
  repeat' with_reducible first
    | assumption | apply State.peasTo_kept | (apply kept_upd; first | assumption | apply State.peasTo_kept) | exact cycOk_refl
    | exact comOk_refl | exact podOk_refl | exact nvOk_refl

theorem State.stepOne_kept {cq : List Instr} {s : State} (h : Kept cq s) (f : StartFinding) : Kept cq (s.stepOne f) := by
  unfold State.stepOne
  repeat' with_reducible first
    | assumption | apply State.setReg_kept | apply State.setFld_kept | apply State.raiseEvt_kept | apply State.recordUnlisted_kept
    | ((refine nv_put ?_ ?_ ?_ ?_ ?_ ?_) <;> with_unfolding_all (rintro ⟨_, _, _, _, _, _⟩; first
        | assumption | rfl | exact Store.wf_set _ _ _ _ ‹_›))
    | (apply kept_upd; first
        | assumption | apply State.setReg_kept | apply State.setFld_kept | apply State.raiseEvt_kept
        | apply State.recordUnlisted_kept | (refine foldl_kept ?_ (fun s x h => ?_))
        | (refine kept_ite (fun _ => ?_) (fun _ => ?_)))
    | exact cycOk_refl | exact comOk_refl | exact podOk_refl

theorem State.applyLifecycle_kept {cq : List Instr} {s : State} (h : Kept cq s) : Kept cq s.applyLifecycle := by
  unfold State.applyLifecycle
  repeat' with_reducible first
    | assumption | apply State.raiseEvt_kept | apply State.raiseRec_kept | apply State.wipe_kept
    | ((refine nv_put ?_ ?_ ?_ ?_ ?_ ?_) <;> with_unfolding_all (rintro ⟨_, _, _, _, _, _⟩; first
        | assumption | rfl | exact Store.wf_set _ _ _ _ ‹_›))
    | (apply kept_upd; first | assumption | apply State.raiseEvt_kept | apply State.raiseRec_kept | apply State.wipe_kept)
    | exact cycOk_refl | exact comOk_refl | exact podOk_refl | split

theorem State.stepTwo_kept {cq : List Instr} {s : State} (h : Kept cq s) : Kept cq s.stepTwo := by
  unfold State.stepTwo
  repeat' with_reducible first
    | assumption | apply State.setReg_kept | apply State.enterSprout_kept | apply State.applyLifecycle_kept
    | (apply kept_upd; first
        | assumption | apply State.setReg_kept | apply State.enterSprout_kept | apply State.applyLifecycle_kept
        | (refine kept_ite (fun _ => ?_) (fun _ => ?_)))
    | exact cycOk_refl | exact comOk_refl | exact podOk_refl | exact nvOk_refl | split

theorem State.stepThree_kept {cq : List Instr} {s : State} (h : Kept cq s) (f : StartFinding) : Kept cq (s.stepThree f) := by
  unfold State.stepThree
  repeat' with_reducible first
    | assumption | apply State.setFld_kept | apply State.raiseEvt_kept | apply State.toState_kept | apply State.startBist_kept
    | apply State.beginLoad_kept
    | ((refine nv_put ?_ ?_ ?_ ?_ ?_ ?_) <;> with_unfolding_all (rintro ⟨_, _, _, _, _, _⟩; first
        | assumption | rfl | exact Store.wf_set _ _ _ _ ‹_›))
    | (apply kept_upd; first
        | assumption | apply State.setFld_kept | apply State.raiseEvt_kept | apply State.toState_kept
        | apply State.startBist_kept | apply State.beginLoad_kept | (refine kept_ite (fun _ => ?_) (fun _ => ?_)))
    | exact cycOk_refl | exact comOk_refl | exact podOk_refl

theorem State.noteRefusal_kept {cq : List Instr} {s : State} (h : Kept cq s) (pr : Program) (sound : Bool) (code detail : Nat) :
    Kept cq (s.noteRefusal pr sound code detail) := by
  unfold State.noteRefusal
  repeat' with_reducible first
    | assumption | apply State.setReg_kept | apply State.raiseEvt_kept | apply State.refuseProgram_kept | split

theorem State.loadPea_kept {cq : List Instr} {s : State} (h : Kept cq s) (pr : Program) (p : PeaId) :
    Kept cq (s.loadPea pr p) := by
  unfold State.loadPea
  repeat' with_reducible first
    | assumption | apply State.setPeaState_kept | (refine State.setPea_kept ?_ _ _ ?_) | apply peaPut_canonical
    | apply recomputeDigests_canonical | refine pea_canonical (q := cq) ?_ _ | (refine foldl_canonical ?_ (fun x b hx => ?_))

theorem State.enterService_kept {cq : List Instr} {s : State} (h : Kept cq s) (p : PeaId) : Kept cq (s.enterService p) := by
  unfold State.enterService
  repeat' with_reducible first
    | assumption | apply State.setReg_kept | apply State.setFld_kept | apply State.showPod_kept
    | (apply pea_with; first | assumption | refine pea_canonical (q := cq) ?_ _ | exact pea_reset_canonical _)
    | (apply kept_upd; first
        | assumption | apply State.setReg_kept | apply State.setFld_kept | apply State.showPod_kept
        | (refine State.setPea_kept ?_ _ _ ?_))
    | exact cycOk_refl | exact comOk_refl | exact podOk_refl | exact nvOk_refl

theorem State.loadProgram_kept {cq : List Instr} {s : State} (h : Kept cq s) (pr : Program) (slot : Nat) :
    Kept cq (s.loadProgram pr slot) := by
  unfold State.loadProgram
  repeat' with_reducible first
    | assumption | apply State.setReg_kept | apply State.setFld_kept | apply State.raiseEvt_kept | apply State.raiseRec_kept
    | apply State.noteClasses_kept | apply State.setPeaState_kept | apply State.loadImg_kept | apply State.setIve_kept
    | apply State.loadPea_kept | apply State.enterService_kept
    | (apply pod_with; first | exact podOk_refl | (apply podOk_of (q := cq); assumption))
    | (apply pod_half; exact podOk_refl; omega)
    | (apply cyc_with; first | exact cycOk_refl | (apply cycOk_of (q := cq); assumption))
    | (apply kept_upd; first
        | assumption | apply State.setReg_kept | apply State.setFld_kept | apply State.raiseEvt_kept | apply State.raiseRec_kept
        | apply State.noteClasses_kept | apply State.setPeaState_kept | apply State.loadImg_kept | apply State.setIve_kept
        | apply State.loadPea_kept | apply State.enterService_kept | (refine foldl_kept ?_ (fun s x h => ?_))
        | (refine kept_ite (fun _ => ?_) (fun _ => ?_)))
    | exact comOk_refl | exact nvOk_refl

theorem State.stepFour_kept {cq : List Instr} {s : State} (h : Kept cq s) : Kept cq s.stepFour := by
  unfold State.stepFour
  repeat' with_reducible first
    | assumption | apply State.enterSprout_kept | apply State.noteRefusal_kept | apply State.loadProgram_kept
    | (apply kept_upd; first
        | assumption | apply State.enterSprout_kept | apply State.noteRefusal_kept | apply State.loadProgram_kept)
    | exact cycOk_refl | exact comOk_refl | exact podOk_refl | exact nvOk_refl | lift_lets
    | (refine kept_of_eq (by assumption) ?_) | split

theorem State.stepFive_kept {cq : List Instr} {s : State} (h : Kept cq s) (f : StartFinding) : Kept cq (s.stepFive f) := by
  unfold State.stepFive
  repeat' with_reducible first
    | assumption | (refine fun (s : State) (h : Kept cq s) => ?_) | apply State.setReg_kept | apply State.setFld_kept
    | apply State.raiseEvt_kept | apply State.enterSafe_kept | apply State.kernelFault_kept
    | (refine kept_ite (fun _ => ?_) (fun _ => ?_))
    | (intro x; refine kept_mid (q := cq) (x := x) ?_ ?_; subst x; rotate_left; intro hx; rotate_left) | intro x
    | (apply kept_with; first
        | assumption | (refine fun (s : State) (h : Kept cq s) => ?_) | apply State.setReg_kept | apply State.setFld_kept
        | apply State.raiseEvt_kept | apply State.enterSafe_kept | apply State.kernelFault_kept
        | (refine kept_ite (fun _ => ?_) (fun _ => ?_)))
    | (apply kept_upd; first
        | assumption | (refine fun (s : State) (h : Kept cq s) => ?_) | apply State.setReg_kept | apply State.setFld_kept
        | apply State.raiseEvt_kept | apply State.enterSafe_kept | apply State.kernelFault_kept
        | (refine kept_ite (fun _ => ?_) (fun _ => ?_)))
    | exact cycOk_refl | exact comOk_refl | exact podOk_refl | exact nvOk_refl | lift_lets
    | (refine kept_of_eq (by assumption) ?_) | split
    | dsimp only

theorem State.firstPorts_kept {cq : List Instr} {s : State} (h : Kept cq s) : Kept cq s.firstPorts := by
  unfold State.firstPorts
  repeat' with_reducible first | assumption | apply State.enterListen_kept | (refine foldl_kept ?_ (fun s x h => ?_)) | split

theorem State.resumeLockout_kept {cq : List Instr} {s : State} (h : Kept cq s) (l : LockRecord) :
    Kept cq (s.resumeLockout l) := by
  unfold State.resumeLockout
  repeat' with_reducible first
    | assumption | apply State.setReg_kept | apply State.setFld_kept | apply State.raiseEvt_kept | apply State.toState_kept
    | apply State.stopKernel_kept

theorem State.stepSeven_kept {cq : List Instr} {s : State} (h : Kept cq s) : Kept cq s.stepSeven := by
  unfold State.stepSeven
  repeat' with_reducible first
    | assumption | apply State.twinSend_kept | apply State.startBlock_kept | apply State.setTwin_kept
    | apply State.firstPorts_kept
    | apply State.resumeLockout_kept
    | (apply kept_upd; first
        | assumption | apply State.twinSend_kept | apply State.startBlock_kept | apply State.setTwin_kept
        | apply State.firstPorts_kept | apply State.resumeLockout_kept | (refine kept_ite (fun _ => ?_) (fun _ => ?_)))
    | exact cycOk_refl | exact comOk_refl | exact podOk_refl | exact nvOk_refl | split

theorem State.stepEight_kept {cq : List Instr} {s : State} (h : Kept cq s) : Kept cq s.stepEight := by
  unfold State.stepEight
  repeat' with_reducible first
    | assumption | apply State.setFld_kept | (apply kept_upd; first | assumption | apply State.setFld_kept) | exact cycOk_refl
    | exact comOk_refl | exact podOk_refl | exact nvOk_refl

theorem execResetRelease_kept {cq : List Instr} {s : State} (h : Kept cq s) (svcBreak : Bool) :
    OKept cq (execResetRelease svcBreak s) := by
  unfold execResetRelease
  repeat' with_reducible first
    | assumption | apply State.romStart_kept | apply okept_next
    | ((refine nv_put ?_ ?_ ?_ ?_ ?_ ?_) <;> with_unfolding_all (rintro ⟨_, _, _, _, _, _⟩; first
        | assumption | rfl | exact Store.wf_set _ _ _ _ ‹_›))
    | (apply kept_upd; first | assumption | apply State.romStart_kept) | exact cycOk_refl | exact comOk_refl | exact podOk_refl
    | split

theorem execStartStepComplete_kept {cq : List Instr} {s : State} (h : Kept cq s) (f : StartFinding) :
    OKept cq (execStartStepComplete f s) := by
  unfold execStartStepComplete
  repeat' with_reducible first
    | assumption | apply State.stepOne_kept | apply State.stepTwo_kept | apply State.stepThree_kept | apply State.stepFour_kept
    | apply State.stepFive_kept | apply State.stepSeven_kept | apply State.stepEight_kept | apply okept_next
    | (apply kept_upd; first
        | assumption | apply State.stepOne_kept | apply State.stepTwo_kept | apply State.stepThree_kept
        | apply State.stepFour_kept | apply State.stepFive_kept | apply State.stepSeven_kept | apply State.stepEight_kept)
    | exact cycOk_refl | exact comOk_refl | exact podOk_refl | exact nvOk_refl | lift_lets
    | (refine kept_of_eq (by assumption) ?_) | split

theorem State.addRepairs_kept {cq : List Instr} {s : State} (h : Kept cq s) (repairs : List Word) :
    Kept cq (s.addRepairs repairs) := by
  unfold State.addRepairs
  repeat' with_reducible first
    | assumption | (refine fun (s : State) (h : Kept cq s) => ?_) | apply State.addSat_kept | apply State.raiseEvt_kept
    | (refine kept_ite (fun _ => ?_) (fun _ => ?_)) | exact nvOk_refl | (apply nvOk_of (q := cq); assumption)
    | (apply nv_with; first | exact nvOk_refl | (apply nvOk_of (q := cq); assumption))
    | ((refine nv_put ?_ ?_ ?_ ?_ ?_ ?_) <;> with_unfolding_all (rintro ⟨_, _, _, _, _, _⟩; first
        | assumption | rfl | exact Store.wf_set _ _ _ _ ‹_›))
    | (intro x; refine kept_mid (q := cq) (x := x) ?_ ?_; subst x; rotate_left; intro hx; rotate_left) | intro x
    | (apply kept_with; first
        | assumption | (refine fun (s : State) (h : Kept cq s) => ?_) | apply State.addSat_kept | apply State.raiseEvt_kept
        | (refine kept_ite (fun _ => ?_) (fun _ => ?_)))
    | (apply kept_upd; first
        | assumption | (refine fun (s : State) (h : Kept cq s) => ?_) | apply State.addSat_kept | apply State.raiseEvt_kept
        | (refine kept_ite (fun _ => ?_) (fun _ => ?_)))
    | exact cycOk_refl | exact comOk_refl | exact podOk_refl | exact nvOk_refl | lift_lets
    | (refine kept_of_eq (by assumption) ?_) | split
    | dsimp only

theorem State.sliceResult_kept {cq : List Instr} {s : State} (h : Kept cq s) (n : Nat) (pass : Bool) (detail : Nat) :
    Kept cq (s.sliceResult n pass detail) := by
  unfold State.sliceResult
  repeat' with_reducible first
    | assumption | apply State.setReg_kept | apply State.setFld_kept | apply State.raiseEvt_kept | split

theorem State.endBist_kept {cq : List Instr} {s : State} (h : Kept cq s) : Kept cq s.endBist := by
  unfold State.endBist
  repeat' with_reducible first | assumption | apply State.setFld_kept | apply State.setBanks_kept

theorem State.bistPassed_kept {cq : List Instr} {s : State} (h : Kept cq s) : Kept cq s.bistPassed := by
  unfold State.bistPassed
  repeat' with_reducible first
    | assumption | apply State.setFld_kept | apply State.raiseEvt_kept | apply State.toState_kept | apply State.beginLoad_kept
    | apply State.endBist_kept | split

theorem State.writeSeal_kept {cq : List Instr} {s : State} (h : Kept cq s) : Kept cq s.writeSeal := by
  unfold State.writeSeal
  repeat' with_reducible first
    | assumption | apply State.raiseEvt_kept
    | ((refine nv_put ?_ ?_ ?_ ?_ ?_ ?_) <;> with_unfolding_all (rintro ⟨_, _, _, _, _, _⟩; first
        | assumption | rfl | exact Store.wf_set _ _ _ _ ‹_›))
    | (apply kept_upd; first | assumption | apply State.raiseEvt_kept) | exact cycOk_refl | exact comOk_refl | exact podOk_refl

theorem State.shutdownDone_kept {cq : List Instr} {s : State} (h : Kept cq s) : Kept cq s.shutdownDone := by
  unfold State.shutdownDone
  repeat' with_reducible first
    | assumption | (refine fun (s : State) (h : Kept cq s) => ?_) | apply State.setFld_kept | apply State.raiseEvt_kept
    | apply State.saveFloor_kept | apply State.writeStaged__kept | apply State.reboot_kept | apply State.goOff_kept
    | apply State.park_kept
    | apply State.endBist_kept | apply State.writeSeal_kept
    | (apply pea_with; first | assumption | refine pea_canonical (q := cq) ?_ _ | exact pea_reset_canonical _)
    | refine pea_canonical (q := cq) ?_ _ | (refine kept_ite (fun _ => ?_) (fun _ => ?_))
    | (intro x; refine kept_mid (q := cq) (x := x) ?_ ?_; subst x; rotate_left; intro hx; rotate_left) | intro x | lift_lets
    | (refine kept_of_eq (by assumption) ?_) | split | dsimp only

theorem State.startSlice_kept {cq : List Instr} {s : State} (h : Kept cq s) (n : Nat) (pass : Bool) :
    Kept cq (s.startSlice n pass) := by
  unfold State.startSlice
  repeat' with_reducible first
    | assumption | apply State.setFld_kept | apply State.sliceBanks_kept | apply State.bistPassed_kept
    | (apply kept_upd; first | assumption | apply State.setFld_kept | apply State.sliceBanks_kept | apply State.bistPassed_kept)
    | exact cycOk_refl | exact comOk_refl | exact podOk_refl | exact nvOk_refl | split

theorem State.shutSlice_kept {cq : List Instr} {s : State} (h : Kept cq s) (n : Nat) (pass : Bool) :
    Kept cq (s.shutSlice n pass) := by
  unfold State.shutSlice
  repeat' with_reducible first
    | assumption | apply State.setFld_kept | apply State.recordUnlisted_kept | apply State.reboot_kept
    | apply State.sliceBanks_kept
    | apply State.shutdownDone_kept
    | (apply kept_upd; first
        | assumption | apply State.setFld_kept | apply State.recordUnlisted_kept | apply State.reboot_kept
        | apply State.sliceBanks_kept | apply State.shutdownDone_kept | (refine kept_ite (fun _ => ?_) (fun _ => ?_)))
    | exact cycOk_refl | exact comOk_refl | exact podOk_refl | exact nvOk_refl

theorem execBistSliceEnd_kept {cq : List Instr} {s : State} (h : Kept cq s) (pass : Bool) (detail : BitVec 16) (noSpare : Bool)
    (repairs : List Word) : OKept cq (execBistSliceEnd pass detail noSpare repairs s) := by
  unfold execBistSliceEnd
  repeat' with_reducible first
    | assumption | apply State.raiseEvt_kept | apply State.addRepairs_kept | apply State.sliceResult_kept
    | apply State.startSlice_kept
    | apply State.shutSlice_kept | apply okept_next
    | (intro x; refine kept_mid (q := cq) (x := x) ?_ ?_; subst x; rotate_left; intro hx; rotate_left) | split | dsimp only

theorem State.stageTables_kept {cq : List Instr} {s : State} (h : Kept cq s) (f1 f2 : List (Nat × Word)) :
    Kept cq (s.stageTables f1 f2) := by
  unfold State.stageTables
  repeat' with_reducible first | assumption | apply State.setFld_kept | apply State.setIve_kept | split

theorem execStagedImageVerified_kept {cq : List Instr} {s : State} (h : Kept cq s) (p : PeaId) (x : ReadBack) :
    OKept cq (execStagedImageVerified p x s) := by
  unfold execStagedImageVerified
  repeat' with_reducible first
    | assumption | apply State.stagePea_kept | apply State.showXstat_kept | apply State.stageTables_kept | apply okept_next
    | split

theorem execMigrationEnd_kept {cq : List Instr} {s : State} (h : Kept cq s) (p : PeaId) : OKept cq (execMigrationEnd p s) := by
  unfold execMigrationEnd
  repeat' with_reducible first
    | assumption | apply State.raiseMax_kept | apply State.emitDigest_kept | apply State.showXstat_kept
    | apply State.migratePea_kept
    | apply okept_next
    | (apply kept_upd; first
        | assumption | apply State.raiseMax_kept | apply State.emitDigest_kept | apply State.showXstat_kept
        | apply State.migratePea_kept)
    | exact cycOk_refl | exact comOk_refl | exact podOk_refl | exact nvOk_refl | split | dsimp only

theorem execXreadyTimeout_kept {cq : List Instr} {s : State} (h : Kept cq s) : OKept cq (execXreadyTimeout s) := by
  unfold execXreadyTimeout
  repeat' with_reducible first
    | assumption | apply State.respond_kept | apply State.refuseExchange_kept | apply State.setArmed_kept
    | apply State.armNow_kept
    | apply okept_next | split

theorem State.copyBlock_kept {cq : List Instr} {s : State} (h : Kept cq s) (src dst : PeaId) (b : Nat) :
    Kept cq (s.copyBlock src dst b) := by
  unfold State.copyBlock
  repeat' with_reducible first
    | assumption | apply State.readWord_kept | apply State.writeWord_kept | apply State.uncorrectable_kept
    | (refine foldl_kept ?_ (fun s x h => ?_)) | (refine kept_of_eq (by assumption) ?_) | split

theorem State.reseedCopy_kept {cq : List Instr} {s : State} (h : Kept cq s) : Kept cq s.reseedCopy := by
  unfold State.reseedCopy
  repeat' with_reducible first
    | assumption | apply State.setReg_kept | apply State.addSat_kept | apply State.raiseEvt_kept | apply State.podCount_kept
    | apply State.raiseRec_kept | apply State.copyBlock_kept
    | ((refine pod_put ?_ ?_ ?_ ?_) <;> with_unfolding_all (rintro ⟨_, _, _, _⟩; first
        | assumption | (apply pea_with; assumption) | omega))
    | (apply kept_upd; first
        | assumption | apply State.setReg_kept | apply State.addSat_kept | apply State.raiseEvt_kept | apply State.podCount_kept
        | apply State.raiseRec_kept | apply State.copyBlock_kept | (refine foldl_kept ?_ (fun s x h => ?_)))
    | exact cycOk_refl | exact comOk_refl | exact nvOk_refl | split

theorem State.endRotation_kept {cq : List Instr} {s : State} (h : Kept cq s) (p : PeaId) (pass : Bool) :
    Kept cq (s.endRotation p pass) := by
  unfold State.endRotation
  repeat' with_reducible first
    | assumption | apply State.setReg_kept | apply State.setFld_kept | apply State.raiseEvt_kept | apply State.podCount_kept
    | apply State.raiseRec_kept
    | ((refine pod_put ?_ ?_ ?_ ?_) <;> with_unfolding_all (rintro ⟨_, _, _, _⟩; first
        | assumption | (apply pea_with; assumption) | omega))
    | (apply kept_upd; first
        | assumption | apply State.setReg_kept | apply State.setFld_kept | apply State.raiseEvt_kept | apply State.podCount_kept
        | apply State.raiseRec_kept)
    | exact cycOk_refl | exact comOk_refl | exact nvOk_refl | split

theorem State.advanceRotation_kept {cq : List Instr} {s : State} (h : Kept cq s) : Kept cq s.advanceRotation := by
  unfold State.advanceRotation
  repeat' with_reducible first
    | assumption
    | ((refine pod_put ?_ ?_ ?_ ?_) <;> with_unfolding_all (rintro ⟨_, _, _, _⟩; first
        | assumption | (apply pea_with; assumption) | omega))
    | (apply kept_upd; assumption) | exact cycOk_refl | exact comOk_refl | exact nvOk_refl

theorem State.deferRotation_kept {cq : List Instr} {s : State} (h : Kept cq s) : Kept cq s.deferRotation := by
  unfold State.deferRotation
  repeat' with_reducible first
    | assumption | apply State.raiseEvt_kept
    | ((refine pod_put ?_ ?_ ?_ ?_) <;> with_unfolding_all (rintro ⟨_, _, _, _⟩; first
        | assumption | (apply pea_with; assumption) | omega))
    | (apply kept_upd; first | assumption | apply State.raiseEvt_kept) | exact cycOk_refl | exact comOk_refl | exact nvOk_refl

theorem State.rotationDue_kept {cq : List Instr} {s : State} (h : Kept cq s) : Kept cq s.rotationDue := by
  unfold State.rotationDue
  repeat' with_reducible first
    | assumption | (refine fun (s : State) (h : Kept cq s) => ?_) | apply State.advanceRotation_kept
    | apply State.deferRotation_kept
    | (refine kept_ite (fun _ => ?_) (fun _ => ?_)) | exact podOk_refl | (apply podOk_of (q := cq); assumption)
    | (apply pod_with; first | exact podOk_refl | (apply podOk_of (q := cq); assumption))
    | (apply pod_half; exact podOk_refl; omega)
    | (refine podOk_ite ?_ ?_)
    | ((refine pod_put ?_ ?_ ?_ ?_) <;> with_unfolding_all (rintro ⟨_, _, _, _⟩; first
        | assumption | (apply pea_with; assumption) | omega))
    | (intro x; refine kept_mid (q := cq) (x := x) ?_ ?_; subst x; rotate_left; intro hx; rotate_left) | intro x
    | (apply kept_with; first
        | assumption | (refine fun (s : State) (h : Kept cq s) => ?_) | apply State.advanceRotation_kept
        | apply State.deferRotation_kept | (refine kept_ite (fun _ => ?_) (fun _ => ?_)))
    | (apply kept_upd; first
        | assumption | (refine fun (s : State) (h : Kept cq s) => ?_) | apply State.advanceRotation_kept
        | apply State.deferRotation_kept | (refine kept_ite (fun _ => ?_) (fun _ => ?_)))
    | exact cycOk_refl | exact comOk_refl | exact podOk_refl | exact nvOk_refl | lift_lets
    | (refine kept_of_eq (by assumption) ?_) | split
    | dsimp only

theorem State.startRotation_kept {cq : List Instr} {s : State} (h : Kept cq s) : Kept cq s.startRotation := by
  unfold State.startRotation
  repeat' with_reducible first
    | assumption | apply State.setFld_kept | apply State.raiseEvt_kept | apply State.podCount_kept | apply State.setPeaState_kept
    | apply State.showPod_kept | apply State.afterEvict_kept | apply State.advanceRotation_kept | apply State.deferRotation_kept
    | (apply pea_with; first | assumption | refine pea_canonical (q := cq) ?_ _ | exact pea_reset_canonical _)
    | ((refine pod_put ?_ ?_ ?_ ?_) <;> with_unfolding_all (rintro ⟨_, _, _, _⟩; first
        | assumption | (apply pea_with; assumption) | omega))
    | intro x
    | (apply kept_upd; first
        | assumption | apply State.setFld_kept | apply State.raiseEvt_kept | apply State.podCount_kept
        | apply State.setPeaState_kept | apply State.showPod_kept | apply State.afterEvict_kept
        | apply State.advanceRotation_kept | apply State.deferRotation_kept | (refine State.setPea_kept ?_ _ _ ?_)
        | (refine kept_ite (fun _ => ?_) (fun _ => ?_)))
    | exact cycOk_refl | exact comOk_refl | exact nvOk_refl

theorem State.showRejoin_kept {cq : List Instr} {s : State} (h : Kept cq s) (left : Nat) : Kept cq (s.showRejoin left) := by
  unfold State.showRejoin
  repeat' with_reducible first | assumption | apply State.setReg_kept | apply State.setFld_kept | split

theorem State.startRejoin_kept {cq : List Instr} {s : State} (h : Kept cq s) (p : PeaId) : Kept cq (s.startRejoin p) := by
  unfold State.startRejoin
  repeat' with_reducible first
    | assumption | apply State.setFld_kept | apply State.setPeaState_kept | apply State.showRejoin_kept
    | ((refine pod_put ?_ ?_ ?_ ?_) <;> with_unfolding_all (rintro ⟨_, _, _, _⟩; first
        | assumption | (apply pea_with; assumption) | omega))
    | (apply kept_upd; first | assumption | apply State.setFld_kept | apply State.setPeaState_kept | apply State.showRejoin_kept)
    | exact cycOk_refl | exact comOk_refl | exact nvOk_refl

theorem State.endRejoin_kept {cq : List Instr} {s : State} (h : Kept cq s) (p : PeaId) (joined : Bool) :
    Kept cq (s.endRejoin p joined) := by
  unfold State.endRejoin
  repeat' with_reducible first
    | assumption | apply State.raiseRec_kept | apply State.endRotation_kept | apply State.showRejoin_kept
    | ((refine pod_put ?_ ?_ ?_ ?_) <;> with_unfolding_all (rintro ⟨_, _, _, _⟩; first
        | assumption | (apply pea_with; assumption) | omega))
    | (apply kept_upd; first
        | assumption | apply State.raiseRec_kept | apply State.endRotation_kept | apply State.showRejoin_kept)
    | exact cycOk_refl | exact comOk_refl | exact nvOk_refl

theorem State.rejoinWindow_kept {cq : List Instr} {s : State} (h : Kept cq s) : Kept cq s.rejoinWindow := by
  unfold State.rejoinWindow
  repeat' with_reducible first
    | assumption | apply State.copyBlock_kept | apply State.showRejoin_kept
    | (apply pod_with; first | exact podOk_refl | (apply podOk_of (q := cq); assumption))
    | (apply kept_upd; first
        | assumption | apply State.copyBlock_kept | apply State.showRejoin_kept | (refine foldl_kept ?_ (fun s x h => ?_)))
    | exact cycOk_refl | exact comOk_refl | exact nvOk_refl | split

theorem State.rejoinCycle_kept {cq : List Instr} {s : State} (h : Kept cq s) : Kept cq s.rejoinCycle := by
  unfold State.rejoinCycle
  repeat' with_reducible first
    | assumption | apply State.addSat_kept | apply State.raiseEvt_kept | apply State.podCount_kept | apply State.setPeaState_kept
    | apply State.enterService_kept | apply State.startRejoin_kept | apply State.endRejoin_kept
    | (apply pea_with; first | assumption | refine pea_canonical (q := cq) ?_ _ | exact pea_reset_canonical _)
    | ((refine pod_put ?_ ?_ ?_ ?_) <;> with_unfolding_all (rintro ⟨_, _, _, _⟩; first
        | assumption | (apply pea_with; assumption) | omega))
    | (apply kept_upd; first
        | assumption | apply State.addSat_kept | apply State.raiseEvt_kept | apply State.podCount_kept
        | apply State.setPeaState_kept | apply State.enterService_kept | apply State.startRejoin_kept
        | apply State.endRejoin_kept | (refine State.setPea_kept ?_ _ _ ?_))
    | exact cycOk_refl | exact comOk_refl | exact nvOk_refl | split | dsimp only

theorem State.keepOut_kept {cq : List Instr} {s : State} (h : Kept cq s) (p : PeaId) : Kept cq (s.keepOut p) := by
  unfold State.keepOut
  repeat' with_reducible first
    | assumption | (refine fun (s : State) (h : Kept cq s) => ?_) | apply State.setPeaState_kept | apply State.endRotation_kept
    | (refine State.setPea_kept ?_ _ _ ?_)
    | (apply pea_with; first | assumption | refine pea_canonical (q := cq) ?_ _ | exact pea_reset_canonical _)
    | refine pea_canonical (q := cq) ?_ _
    | (intro x; refine kept_mid (q := cq) (x := x) ?_ ?_; subst x; rotate_left; intro hx; rotate_left) | intro x
    | (apply kept_with; first
        | assumption | (refine fun (s : State) (h : Kept cq s) => ?_) | apply State.setPeaState_kept
        | apply State.endRotation_kept | (refine State.setPea_kept ?_ _ _ ?_)
        | (apply pea_with; first | assumption | refine pea_canonical (q := cq) ?_ _ | exact pea_reset_canonical _)
        | refine pea_canonical (q := cq) ?_ _)
    | (apply kept_upd; first
        | assumption | (refine fun (s : State) (h : Kept cq s) => ?_) | apply State.setPeaState_kept
        | apply State.endRotation_kept | (refine State.setPea_kept ?_ _ _ ?_)
        | (apply pea_with; first | assumption | refine pea_canonical (q := cq) ?_ _ | exact pea_reset_canonical _)
        | refine pea_canonical (q := cq) ?_ _)
    | exact cycOk_refl | exact comOk_refl | exact podOk_refl | exact nvOk_refl | lift_lets
    | (refine kept_of_eq (by assumption) ?_) | split
    | dsimp only

theorem State.testedPea_kept {cq : List Instr} {s : State} (h : Kept cq s) (p : PeaId) : Kept cq (s.testedPea p) := by
  unfold State.testedPea
  extract_lets y x
  have hx : x.canonical p := by
    have hp := pea_canonical h p
    exact pea_put hp.1 rfl rfl rfl
  refine State.setPea_kept h p _ ?_
  split
  · exact recomputeDigests_canonical hx _
  · exact hx

theorem State.catchUpPea_kept {cq : List Instr} {s : State} (h : Kept cq s) (p : PeaId) : Kept cq (s.catchUpPea p) := by
  unfold State.catchUpPea
  repeat' with_reducible first
    | assumption | apply State.writeHalf_kept
    | (apply pea_with; first | assumption | refine pea_canonical (q := cq) ?_ _ | exact pea_reset_canonical _)
    | (apply kept_upd; first | assumption | apply State.writeHalf_kept | (refine State.setPea_kept ?_ _ _ ?_)) | exact cycOk_refl
    | exact comOk_refl | exact podOk_refl | exact nvOk_refl | split

theorem State.checkProgram_kept {cq : List Instr} {s : State} (h : Kept cq s) (p : PeaId) : Kept cq (s.checkProgram p) := by
  unfold State.checkProgram
  repeat' with_reducible first | assumption | apply State.setReg_kept | apply State.peaFault_kept | split | dsimp only

theorem State.scrubWords_kept {cq : List Instr} {s : State} (h : Kept cq s) (p : PeaId) (at_ : List Nat) (n : Nat) :
    Kept cq (s.scrubWords p at_ n) := by
  unfold State.scrubWords
  repeat' with_reducible first
    | assumption | apply State.readWord_kept | apply State.uncorrectable_kept
    | (apply kept_upd; first
        | assumption | apply State.readWord_kept | apply State.uncorrectable_kept | (refine foldl_kept ?_ (fun s x h => ?_)))
    | exact cycOk_refl | exact comOk_refl | exact podOk_refl | exact nvOk_refl | (refine kept_of_eq (by assumption) ?_) | split

theorem State.scrubSlice_kept {cq : List Instr} {s : State} (h : Kept cq s) (p : PeaId) (n : Nat) :
    Kept cq (s.scrubSlice p n) := by
  unfold State.scrubSlice
  repeat' with_reducible first
    | assumption | apply State.addSat_kept | apply State.peaTicks_kept | apply State.peaCount_kept | apply State.checkProgram_kept
    | apply State.scrubWords_kept
    | (apply pea_with; first | assumption | refine pea_canonical (q := cq) ?_ _ | exact pea_reset_canonical _)
    | (apply kept_upd; first
        | assumption | apply State.addSat_kept | apply State.peaTicks_kept | apply State.peaCount_kept
        | apply State.checkProgram_kept | apply State.scrubWords_kept | (refine State.setPea_kept ?_ _ _ ?_)
        | (refine kept_ite (fun _ => ?_) (fun _ => ?_)))
    | exact cycOk_refl | exact comOk_refl | exact podOk_refl | exact nvOk_refl

theorem State.scrubCycle_kept {cq : List Instr} {s : State} (h : Kept cq s) : Kept cq s.scrubCycle := by
  unfold State.scrubCycle
  repeat' with_reducible first
    | assumption | apply State.setFld_kept | apply State.addSat_kept | apply State.raiseEvt_kept
    | (refine foldl_kept ?_ (fun s x h => ?_))
    | split | dsimp only

theorem execPathRetestEnd_kept {cq : List Instr} {s : State} (h : Kept cq s) (p : PeaId) (pass : Bool) :
    OKept cq (execPathRetestEnd p pass s) := by
  unfold execPathRetestEnd
  repeat' with_reducible first
    | assumption | (refine fun (s : State) (h : Kept cq s) => ?_) | apply State.raiseEvt_kept | apply State.setPeaState_kept
    | apply State.keepOut_kept | (refine State.setPea_kept ?_ _ _ ?_)
    | (apply pea_with; first | assumption | refine pea_canonical (q := cq) ?_ _ | exact pea_reset_canonical _)
    | refine pea_canonical (q := cq) ?_ _ | apply okept_next | (refine okept_ite (fun _ => ?_) (fun _ => ?_))
    | (refine kept_ite (fun _ => ?_) (fun _ => ?_))
    | (intro x; refine kept_mid (q := cq) (x := x) ?_ ?_; subst x; rotate_left; intro hx; rotate_left) | intro x
    | (apply kept_with; first
        | assumption | (refine fun (s : State) (h : Kept cq s) => ?_) | apply State.raiseEvt_kept | apply State.setPeaState_kept
        | apply State.keepOut_kept | (refine State.setPea_kept ?_ _ _ ?_)
        | (apply pea_with; first | assumption | refine pea_canonical (q := cq) ?_ _ | exact pea_reset_canonical _)
        | refine pea_canonical (q := cq) ?_ _ | apply okept_next | (refine okept_ite (fun _ => ?_) (fun _ => ?_))
        | (refine kept_ite (fun _ => ?_) (fun _ => ?_)))
    | (apply kept_upd; first
        | assumption | (refine fun (s : State) (h : Kept cq s) => ?_) | apply State.raiseEvt_kept | apply State.setPeaState_kept
        | apply State.keepOut_kept | (refine State.setPea_kept ?_ _ _ ?_)
        | (apply pea_with; first | assumption | refine pea_canonical (q := cq) ?_ _ | exact pea_reset_canonical _)
        | refine pea_canonical (q := cq) ?_ _ | apply okept_next | (refine okept_ite (fun _ => ?_) (fun _ => ?_))
        | (refine kept_ite (fun _ => ?_) (fun _ => ?_)))
    | exact cycOk_refl | exact comOk_refl | exact podOk_refl | exact nvOk_refl | lift_lets
    | (refine kept_of_eq (by assumption) ?_) | split
    | dsimp only

theorem execPeaSelfTestEnd_kept {cq : List Instr} {s : State} (h : Kept cq s) (p : PeaId) (pass : Bool) (repairs : List Word) :
    OKept cq (execPeaSelfTestEnd p pass repairs s) := by
  unfold execPeaSelfTestEnd
  repeat' with_reducible first
    | assumption | apply State.stagePea_kept | apply State.addRepairs_kept | apply State.startRejoin_kept
    | apply State.keepOut_kept
    | apply State.testedPea_kept | apply State.catchUpPea_kept | apply State.checkProgram_kept
    | (apply pea_with; first | assumption | refine pea_canonical (q := cq) ?_ _ | exact pea_reset_canonical _) | apply okept_next
    | (apply kept_upd; first
        | assumption | apply State.stagePea_kept | apply State.addRepairs_kept | apply State.startRejoin_kept
        | apply State.keepOut_kept | apply State.testedPea_kept | apply State.catchUpPea_kept | apply State.checkProgram_kept
        | (refine State.setPea_kept ?_ _ _ ?_))
    | exact cycOk_refl | exact comOk_refl | exact podOk_refl | exact nvOk_refl | split | dsimp only

theorem execPeaSelfTestTimeout_kept {cq : List Instr} {s : State} (h : Kept cq s) (p : PeaId) :
    OKept cq (execPeaSelfTestTimeout p s) := by
  unfold execPeaSelfTestTimeout
  repeat' with_reducible first | assumption | apply State.keepOut_kept | apply State.testedPea_kept | apply okept_next | split

theorem execRejoinWindow_kept {cq : List Instr} {s : State} (h : Kept cq s) : OKept cq (execRejoinWindow s) := by
  unfold execRejoinWindow
  repeat' with_reducible first | assumption | apply State.rejoinWindow_kept | apply okept_next

theorem execRejoinTimeout_kept {cq : List Instr} {s : State} (h : Kept cq s) : OKept cq (execRejoinTimeout s) := by
  unfold execRejoinTimeout
  repeat' with_reducible first
    | assumption | apply State.setReg_kept | apply State.raiseEvt_kept | apply State.endRejoin_kept | apply State.keepOut_kept
    | apply okept_next | split

theorem execReseedCopy_kept {cq : List Instr} {s : State} (h : Kept cq s) : OKept cq (execReseedCopy s) := by
  unfold execReseedCopy
  repeat' with_reducible first | assumption | apply State.reseedCopy_kept | apply okept_next

theorem execRotationTestDue_kept {cq : List Instr} {s : State} (h : Kept cq s) : OKept cq (execRotationTestDue s) := by
  unfold execRotationTestDue
  repeat' with_reducible first | assumption | apply State.rotationDue_kept | apply okept_next | split

theorem execRotationTestRetry_kept {cq : List Instr} {s : State} (h : Kept cq s) : OKept cq (execRotationTestRetry s) := by
  unfold execRotationTestRetry
  repeat' with_reducible first | assumption | apply State.rotationDue_kept | apply okept_next | split

theorem execRotReq_kept {cq : List Instr} {s : State} (h : Kept cq s) : OKept cq (execRotReq s) := by
  unfold execRotReq
  repeat' with_reducible first | assumption | apply State.rotationDue_kept | apply okept_next | split

theorem execPeaScrubSlice_kept {cq : List Instr} {s : State} (h : Kept cq s) (p : PeaId) (words : Nat)
    (strikes : List (MemKind × Nat × Option Nat)) : OKept cq (execPeaScrubSlice p words strikes s) := by
  unfold execPeaScrubSlice
  repeat' with_reducible first
    | assumption | (refine fun (s : State) (h : Kept cq s) => ?_) | apply State.scrubSlice_kept
    | (refine State.setPea_kept ?_ _ _ ?_)
    | (apply pea_with; first | assumption | refine pea_canonical (q := cq) ?_ _ | exact pea_reset_canonical _)
    | refine pea_canonical (q := cq) ?_ _ | apply okept_next | (refine okept_ite (fun _ => ?_) (fun _ => ?_))
    | (refine kept_ite (fun _ => ?_) (fun _ => ?_))
    | (intro x; refine kept_mid (q := cq) (x := x) ?_ ?_; subst x; rotate_left; intro hx; rotate_left)
    | (intro x; refine kept_mid (q := cq) (x := x.1) ?_ ?_; subst x; rotate_left; intro hx; rotate_left) | intro x
    | (apply kept_with; first
        | assumption | (refine fun (s : State) (h : Kept cq s) => ?_) | apply State.scrubSlice_kept
        | (refine State.setPea_kept ?_ _ _ ?_)
        | (apply pea_with; first | assumption | refine pea_canonical (q := cq) ?_ _ | exact pea_reset_canonical _)
        | refine pea_canonical (q := cq) ?_ _ | apply okept_next | (refine okept_ite (fun _ => ?_) (fun _ => ?_))
        | (refine kept_ite (fun _ => ?_) (fun _ => ?_)))
    | (apply kept_upd; first
        | assumption | (refine fun (s : State) (h : Kept cq s) => ?_) | apply State.scrubSlice_kept
        | (refine State.setPea_kept ?_ _ _ ?_)
        | (apply pea_with; first | assumption | refine pea_canonical (q := cq) ?_ _ | exact pea_reset_canonical _)
        | refine pea_canonical (q := cq) ?_ _ | apply okept_next | (refine okept_ite (fun _ => ?_) (fun _ => ?_))
        | (refine kept_ite (fun _ => ?_) (fun _ => ?_)))
    | exact cycOk_refl | exact comOk_refl | exact podOk_refl | exact nvOk_refl | lift_lets
    | (refine kept_of_eq (by assumption) ?_) | split
    | dsimp only

theorem State.readAddr_kept {cq : List Instr} {s : State} (h : Kept cq s) (a : Nat) : Kept cq (s.readAddr a).1 := by
  unfold State.readAddr
  repeat' with_reducible first
    | assumption | apply State.raiseEvt_kept | apply State.readWord_kept | apply State.uncorrectable_kept
    | (refine kept_of_eq (by assumption) ?_) | split | dsimp only

end Sys2Proof.Machine
end

