-- ==== Sys2Proof/Laws/KeepsLink.lean ====
section
/-! SUPPORT. The invariant is kept by the field side, the twin link, registers, images and update: one lemma for each definition,
in the order of the model. -/

namespace Sys2Proof.Machine

theorem State.setFio_kept {cq : List Instr} {s : State} (h : Kept cq s) (x : Fio) : Kept cq (s.setFio x) := by
  unfold State.setFio
  repeat' with_reducible first
    | assumption | (apply kept_upd; assumption) | exact cycOk_refl | exact comOk_refl | exact podOk_refl | exact nvOk_refl

theorem State.showLost_kept {cq : List Instr} {s : State} (h : Kept cq s) : Kept cq s.showLost := by
  unfold State.showLost
  repeat' with_reducible first | assumption | apply State.setReg_kept

theorem State.showStatus_kept {cq : List Instr} {s : State} (h : Kept cq s) : Kept cq s.showStatus := by
  unfold State.showStatus
  repeat' with_reducible first | assumption | apply State.chStatus_kept | (refine foldl_kept ?_ (fun s x h => ?_))

theorem State.takeDownlink_kept {cq : List Instr} {s : State} (h : Kept cq s) (frame : List Byte) :
    Kept cq (s.takeDownlink frame) := by
  unfold State.takeDownlink
  repeat' with_reducible first
    | assumption | apply State.setFld_kept | apply State.addSat_kept | apply State.setFio_kept | split | dsimp only

theorem State.downlink_kept {cq : List Instr} {s : State} (h : Kept cq s) (err : List Byte) : Kept cq (s.downlink err) := by
  unfold State.downlink
  repeat' with_reducible first | assumption | apply State.setReg_kept | apply State.setFio_kept | apply State.takeDownlink_kept

theorem State.takeUplink_kept {cq : List Instr} {s : State} (h : Kept cq s) (frame : List Byte) :
    Kept cq (s.takeUplink frame) := by
  unfold State.takeUplink
  repeat' with_reducible first
    | assumption | apply State.setReg_kept | apply State.setFld_kept | apply State.addSat_kept | apply State.setFio_kept | split
    | dsimp only

theorem execFieldRefresh_kept {cq : List Instr} {s : State} (h : Kept cq s) (downErr upErr : List Byte) (act : Word) (grp : Nat)
    (meas : List (Nat × Nat × Nat)) : OKept cq (execFieldRefresh downErr upErr act grp meas s) := by
  unfold execFieldRefresh
  repeat' with_reducible first
    | assumption | apply State.setFld_kept | apply State.raiseMax_kept | apply State.showLost_kept | apply State.showStatus_kept
    | apply State.downlink_kept | apply State.takeUplink_kept | apply okept_next
    | (apply kept_upd; first
        | assumption | apply State.setFld_kept | apply State.raiseMax_kept | apply State.showLost_kept
        | apply State.showStatus_kept | apply State.downlink_kept | apply State.takeUplink_kept
        | (refine foldl_kept ?_ (fun s x h => ?_)))
    | exact cycOk_refl | exact comOk_refl | exact podOk_refl | exact nvOk_refl | split

theorem execUplinkTimeout_kept {cq : List Instr} {s : State} (h : Kept cq s) : OKept cq (execUplinkTimeout s) := by
  unfold execUplinkTimeout
  repeat' with_reducible first
    | assumption | apply State.setFld_kept | apply State.raiseEvt_kept | apply State.setFio_kept | apply State.showLost_kept
    | apply State.showStatus_kept | apply okept_next | split

theorem execDownlinkTimeout_kept {cq : List Instr} {s : State} (h : Kept cq s) : OKept cq (execDownlinkTimeout s) := by
  unfold execDownlinkTimeout
  repeat' with_reducible first
    | assumption | apply State.setFld_kept | apply State.addSat_kept | apply State.raiseEvt_kept | apply State.setFio_kept
    | apply okept_next | split

theorem overload_kept {cq : List Instr} {s : State} (h : Kept cq s) (c st : Nat) : Kept cq (overload s c st) := by
  unfold overload
  repeat' with_reducible first
    | assumption | apply State.raiseEvt_kept | apply State.chStatus_kept | apply State.setFio_kept | split

theorem execOverloadLatch_kept {cq : List Instr} {s : State} (h : Kept cq s) (c : Fin 32) : OKept cq (execOverloadLatch c s) := by
  unfold execOverloadLatch
  repeat' with_reducible first | assumption | apply overload_kept | apply okept_next

theorem execThermalTrip_kept {cq : List Instr} {s : State} (h : Kept cq s) (c : Fin 32) : OKept cq (execThermalTrip c s) := by
  unfold execThermalTrip
  repeat' with_reducible first | assumption | apply overload_kept | apply okept_next

theorem execGroupTrip_kept {cq : List Instr} {s : State} (h : Kept cq s) : OKept cq (execGroupTrip s) := by
  unfold execGroupTrip
  repeat' with_reducible first | assumption | apply State.setFld_kept | apply State.raiseEvt_kept | apply okept_next

theorem execGrprst_kept {cq : List Instr} {s : State} (h : Kept cq s) : OKept cq (execGrprst s) := by
  unfold execGrprst
  repeat' with_reducible first | assumption | apply State.setFld_kept | apply State.errAddr_kept | apply okept_next | split

theorem execVfChange_kept {cq : List Instr} {s : State} (h : Kept cq s) (ok : Bool) : OKept cq (execVfChange ok s) := by
  unfold execVfChange
  repeat' with_reducible first
    | assumption | apply State.setFld_kept | apply State.raiseEvt_kept | apply State.showStatus_kept | apply okept_next
    | (intro x; refine kept_mid (q := cq) (x := x) ?_ ?_; subst x; rotate_left; intro hx; rotate_left) | split

theorem execTpsFoldback_kept {cq : List Instr} {s : State} (h : Kept cq s) (k : Fin 4) : OKept cq (execTpsFoldback k s) := by
  unfold execTpsFoldback
  repeat' with_reducible first | assumption | apply State.setReg_kept | apply okept_next

theorem execTpsFoldbackEnd_kept {cq : List Instr} {s : State} (h : Kept cq s) (k : Fin 4) :
    OKept cq (execTpsFoldbackEnd k s) := by
  unfold execTpsFoldbackEnd
  repeat' with_reducible first | assumption | apply State.setReg_kept | apply okept_next

theorem State.sampleChannel_kept {cq : List Instr} {s : State} (h : Kept cq s) (c : Nat) (raw : Bool) :
    Kept cq (s.sampleChannel c raw) := by
  unfold State.sampleChannel
  repeat' with_reducible first | assumption | apply State.setFio_kept | split

theorem State.tpChannel_kept {cq : List Instr} {s : State} (h : Kept cq s) (c k : Nat) (low : Bool) :
    Kept cq (s.tpChannel c k low) := by
  unfold State.tpChannel
  repeat' with_reducible first | assumption | apply State.raiseEvt_kept | apply State.setFio_kept | split | dsimp only

theorem State.sfbTest_kept {cq : List Instr} {s : State} (h : Kept cq s) (f k : Nat) (low : Word) :
    Kept cq (s.sfbTest f k low) := by
  unfold State.sfbTest
  repeat' with_reducible first
    | assumption | (refine fun (s : State) (h : Kept cq s) => ?_) | apply State.sfbFault_kept
    | (refine kept_ite (fun _ => ?_) (fun _ => ?_))
    | (intro x; refine kept_mid (q := cq) (x := x) ?_ ?_; subst x; rotate_left; intro hx; rotate_left) | intro x
    | (apply kept_with; first
        | assumption | (refine fun (s : State) (h : Kept cq s) => ?_) | apply State.sfbFault_kept
        | (refine kept_ite (fun _ => ?_) (fun _ => ?_)))
    | (apply kept_upd; first
        | assumption | (refine fun (s : State) (h : Kept cq s) => ?_) | apply State.sfbFault_kept
        | (refine kept_ite (fun _ => ?_) (fun _ => ?_)))
    | exact cycOk_refl | exact comOk_refl | exact podOk_refl | exact nvOk_refl | lift_lets
    | (refine kept_of_eq (by assumption) ?_) | split
    | dsimp only

theorem execFieldInputSample_kept {cq : List Instr} {s : State} (h : Kept cq s) (raw : Word) :
    OKept cq (execFieldInputSample raw s) := by
  unfold execFieldInputSample
  repeat' with_reducible first
    | assumption | apply State.setReg_kept | apply State.sampleChannel_kept | (refine foldl_kept ?_ (fun s x h => ?_))
    | apply okept_next
    | split

theorem execTestPulse_kept {cq : List Instr} {s : State} (h : Kept cq s) (k : Fin 4) (low sfbLow : Word) :
    OKept cq (execTestPulse k low sfbLow s) := by
  unfold execTestPulse
  repeat' with_reducible first
    | assumption | apply State.setFio_kept | apply State.showLost_kept | apply State.showStatus_kept | apply State.tpChannel_kept
    | apply State.sfbTest_kept | apply okept_next
    | (apply kept_upd; first
        | assumption | apply State.setFio_kept | apply State.showLost_kept | apply State.showStatus_kept
        | apply State.tpChannel_kept | apply State.sfbTest_kept | (refine foldl_kept ?_ (fun s x h => ?_)))
    | exact cycOk_refl | exact comOk_refl | exact podOk_refl | exact nvOk_refl

theorem State.takeSync_kept {cq : List Instr} {s : State} (h : Kept cq s) (n offset : Word) (time : Nat) :
    Kept cq (s.takeSync n offset time) := by
  unfold State.takeSync
  repeat' with_reducible first
    | assumption | apply State.syncTime_kept | apply State.joinCycles_kept | apply State.noteAlign_kept
    | (refine kept_ite (fun _ => ?_) (fun _ => ?_))
    | ((refine cyc_put ?_); with_unfolding_all (intro h0; first | exact h0 | omega))
    | (apply kept_upd; first | assumption | apply State.syncTime_kept | apply State.joinCycles_kept | apply State.noteAlign_kept)
    | exact comOk_refl | exact podOk_refl | exact nvOk_refl

theorem execSyncFrame_kept {cq : List Instr} {s : State} (h : Kept cq s) (h : TwinHdr) (n offset : Word) (time : Nat) (rc : Word)
    : OKept cq (execSyncFrame h n offset time rc s) := by
  unfold execSyncFrame
  repeat' with_reducible first
    | assumption | (refine fun (s : State) (h : Kept cq s) => ?_) | apply State.syncTime_kept | apply State.twinRx_kept
    | apply State.takeSync_kept | apply okept_next | split

theorem execProbeFrame_kept {cq : List Instr} {s : State} (h : Kept cq s) (h : TwinHdr) (n : Word) :
    OKept cq (execProbeFrame h n s) := by
  unfold execProbeFrame
  repeat' with_reducible first
    | assumption | (refine fun (s : State) (h : Kept cq s) => ?_) | apply State.twinSend_kept | apply State.twinRx_kept
    | apply okept_next
    | split

theorem execEchoFrame_kept {cq : List Instr} {s : State} (h : Kept cq s) (h : TwinHdr) (n turnaround : Word) :
    OKept cq (execEchoFrame h n turnaround s) := by
  unfold execEchoFrame
  repeat' with_reducible first
    | assumption | apply State.setFld_kept | apply State.setTwin_kept | apply State.twinRx_kept | apply okept_next | intro x
    | split

theorem execProbeInterval_kept {cq : List Instr} {s : State} (h : Kept cq s) : OKept cq (execProbeInterval s) := by
  unfold execProbeInterval
  repeat' with_reducible first | assumption | apply State.sendProbe_kept | apply okept_next | split

theorem execReadyStart_kept {cq : List Instr} {s : State} (h : Kept cq s) (h : TwinHdr) (letter id1 compat : Nat) :
    OKept cq (execReadyStart h letter id1 compat s) := by
  unfold execReadyStart
  repeat' with_reducible first
    | assumption | apply State.setTwin_kept | apply State.noteClash_kept | apply State.twinRx_kept | apply okept_next | intro x
    | split
    | dsimp only

theorem execFirstRoleEvaluation_kept {cq : List Instr} {s : State} (h : Kept cq s) : OKept cq (execFirstRoleEvaluation s) := by
  unfold execFirstRoleEvaluation
  repeat' with_reducible first
    | assumption | apply State.setRole_kept | apply State.startBlock_kept | apply State.toState_kept | apply State.setTwin_kept
    | apply State.startCycles_kept | apply State.startJoin_kept | apply State.becomeActive_kept | apply okept_next
    | (refine okept_ite (fun _ => ?_) (fun _ => ?_)) | split | dsimp only

theorem execXferReq_kept {cq : List Instr} {s : State} (h : Kept cq s) (h : TwinHdr) (imgId tblId : Word) :
    OKept cq (execXferReq h imgId tblId s) := by
  unfold execXferReq
  repeat' with_reducible first
    | assumption | apply State.setReg_kept | apply State.setFld_kept | apply State.raiseEvt_kept | apply State.twinSend_kept
    | apply State.setTwin_kept | apply State.twinRx_kept | apply State.showBlocks_kept | apply State.xferPhase_kept
    | apply okept_next
    | intro x | split | dsimp only

theorem execXferAccept_kept {cq : List Instr} {s : State} (h : Kept cq s) (h : TwinHdr) (cycle : Word) :
    OKept cq (execXferAccept h cycle s) := by
  unfold execXferAccept
  repeat' with_reducible first
    | assumption | apply State.setIve_kept | apply State.showHold_kept | apply State.setTwin_kept | apply State.twinRx_kept
    | apply State.haltTasks_kept | apply State.showBlocks_kept | apply State.xferPhase_kept | apply State.adoptStaged_kept
    | apply okept_next | (refine okept_ite (fun _ => ?_) (fun _ => ?_)) | intro x
    | (apply kept_upd; first
        | assumption | apply State.setIve_kept | apply State.showHold_kept | apply State.setTwin_kept | apply State.twinRx_kept
        | apply State.haltTasks_kept | apply State.showBlocks_kept | apply State.xferPhase_kept | apply State.adoptStaged_kept)
    | exact cycOk_refl | exact comOk_refl | exact podOk_refl | exact nvOk_refl | split | dsimp only

theorem execXferRefuse_kept {cq : List Instr} {s : State} (h : Kept cq s) (h : TwinHdr) (cause : Nat) :
    OKept cq (execXferRefuse h cause s) := by
  unfold execXferRefuse
  repeat' with_reducible first
    | assumption | apply State.raiseEvt_kept | apply State.twinSend_kept | apply State.setTwin_kept | apply State.failXfer_kept
    | apply State.twinRx_kept | apply okept_next | intro x | split

theorem execXferNeed_kept {cq : List Instr} {s : State} (h : Kept cq s) (h : TwinHdr) (cycle : Word) (blocks : List Nat) :
    OKept cq (execXferNeed h cycle blocks s) := by
  unfold execXferNeed
  repeat' with_reducible first
    | assumption | apply State.setTwin_kept | apply State.twinRx_kept | apply State.showBlocks_kept | apply State.xferPhase_kept
    | apply okept_next | intro x | split

theorem execStateFrame_kept {cq : List Instr} {s : State} (h : Kept cq s) (h : TwinHdr) (number : Nat) (cycle : Word)
    (words : List Word) : OKept cq (execStateFrame h number cycle words s) := by
  unfold execStateFrame
  repeat' with_reducible first
    | assumption | apply State.setTwin_kept | apply State.twinRx_kept | apply State.writeBlock_kept | apply State.showBlocks_kept
    | apply State.xferPhase_kept | apply okept_next | intro x | split | dsimp only

theorem State.takeDigestPart_kept {cq : List Instr} {s : State} (h : Kept cq s) (n : Word) (digests : List (BitVec 64)) (k : Nat)
    : Kept cq (s.takeDigestPart n digests k).2 := by
  unfold State.takeDigestPart
  dsimp only
  split
  all_goals split
  all_goals first | exact State.setTwin_kept h _ | split
  all_goals exact State.setTwin_kept h _

theorem execBdigFrame_kept {cq : List Instr} {s : State} (h : Kept cq s) (f : TwinHdr) (n : Word) (x : DigestPart) :
    OKept cq (execBdigFrame f n x s) := by
  unfold execBdigFrame
  refine okept_next (State.twinRx_kept h _ _ _ _ fun s h => ?_)
  dsimp only
  have h1 := State.takeDigestPart_kept h n x.digests x.part
  refine kept_ite (fun _ => h1) fun _ => kept_ite (fun _ => State.catchup_kept h1 _ _) fun _ => State.setTwin_kept h1 _

theorem execXferRetry_kept {cq : List Instr} {s : State} (h : Kept cq s) : OKept cq (execXferRetry s) := by
  unfold execXferRetry
  repeat' with_reducible first | assumption | apply State.setTwin_kept | apply okept_next | split

theorem execXferConvergenceTimeout_kept {cq : List Instr} {s : State} (h : Kept cq s) :
    OKept cq (execXferConvergenceTimeout s) := by
  unfold execXferConvergenceTimeout
  repeat' with_reducible first | assumption | apply State.failXfer_kept | apply okept_next | split

theorem State.swapDone_kept {cq : List Instr} {s : State} (h : Kept cq s) (n : Word) (claim : Nat) :
    Kept cq (s.swapDone n claim) := by
  unfold State.swapDone
  repeat' with_reducible first
    | assumption | apply State.setFld_kept | apply State.endActivation_kept | apply State.setTwin_kept
    | apply State.planRole_kept | split
    | dsimp only

theorem State.statusTakeover_kept {cq : List Instr} {s : State} (h : Kept cq s) (n : Word) (claim st : Nat) :
    Kept cq (s.statusTakeover n claim st) := by
  unfold State.statusTakeover
  repeat' with_reducible first | assumption | apply State.planTakeover_kept | split

theorem execStatusFrame_kept {cq : List Instr} {s : State} (h : Kept cq s) (h : TwinHdr) (n claim : Word) (st tflags : Nat)
    (dig sdig : BitVec 64) : OKept cq (execStatusFrame h n claim st tflags dig sdig s) := by
  unfold execStatusFrame
  repeat' with_reducible first
    | assumption | apply State.setReg_kept | apply State.noteClaim_kept | apply State.endXfer_kept | apply State.setTwin_kept
    | apply State.seeClaim_kept | apply State.failXfer_kept | apply State.twinRx_kept | apply State.takeComparison_kept
    | apply State.swapDone_kept | apply State.statusTakeover_kept | apply okept_next | intro x | split

theorem State.takeImagePart_kept {cq : List Instr} {s : State} (h : Kept cq s) (img : Image) (k : Nat) :
    Kept cq (s.takeImagePart img k) := by
  unfold State.takeImagePart
  repeat' with_reducible first | assumption | apply State.setTwin_kept | (refine kept_ite (fun _ => ?_) (fun _ => ?_))

theorem execImageFrame_kept {cq : List Instr} {s : State} (h : Kept cq s) (h : TwinHdr) (x : ImagePart) :
    OKept cq (execImageFrame h x s) := by
  unfold execImageFrame
  repeat' with_reducible first
    | assumption | (refine fun (s : State) (h : Kept cq s) => ?_) | apply State.twinRx_kept | apply State.takeImagePart_kept
    | apply okept_next | split

theorem execPadFrame_kept {cq : List Instr} {s : State} (h : Kept cq s) (h : TwinHdr) : OKept cq (execPadFrame h s) := by
  unfold execPadFrame
  repeat' with_reducible first | assumption | apply State.twinRx_kept | apply kept_id | apply okept_next

theorem execLinkDownTimeout_kept {cq : List Instr} {s : State} (h : Kept cq s) : OKept cq (execLinkDownTimeout s) := by
  unfold execLinkDownTimeout
  repeat' with_reducible first | assumption | apply State.linkDown_kept | apply okept_next | split

theorem State.nextBlock_kept {cq : List Instr} {s : State} (h : Kept cq s) {b : TwinBody} {t : State}
    (e : s.nextBlock = some (b, t)) : Kept cq t := by
  unfold State.nextBlock at e
  split at e
  · cases e
  · split at e
    · cases e
    · extract_lets w u v at e
      have hu : Kept cq u := State.showBlocks_kept (State.setTwin_kept h _) _
      have hv : Kept cq v := kept_ite (fun _ => State.xferPhase_kept hu _) fun _ => hu
      have ev : v = t := congrArg Prod.snd (Option.some.inj e)
      exact ev ▸ hv

theorem State.stampFrame_kept {cq : List Instr} {s : State} (h : Kept cq s) (b : TwinBody) : Kept cq (s.stampFrame b).2 := by
  unfold State.stampFrame
  repeat' with_reducible first | assumption | apply State.setTwin_kept | split

theorem State.startFrame_kept {cq : List Instr} {s : State} (h : Kept cq s) (b : TwinBody) (k : Nat) :
    Kept cq (s.startFrame b k) := by
  unfold State.startFrame
  repeat' with_reducible first
    | assumption | apply State.podCount_kept | apply State.setTwin_kept | apply State.stampFrame_kept
    | (apply kept_upd; first | assumption | apply State.podCount_kept | apply State.setTwin_kept | apply State.stampFrame_kept)
    | exact cycOk_refl | exact comOk_refl | exact podOk_refl | exact nvOk_refl

theorem execTwinFrameSent_kept {cq : List Instr} {s : State} (h : Kept cq s) : OKept cq (execTwinFrameSent s) := by
  unfold execTwinFrameSent
  refine okept_ite (fun _ => okept_next h) fun _ => ?_
  extract_lets k b rest late
  refine okept_ite (fun _ => ?_) fun _ => ?_
  · exact okept_next (State.startFrame_kept (State.setTwin_kept h _) _ _)
  · split
    · exact okept_next (State.startFrame_kept (State.nextBlock_kept h ‹_›) _ _)
    · exact okept_next (State.startFrame_kept h _ _)

theorem State.again_kept {cq : List Instr} {s : State} (h : Kept cq s) (page : Nat) : Kept cq (s.again page) := by
  unfold State.again
  repeat' with_reducible first | assumption | apply State.setFlag_kept

theorem State.evtClear_kept {cq : List Instr} {s : State} (h : Kept cq s) (page mask hw : Nat) :
    Kept cq (s.evtClear page mask hw) := by
  unfold State.evtClear
  repeat' with_reducible first
    | assumption | apply State.setFld_kept | apply State.withdrawSource_kept | apply State.raiseEvt_kept | apply State.again_kept
    | (apply kept_upd; first
        | assumption | apply State.setFld_kept | apply State.withdrawSource_kept | apply State.raiseEvt_kept
        | apply State.again_kept | (refine foldl_kept ?_ (fun s x h => ?_)) | (refine kept_ite (fun _ => ?_) (fun _ => ?_)))
    | exact cycOk_refl | exact comOk_refl | exact podOk_refl | exact nvOk_refl

theorem State.evtSet_kept {cq : List Instr} {s : State} (h : Kept cq s) (page mask : Nat) : Kept cq (s.evtSet page mask) := by
  unfold State.evtSet
  repeat' with_reducible first | assumption | apply State.raiseEvt_kept | (refine foldl_kept ?_ (fun s x h => ?_)) | split

theorem State.evtEnable_kept {cq : List Instr} {s : State} (h : Kept cq s) (page mask : Nat) :
    Kept cq (s.evtEnable page mask) := by
  unfold State.evtEnable
  repeat' with_reducible first
    | assumption | apply State.setFlag_kept | apply State.ringSource_kept | apply State.withdrawSource_kept
    | (apply kept_upd; first
        | assumption | apply State.setFlag_kept | apply State.ringSource_kept | apply State.withdrawSource_kept
        | (refine foldl_kept ?_ (fun s x h => ?_)) | (refine kept_ite (fun _ => ?_) (fun _ => ?_)))
    | exact cycOk_refl | exact comOk_refl | exact podOk_refl | exact nvOk_refl

theorem State.writeLock_kept {cq : List Instr} {s : State} (h : Kept cq s) (page v : Nat) : Kept cq (s.writeLock page v) := by
  unfold State.writeLock
  repeat' with_reducible first
    | assumption | apply State.setFlag_kept | (apply kept_upd; first | assumption | apply State.setFlag_kept) | exact cycOk_refl
    | exact comOk_refl | exact podOk_refl | exact nvOk_refl

theorem State.statClear_kept {cq : List Instr} {s : State} (h : Kept cq s) (page : Nat) (race : List Field) :
    Kept cq (s.statClear page race) := by
  unfold State.statClear
  repeat' with_reducible first
    | assumption | apply State.setReg_kept | apply State.setIve_kept | apply State.again_kept
    | (apply kept_upd; first
        | assumption | apply State.setReg_kept | apply State.setIve_kept | apply State.again_kept
        | (refine foldl_kept ?_ (fun s x h => ?_)) | (refine kept_ite (fun _ => ?_) (fun _ => ?_)))
    | exact cycOk_refl | exact comOk_refl | exact podOk_refl | exact nvOk_refl

theorem State.irqClaim_kept {cq : List Instr} {s : State} (h : Kept cq s) (c : Nat) : Kept cq (s.irqClaim c) := by
  unfold State.irqClaim
  repeat' with_reducible first
    | assumption | apply State.setReg_kept | apply State.addSat_kept | apply State.irqState_kept | apply State.raiseEvt_kept
    | apply State.podCount_kept | split

theorem State.irqDone_kept {cq : List Instr} {s : State} (h : Kept cq s) (c n : Nat) : Kept cq (s.irqDone c n).1 := by
  unfold State.irqDone
  repeat' with_reducible first
    | assumption | apply State.irqState_kept | apply State.raiseEvt_kept | apply State.errAddr_kept | split | dsimp only

theorem State.doorbell_kept {cq : List Instr} {s : State} (h : Kept cq s) (withdraw : Bool) (n : Nat) :
    Kept cq (s.doorbell withdraw n).1 := by
  unfold State.doorbell
  repeat' with_reducible first
    | assumption | apply State.ringSource_kept | apply State.withdrawSource_kept | apply State.errAddr_kept
    | apply State.withdraw_kept
    | split

theorem State.consume_kept {cq : List Instr} {s : State} (h : Kept cq s) (q : Nat) (seq : Word) :
    Kept cq (s.consume q seq).1 := by
  unfold State.consume
  extract_lets x refuse
  have hr : ∀ c, Kept cq (refuse c).1 := fun c => State.raiseEvt_kept h _ _
  have hf : x.entries.length ≤ (queueShape q).1 := kept_fit h q
  split
  · exact hr _
  · rename_i e rest he
    refine kept_ite_fst (fun _ => hr _) fun _ => kept_ite_fst (fun _ => hr _) fun _ => ?_
    rw [he, List.length_cons] at hf
    extract_lets t gap
    have ht : Kept cq t := State.setQueue_kept h _ _ (by dsimp only; omega)
    refine kept_ite (fun _ => ?_) fun _ => ht
    with_reducible apply kept_upd
    · exact ht
    all_goals exact fun h => h

theorem State.crcGo_kept {cq : List Instr} {s : State} (h : Kept cq s) (e : Nat) : Kept cq (s.crcGo e).1 := by
  unfold State.crcGo
  repeat' with_reducible first
    | assumption | (refine fun (s : State) (h : Kept cq s) => ?_) | apply State.setReg_kept | apply State.setFlag_kept
    | apply State.errAddr_kept | (refine kept_ite (fun _ => ?_) (fun _ => ?_)) | (refine kept_ite_fst (fun _ => ?_) (fun _ => ?_))
    | (intro x; refine kept_mid (q := cq) (x := x) ?_ ?_; subst x; rotate_left; intro hx; rotate_left)
    | (intro x; refine kept_mid (q := cq) (x := x.1) ?_ ?_; subst x; rotate_left; intro hx; rotate_left) | intro x
    | (apply kept_with; first
        | assumption | (refine fun (s : State) (h : Kept cq s) => ?_) | apply State.setReg_kept | apply State.setFlag_kept
        | apply State.errAddr_kept | (refine kept_ite (fun _ => ?_) (fun _ => ?_))
        | (refine kept_ite_fst (fun _ => ?_) (fun _ => ?_)))
    | (apply kept_upd; first
        | assumption | (refine fun (s : State) (h : Kept cq s) => ?_) | apply State.setReg_kept | apply State.setFlag_kept
        | apply State.errAddr_kept | (refine kept_ite (fun _ => ?_) (fun _ => ?_))
        | (refine kept_ite_fst (fun _ => ?_) (fun _ => ?_)))
    | exact cycOk_refl | exact comOk_refl | exact podOk_refl | exact nvOk_refl | lift_lets
    | (refine kept_of_eq (by assumption) ?_) | split
    | dsimp only

theorem State.crcEnd_kept {cq : List Instr} {s : State} (h : Kept cq s) (e : Nat) : Kept cq (s.crcEnd e) := by
  unfold State.crcEnd
  repeat' with_reducible first
    | assumption | apply State.setReg_kept | apply State.setFlag_kept | apply State.raiseEvt_kept
    | (apply kept_upd; first | assumption | apply State.setReg_kept | apply State.setFlag_kept | apply State.raiseEvt_kept)
    | exact cycOk_refl | exact comOk_refl | exact podOk_refl | exact nvOk_refl | split

theorem State.dropBank_kept {cq : List Instr} {s : State} (h : Kept cq s) (b : Nat) : Kept cq (s.dropBank b) := by
  unfold State.dropBank
  extract_lets p x
  have hp : x.canonical p := pea_canonical h p
  refine State.setPea_kept h _ _ ?_
  split
  · exact pea_put hp.1 rfl hp.2.2.1 hp.2.2.2
  · exact pea_put hp.1 hp.2.1 rfl rfl

theorem State.bankWrite_kept {cq : List Instr} {s : State} (h : Kept cq s) (b m : Nat) : Kept cq (s.bankWrite b m).1 := by
  unfold State.bankWrite
  repeat' with_reducible first
    | assumption | apply State.errAddr_kept | apply State.setBank_kept | apply State.dropBank_kept | split

theorem State.calWrite_kept {cq : List Instr} {s : State} (h : Kept cq s) (i : Nat) (v : Word) : Kept cq (s.calWrite i v) := by
  unfold State.calWrite
  repeat' with_reducible first
    | assumption | apply State.setFld_kept | apply State.raiseEvt_kept
    | ((refine nv_put ?_ ?_ ?_ ?_ ?_ ?_) <;> with_unfolding_all (rintro ⟨_, _, _, _, _, _⟩; first
        | assumption | rfl | exact Store.wf_set _ _ _ _ ‹_›))
    | (apply kept_upd; first | assumption | apply State.setFld_kept | apply State.raiseEvt_kept) | exact cycOk_refl
    | exact comOk_refl
    | exact podOk_refl

theorem State.calClear_kept {cq : List Instr} {s : State} (h : Kept cq s) : Kept cq s.calClear := by
  unfold State.calClear
  repeat' with_reducible first
    | assumption | apply State.setReg_kept | apply State.setFld_kept | apply State.raiseEvt_kept
    | ((refine nv_put ?_ ?_ ?_ ?_ ?_ ?_) <;> with_unfolding_all (rintro ⟨_, _, _, _, _, _⟩; first
        | assumption | rfl | exact Store.wf_set _ _ _ _ ‹_›))
    | (apply kept_upd; first
        | assumption | apply State.setReg_kept | apply State.setFld_kept | apply State.raiseEvt_kept
        | (refine foldl_kept ?_ (fun s x h => ?_)))
    | exact cycOk_refl | exact comOk_refl | exact podOk_refl

theorem State.snapshot_kept {cq : List Instr} {s : State} (h : Kept cq s) : Kept cq s.snapshot := by
  unfold State.snapshot
  repeat' with_reducible first
    | assumption | apply State.setReg_kept | apply State.raiseEvt_kept | (refine foldl_kept ?_ (fun s x h => ?_))

theorem State.ctrlWrite_kept {cq : List Instr} {s : State} (h : Kept cq s) (page v : Nat) : Kept cq (s.ctrlWrite page v) := by
  unfold State.ctrlWrite
  repeat' with_reducible first
    | assumption | apply execRotReq_kept | apply execGrprst_kept | apply State.statClear_kept | apply State.calClear_kept
    | apply State.snapshot_kept | apply stateOf_kept
    | (intro x; refine kept_mid (q := cq) (x := x) ?_ ?_; subst x; rotate_left; intro hx; rotate_left) | split

theorem State.afterWrite_kept {cq : List Instr} {s : State} (h : Kept cq s) (a v : Nat) : Kept cq (s.afterWrite a v) := by
  unfold State.afterWrite
  repeat' with_reducible first
    | assumption | apply State.setFld_kept | apply State.irqToRing_kept | apply State.calWrite_kept
    | (refine kept_ite (fun _ => ?_) (fun _ => ?_))
    | (apply kept_upd; first | assumption | apply State.setFld_kept | apply State.irqToRing_kept | apply State.calWrite_kept)
    | exact cycOk_refl | exact comOk_refl | exact podOk_refl | exact nvOk_refl

theorem State.storeFields_kept {cq : List Instr} {s : State} (h : Kept cq s) (a v : Nat) : Kept cq (s.storeFields a v).1 := by
  unfold State.storeFields
  repeat' with_reducible first
    | assumption | apply State.setReg_kept | apply State.errAddr_kept | apply State.ctrlWrite_kept | apply State.afterWrite_kept
    | (intro x; refine kept_mid (q := cq) (x := x) ?_ ?_; subst x; rotate_left; intro hx; rotate_left) | split

theorem State.regWrite_kept {cq : List Instr} {s : State} (h : Kept cq s) (a v : Nat) : Kept cq (s.regWrite a v).1 := by
  unfold State.regWrite
  repeat' with_reducible first
    | assumption | apply State.setReg_kept | apply State.setFld_kept | apply State.errAddr_kept | apply execChfaultClear_kept
    | apply State.evtClear_kept | apply State.evtSet_kept | apply State.evtEnable_kept | apply State.writeLock_kept
    | apply State.irqClaim_kept | apply State.irqDone_kept | apply State.doorbell_kept | apply State.consume_kept
    | apply State.crcGo_kept
    | apply State.bankWrite_kept | apply State.storeFields_kept | apply stateOf_kept
    | (refine kept_ite_fst (fun _ => ?_) (fun _ => ?_))
    | split

theorem State.postFail_kept {cq : List Instr} {s : State} (h : Kept cq s) (w : Writer) (tag : Word) (a cause : Nat) :
    Kept cq (s.postFail w tag a cause) := by
  unfold State.postFail
  repeat' with_reducible first
    | assumption | apply State.setReg_kept | apply State.setFld_kept | apply State.addSat_kept | apply State.offer_kept
    | apply State.raiseEvt_kept | apply State.raiseRecTo_kept | apply State.raiseRec_kept | split

theorem foldl_wf {α β : Type} [DecidableEq α] (d : Nat → α) (k : β → Nat) (v : β → α) (l : List β) (m : Store α)
    (h : Store.wf d m = true) : Store.wf d (l.foldl (fun m x => Store.set d m (k x) (v x)) m) = true := by
  induction l generalizing m with
  | nil => exact h
  | cons x xs ih => exact ih _ (Store.wf_set _ _ _ _ h)

/-- An update of the memory. -/
theorem kept_mem {cq : List Instr} {s : State} (h : Kept cq s) {m : Store Byte} (hm : Store.wf (fun _ => (0 : Byte)) m = true) :
    Kept cq { s with mem := m } := ⟨h.1, { h.2 with mem := hm }⟩

theorem State.coreStore_kept {cq : List Instr} {s : State} (h : Kept cq s) (b a v : Nat) : Kept cq (s.coreStore b a v) := by
  unfold State.coreStore
  exact kept_ite (fun _ => State.raiseEvt_kept h _ _) fun _ => kept_mem h (foldl_wf _ _ _ _ _ h.2.mem)

theorem State.rejectedWrite_kept {cq : List Instr} {s : State} (h : Kept cq s) (c a : Nat) : Kept cq (s.rejectedWrite c a) := by
  unfold State.rejectedWrite
  repeat' with_reducible first | assumption | apply State.raiseRec_kept

theorem State.coreWrite_kept {cq : List Instr} {s : State} (h : Kept cq s) (c a v : Nat) : Kept cq (s.coreWrite c a v) := by
  unfold State.coreWrite
  repeat' with_reducible first
    | assumption | apply State.regWrite_kept | apply State.postFail_kept | apply State.coreStore_kept
    | apply State.rejectedWrite_kept
    | (refine kept_of_eq (by assumption) ?_) | split

theorem State.hostWrite_kept {cq : List Instr} {s : State} (h : Kept cq s) (i a v : Nat) : Kept cq (s.hostWrite i a v).1 := by
  unfold State.hostWrite
  repeat' with_reducible first
    | assumption | apply State.raiseEvt_kept | apply State.errAddr_kept | apply State.regWrite_kept
    | (refine kept_ite_fst (fun _ => ?_) (fun _ => ?_))
    | (intro x; refine kept_mid (q := cq) (x := x.1) ?_ ?_; subst x; rotate_left; intro hx; rotate_left) | split

theorem State.noteClosed_kept {cq : List Instr} {s : State} (h : Kept cq s) (e : CtrlEntry) : Kept cq (s.noteClosed e) := by
  unfold State.noteClosed
  repeat' with_reducible first | assumption | apply State.raiseRec_kept | split

theorem State.noteLost_kept {cq : List Instr} {s : State} (h : Kept cq s) (before after : CtrlEntry) :
    Kept cq (s.noteLost before after) := by
  unfold State.noteLost
  repeat' with_reducible first | assumption | apply State.podCount_kept | apply State.raiseRec_kept | split

theorem State.loseFrame_kept {cq : List Instr} {s : State} (h : Kept cq s) (r : Nat) : Kept cq (s.loseFrame r) := by
  unfold State.loseFrame
  repeat' with_reducible first
    | assumption | apply State.setPort_kept | apply State.raiseEvt_kept | apply State.podCount_kept | apply State.noSuspect_kept
    | split

theorem State.takeRequests_kept {cq : List Instr} {s : State} (h : Kept cq s) : Kept cq s.takeRequests.2 := by
  unfold State.takeRequests
  repeat' with_reducible first
    | assumption | ((refine cyc_put ?_); with_unfolding_all (intro h0; first | exact h0 | omega)) | (apply kept_upd; assumption)
    | exact comOk_refl | exact podOk_refl | exact nvOk_refl

theorem State.closeLast_kept {cq : List Instr} {s : State} (h : Kept cq s) : Kept cq s.closeLast := by
  unfold State.closeLast
  repeat' with_reducible first
    | assumption | apply State.journalImage_kept | apply State.mirror_kept | apply State.noteLost_kept
    | apply State.takeRequests_kept
    | ((refine cyc_put ?_); with_unfolding_all (intro h0; first | exact h0 | omega))
    | (apply kept_with; first
        | assumption | apply State.journalImage_kept | apply State.mirror_kept | apply State.noteLost_kept
        | apply State.takeRequests_kept | (refine foldl_kept ?_ (fun s x h => ?_))
        | (refine kept_ite (fun _ => ?_) (fun _ => ?_)))
    | (apply kept_upd; first
        | assumption | apply State.journalImage_kept | apply State.mirror_kept | apply State.noteLost_kept
        | apply State.takeRequests_kept | (refine foldl_kept ?_ (fun s x h => ?_))
        | (refine kept_ite (fun _ => ?_) (fun _ => ?_)))
    | exact comOk_refl | exact podOk_refl | exact nvOk_refl | split

theorem State.showImgRc_kept {cq : List Instr} {s : State} (h : Kept cq s) : Kept cq s.showImgRc := by
  unfold State.showImgRc
  repeat' with_reducible first | assumption | apply State.setReg_kept | (refine foldl_kept ?_ (fun s x h => ?_))

theorem State.iveTakesImage_kept {cq : List Instr} {s : State} (h : Kept cq s) : Kept cq s.iveTakesImage := by
  unfold State.iveTakesImage
  repeat' with_reducible first | assumption | apply State.setIve_kept | apply State.showHold_kept

theorem State.runOn_kept {cq : List Instr} {s : State} (h : Kept cq s) (img : Image) : Kept cq (s.runOn img) := by
  unfold State.runOn
  repeat' with_reducible first
    | assumption | apply State.deliverImage_kept | ((refine cyc_put ?_); with_unfolding_all (intro h0; first | exact h0 | omega))
    | (apply kept_upd; first | assumption | apply State.deliverImage_kept) | exact comOk_refl | exact podOk_refl | exact nvOk_refl

theorem State.agedBank_le {cq : List Instr} {s : State} (h : Kept cq s) : s.agedBank.getD s.cyc.bank ≤ 1 := by
  have hb : s.cyc.bank ≤ 1 := kept_cyc h
  unfold State.agedBank
  split
  · exact hb
  · split
    · exact Nat.sub_le _ _
    · exact hb

theorem State.runOnPrevious_kept {cq : List Instr} {s : State} (h : Kept cq s) (cause : Nat) :
    Kept cq (s.runOnPrevious cause) := by
  unfold State.runOnPrevious
  extract_lets s1 old img back bank s2
  have h1 : Kept cq s1 := State.podCount_kept (State.raiseRec_kept h _ _ _ _) _ _
  have hb : bank.getD s1.cyc.bank ≤ 1 := State.agedBank_le h1
  have h2 : Kept cq s2 ∧ (bank.getD s2.cyc.bank ≤ 1) := by
    unfold s2
    clear_value bank
    cases bank with
    | none => exact ⟨h1, hb⟩
    | some b => exact ⟨State.deliverImage_kept h1 _ _, hb⟩
  with_reducible apply kept_upd
  · exact h2.1
  · exact cyc_put fun _ => h2.2
  · exact comOk_refl
  · exact podOk_refl
  · exact nvOk_refl

theorem State.imageBad_kept {cq : List Instr} {s : State} (h : Kept cq s) (p : PeaId) : Kept cq (s.imageBad p) := by
  unfold State.imageBad
  repeat' with_reducible first | assumption | apply State.raiseEvt_kept | apply State.podCount_kept | split

theorem State.takeCycleImage_kept {cq : List Instr} {s : State} (h : Kept cq s) (late : Bool) (bad : List PeaId) :
    Kept cq (s.takeCycleImage late bad).1 := by
  unfold State.takeCycleImage
  extract_lets s1 c s2 mine clear
  have h1 : Kept cq s1 := State.showImgRc_kept h
  have h2 : Kept cq s2 := foldl_kept h1 fun s p h => State.imageBad_kept h _
  have hc : ∀ s, Kept cq s → Kept cq (clear s) := by
    intro s h
    with_reducible apply kept_upd
    · exact h
    · exact cyc_put fun h0 => h0
    · exact comOk_refl
    · exact podOk_refl
    · exact nvOk_refl
  split
  · refine hc _ (State.podCount_kept (State.runOn_kept ?_ _) _ _)
    exact kept_ite (fun _ => h2) fun _ => foldl_kept h2 fun s r h => State.journalImage_kept h _ _
  · exact hc _ (State.runOnPrevious_kept h2 _)

theorem execImageClose_kept {cq : List Instr} {s : State} (h : Kept cq s) : OKept cq (execImageClose s) := by
  unfold execImageClose
  repeat' with_reducible first
    | assumption | apply State.noteClosed_kept | apply State.loseFrame_kept | apply State.closeLast_kept | apply okept_next
    | ((refine cyc_put ?_); with_unfolding_all (intro h0; first | exact h0 | omega))
    | (apply kept_with; first
        | assumption | apply State.noteClosed_kept | apply State.loseFrame_kept | apply State.closeLast_kept
        | (refine foldl_kept ?_ (fun s x h => ?_)))
    | (apply kept_upd; first
        | assumption | apply State.noteClosed_kept | apply State.loseFrame_kept | apply State.closeLast_kept
        | (refine foldl_kept ?_ (fun s x h => ?_)))
    | exact comOk_refl | exact podOk_refl | exact nvOk_refl | split

theorem State.byCore_kept {cq : List Instr} {s : State} (h : Kept cq s) (f : State → State) (h_f : ∀ s, Kept cq s → Kept cq (f s))
    : OKept cq (s.byCore f) := by
  unfold State.byCore
  repeat' with_reducible first | assumption | apply h_f | apply okept_next | split

theorem State.countOutcome_kept {cq : List Instr} {s : State} (h : Kept cq s) (i : Nat) (tag : Word) (a cause : Nat) :
    Kept cq (s.countOutcome i tag a cause) := by
  unfold State.countOutcome
  repeat' with_reducible first | assumption | apply State.setSession_kept | split | dsimp only

theorem State.finishPosted_kept {cq : List Instr} {s : State} (h : Kept cq s) (i : Nat) (w : PostedWrite) (a cause : Nat) :
    Kept cq (s.finishPosted i w a cause) := by
  unfold State.finishPosted
  repeat' with_reducible first | assumption | apply State.postFail_kept | apply State.countOutcome_kept | split

theorem State.postWords_kept {cq : List Instr} {s : State} (h : Kept cq s) (i a : Nat) (l : List Word) :
    Kept cq (s.postWords i a l).1 := by
  induction l generalizing s a with
  | nil => exact h
  | cons v vs ih =>
    unfold State.postWords
    have h1 := State.hostWrite_kept h i a v.toNat
    generalize s.hostWrite i a v.toNat = z at h1 ⊢
    obtain ⟨s1, cause⟩ := z
    have h2 := ih h1 (a + 4)
    dsimp only
    generalize s1.postWords i (a + 4) vs = z at h2 ⊢
    obtain ⟨s2, a', c'⟩ := z
    exact kept_ite_fst (fun _ => h2) fun _ => h2

theorem State.decidePosted_kept {cq : List Instr} {s : State} (h : Kept cq s) (conflict : Bool) :
    Kept cq (s.decidePosted conflict) := by
  unfold State.decidePosted
  repeat' with_reducible first
    | assumption | apply State.postFail_kept | apply State.finishPosted_kept | apply State.postWords_kept
    | (apply kept_upd; first
        | assumption | apply State.postFail_kept | apply State.finishPosted_kept | apply State.postWords_kept)
    | exact cycOk_refl | exact comOk_refl | exact podOk_refl | exact nvOk_refl | split

theorem State.pathReset_kept {cq : List Instr} {s : State} (h : Kept cq s) : Kept cq s.pathReset := by
  unfold State.pathReset
  repeat' with_reducible first
    | assumption | apply State.raiseEvt_kept | apply State.postFail_kept | apply State.finishPosted_kept
    | ((refine cyc_put ?_); with_unfolding_all (intro h0; first | exact h0 | omega))
    | (apply kept_upd; first
        | assumption | apply State.raiseEvt_kept | apply State.postFail_kept | apply State.finishPosted_kept
        | (refine foldl_kept ?_ (fun s x h => ?_)))
    | exact comOk_refl | exact podOk_refl | exact nvOk_refl | split

theorem State.stageFault_kept {cq : List Instr} {s : State} (h : Kept cq s) (site : FaultSite) (stall : Bool) :
    Kept cq (s.stageFault site stall) := by
  unfold State.stageFault
  repeat' with_reducible first
    | assumption | apply State.setFld_kept | apply State.raiseEvt_kept | apply State.kernelFault_kept | apply State.iveFault_kept
    | apply State.peaFault_kept | apply State.pathReset_kept | split

theorem State.closeSample_kept {cq : List Instr} {s : State} (h : Kept cq s) (n : Nat) : Kept cq (s.closeSample n) := by
  unfold State.closeSample
  repeat' with_reducible first
    | assumption | (refine fun (s : State) (h : Kept cq s) => ?_) | apply State.setReg_kept | apply State.setFld_kept
    | apply State.addSat_kept | apply State.raiseEvt_kept | apply State.push_kept | (refine kept_ite (fun _ => ?_) (fun _ => ?_))
    | (intro x; refine kept_mid (q := cq) (x := x) ?_ ?_; subst x; rotate_left; intro hx; rotate_left) | intro x
    | (apply kept_with; first
        | assumption | (refine fun (s : State) (h : Kept cq s) => ?_) | apply State.setReg_kept | apply State.setFld_kept
        | apply State.addSat_kept | apply State.raiseEvt_kept | apply State.push_kept
        | (refine kept_ite (fun _ => ?_) (fun _ => ?_)))
    | (apply kept_upd; first
        | assumption | (refine fun (s : State) (h : Kept cq s) => ?_) | apply State.setReg_kept | apply State.setFld_kept
        | apply State.addSat_kept | apply State.raiseEvt_kept | apply State.push_kept
        | (refine kept_ite (fun _ => ?_) (fun _ => ?_)))
    | exact cycOk_refl | exact comOk_refl | exact podOk_refl | exact nvOk_refl | lift_lets
    | (refine kept_of_eq (by assumption) ?_) | split
    | dsimp only

theorem execRegisterWrite_kept {cq : List Instr} {s : State} (h : Kept cq s) (c : Fin 4) (addr value : Word) :
    OKept cq (execRegisterWrite c addr value s) := by
  unfold execRegisterWrite
  repeat' with_reducible first
    | assumption | (refine fun (s : State) (h : Kept cq s) => ?_) | apply State.coreWrite_kept | apply State.byCore_kept

theorem execEvtClear_kept {cq : List Instr} {s : State} (h : Kept cq s) (_c : Fin 4) (page : Byte) (mask hw : Word) :
    OKept cq (execEvtClear _c page mask hw s) := by
  unfold execEvtClear
  repeat' with_reducible first | assumption | apply State.evtClear_kept | apply okept_next

theorem execEvtenWrite_kept {cq : List Instr} {s : State} (h : Kept cq s) (c : Fin 4) (page : Byte) (value : Word) :
    OKept cq (execEvtenWrite c page value s) := by
  unfold execEvtenWrite
  repeat' with_reducible first
    | assumption | (refine fun (s : State) (h : Kept cq s) => ?_) | apply State.coreWrite_kept | apply State.byCore_kept

theorem execEvtsetWrite_kept {cq : List Instr} {s : State} (h : Kept cq s) (c : Fin 4) (page : Byte) (value : Word) :
    OKept cq (execEvtsetWrite c page value s) := by
  unfold execEvtsetWrite
  repeat' with_reducible first
    | assumption | (refine fun (s : State) (h : Kept cq s) => ?_) | apply State.coreWrite_kept | apply State.byCore_kept

theorem execStatclr_kept {cq : List Instr} {s : State} (h : Kept cq s) (_c : Fin 4) (page : Byte) (race : List (Nat × Nat × Nat))
    : OKept cq (execStatclr _c page race s) := by
  unfold execStatclr
  repeat' with_reducible first
    | assumption | (refine fun (s : State) (h : Kept cq s) => ?_) | apply State.statClear_kept | apply State.byCore_kept

theorem execPageLock_kept {cq : List Instr} {s : State} (h : Kept cq s) (c : Fin 4) (page : Byte) (value : Word) :
    OKept cq (execPageLock c page value s) := by
  unfold execPageLock
  repeat' with_reducible first
    | assumption | (refine fun (s : State) (h : Kept cq s) => ?_) | apply State.coreWrite_kept | apply State.byCore_kept

theorem execPageLockTimeout_kept {cq : List Instr} {s : State} (h : Kept cq s) (page : Byte) :
    OKept cq (execPageLockTimeout page s) := by
  unfold execPageLockTimeout
  repeat' with_reducible first | assumption | apply State.setFlag_kept | apply okept_next | split

theorem execDoorbellRing_kept {cq : List Instr} {s : State} (h : Kept cq s) (_c : Fin 4) (source : BitVec 10) :
    OKept cq (execDoorbellRing _c source s) := by
  unfold execDoorbellRing
  repeat' with_reducible first
    | assumption | (refine fun (s : State) (h : Kept cq s) => ?_) | apply State.doorbell_kept | apply State.byCore_kept

theorem execDoorbellWithdraw_kept {cq : List Instr} {s : State} (h : Kept cq s) (_c : Fin 4) (source : BitVec 10) :
    OKept cq (execDoorbellWithdraw _c source s) := by
  unfold execDoorbellWithdraw
  repeat' with_reducible first
    | assumption | (refine fun (s : State) (h : Kept cq s) => ?_) | apply State.doorbell_kept | apply State.byCore_kept

theorem execIrqClaim_kept {cq : List Instr} {s : State} (h : Kept cq s) (c : Fin 4) : OKept cq (execIrqClaim c s) := by
  unfold execIrqClaim
  repeat' with_reducible first
    | assumption | (refine fun (s : State) (h : Kept cq s) => ?_) | apply State.irqClaim_kept | apply State.byCore_kept

theorem execIrqDone_kept {cq : List Instr} {s : State} (h : Kept cq s) (c : Fin 4) (source : BitVec 10) :
    OKept cq (execIrqDone c source s) := by
  unfold execIrqDone
  repeat' with_reducible first
    | assumption | (refine fun (s : State) (h : Kept cq s) => ?_) | apply State.irqDone_kept | apply State.byCore_kept

theorem execCrcGo_kept {cq : List Instr} {s : State} (h : Kept cq s) (_c e : Fin 4) : OKept cq (execCrcGo _c e s) := by
  unfold execCrcGo
  repeat' with_reducible first
    | assumption | (refine fun (s : State) (h : Kept cq s) => ?_) | apply State.crcGo_kept | apply State.byCore_kept

theorem execCrcRunEnd_kept {cq : List Instr} {s : State} (h : Kept cq s) (e : Fin 4) : OKept cq (execCrcRunEnd e s) := by
  unfold execCrcRunEnd
  repeat' with_reducible first | assumption | apply State.crcEnd_kept | apply okept_next

theorem execBankModeWrite_kept {cq : List Instr} {s : State} (h : Kept cq s) (_c : Fin 4) (b : Fin 16) (mode : BitVec 2) :
    OKept cq (execBankModeWrite _c b mode s) := by
  unfold execBankModeWrite
  repeat' with_reducible first
    | assumption | (refine fun (s : State) (h : Kept cq s) => ?_) | apply State.bankWrite_kept | apply State.byCore_kept

theorem execCalUserWrite_kept {cq : List Instr} {s : State} (h : Kept cq s) (c : Fin 4) (i : Fin 8) (value : Word) :
    OKept cq (execCalUserWrite c i value s) := by
  unfold execCalUserWrite
  repeat' with_reducible first
    | assumption | (refine fun (s : State) (h : Kept cq s) => ?_) | apply State.coreWrite_kept | apply State.byCore_kept

theorem execCalClear_kept {cq : List Instr} {s : State} (h : Kept cq s) (_c : Fin 4) : OKept cq (execCalClear _c s) := by
  unfold execCalClear
  repeat' with_reducible first | assumption | apply State.calClear_kept | apply State.byCore_kept

theorem execQueConsumeWrite_kept {cq : List Instr} {s : State} (h : Kept cq s) (c : Fin 4) (q : Fin 64) (seq : Word) :
    OKept cq (execQueConsumeWrite c q seq s) := by
  unfold execQueConsumeWrite
  repeat' with_reducible first
    | assumption | (refine fun (s : State) (h : Kept cq s) => ?_) | apply State.coreWrite_kept | apply State.byCore_kept

theorem execSnap_kept {cq : List Instr} {s : State} (h : Kept cq s) (_c : Fin 4) : OKept cq (execSnap _c s) := by
  unfold execSnap
  repeat' with_reducible first | assumption | apply State.snapshot_kept | apply State.byCore_kept

theorem execPeriodicSnapshot_kept {cq : List Instr} {s : State} (h : Kept cq s) : OKept cq (execPeriodicSnapshot s) := by
  unfold execPeriodicSnapshot
  repeat' with_reducible first
    | assumption | apply State.raiseEvt_kept | apply State.push_kept | apply State.snapshot_kept | apply okept_next | intro x
    | (apply kept_upd; first
        | assumption | apply State.raiseEvt_kept | apply State.push_kept | apply State.snapshot_kept
        | (refine foldl_kept ?_ (fun s x h => ?_)))
    | exact cycOk_refl | exact comOk_refl | exact podOk_refl | exact nvOk_refl | split | dsimp only

theorem execSampleClose_kept {cq : List Instr} {s : State} (h : Kept cq s) (p : PeaId) : OKept cq (execSampleClose p s) := by
  unfold execSampleClose
  repeat' with_reducible first | assumption | apply State.closeSample_kept | apply okept_next | split

theorem execPostedWriteOutcome_kept {cq : List Instr} {s : State} (h : Kept cq s) (conflict : Bool) :
    OKept cq (execPostedWriteOutcome conflict s) := by
  unfold execPostedWriteOutcome
  repeat' with_reducible first | assumption | apply State.decidePosted_kept | apply okept_next

theorem execBridgePathReset_kept {cq : List Instr} {s : State} (h : Kept cq s) : OKept cq (execBridgePathReset s) := by
  unfold execBridgePathReset
  repeat' with_reducible first | assumption | apply State.pathReset_kept | apply okept_next

theorem execCodeViolation_kept {cq : List Instr} {s : State} (h : Kept cq s) (site : FaultSite) :
    OKept cq (execCodeViolation site s) := by
  unfold execCodeViolation
  repeat' with_reducible first | assumption | apply State.stageFault_kept | apply okept_next

theorem execStallTimeout_kept {cq : List Instr} {s : State} (h : Kept cq s) (site : FaultSite) :
    OKept cq (execStallTimeout site s) := by
  unfold execStallTimeout
  repeat' with_reducible first | assumption | apply State.stageFault_kept | apply okept_next

theorem execXarm_kept {cq : List Instr} {s : State} (h : Kept cq s) (h : TwinHdr) (x build : Word) :
    OKept cq (execXarm h x build s) := by
  unfold execXarm
  repeat' with_reducible first
    | assumption | apply State.setReg_kept | apply State.twinSend_kept | apply State.setArmed_kept | apply State.twinRx_kept
    | apply okept_next | intro x | split | dsimp only

theorem execXready_kept {cq : List Instr} {s : State} (h : Kept cq s) (h : TwinHdr) (build : Word) :
    OKept cq (execXready h build s) := by
  unfold execXready
  repeat' with_reducible first
    | assumption | apply State.armNow_kept | apply State.twinRx_kept | apply okept_next | intro x | split

theorem execXgo_kept {cq : List Instr} {s : State} (h : Kept cq s) (h : TwinHdr) (x : Word) : OKept cq (execXgo h x s) := by
  unfold execXgo
  repeat' with_reducible first
    | assumption | apply State.setArmed_kept | apply State.twinRx_kept | apply okept_next | intro x | split

theorem execXabort_kept {cq : List Instr} {s : State} (h : Kept cq s) (h : TwinHdr) (x : Word) (code : Nat) :
    OKept cq (execXabort h x code s) := by
  unfold execXabort
  repeat' with_reducible first
    | assumption | apply State.refuseExchange_kept | apply State.setArmed_kept | apply State.twinRx_kept | apply okept_next
    | intro x
    | split

theorem State.swapRefuse_kept {cq : List Instr} {s : State} (h : Kept cq s) (code : Nat) : Kept cq (s.swapRefuse code) := by
  unfold State.swapRefuse
  repeat' with_reducible first | assumption | apply State.setFld_kept | apply State.raiseEvt_kept

theorem State.swapArmAt_kept {cq : List Instr} {s : State} (h : Kept cq s) (session : Nat) (num swap : Word) (activation : Bool) :
    Kept cq (s.swapArmAt session num swap activation) := by
  unfold State.swapArmAt
  repeat' with_reducible first
    | assumption | apply State.setReg_kept | apply State.setFld_kept | apply State.twinSend_kept | apply State.setTwin_kept

theorem State.swapRequest_kept {cq : List Instr} {s : State} (h : Kept cq s) (session : Nat) (num : Word) (time : Nat) :
    Kept cq (s.swapRequest session num time) := by
  unfold State.swapRequest
  repeat' with_reducible first
    | assumption | apply State.setFld_kept | apply State.raiseEvt_kept | apply State.respond_kept | apply State.swapRefuse_kept
    | apply State.swapArmAt_kept | split | dsimp only

theorem State.swapAnswer_kept {cq : List Instr} {s : State} (h : Kept cq s) (code : Nat) : Kept cq (s.swapAnswer code) := by
  unfold State.swapAnswer
  repeat' with_reducible first | assumption | apply State.respond_kept | apply State.setTwin_kept | split

theorem State.swapCancel_kept {cq : List Instr} {s : State} (h : Kept cq s) (session : Nat) (num : Word) :
    Kept cq (s.swapCancel session num) := by
  unfold State.swapCancel
  repeat' with_reducible first
    | assumption | apply State.respond_kept | apply State.twinSend_kept | apply State.setTwin_kept | apply State.swapRefuse_kept
    | apply State.swapAnswer_kept | split

theorem execSwapArm_kept {cq : List Instr} {s : State} (h : Kept cq s) (h : TwinHdr) (cycle : Word) (epoch : Nat) :
    OKept cq (execSwapArm h cycle epoch s) := by
  unfold execSwapArm
  repeat' with_reducible first
    | assumption | apply State.setReg_kept | apply State.setFld_kept | apply State.twinSend_kept | apply State.setTwin_kept
    | apply State.twinRx_kept | apply okept_next | intro x | split

theorem execSwapAck_kept {cq : List Instr} {s : State} (h : Kept cq s) (h : TwinHdr) (cycle : Word) :
    OKept cq (execSwapAck h cycle s) := by
  unfold execSwapAck
  repeat' with_reducible first
    | assumption | apply State.setTwin_kept | apply State.twinRx_kept | apply State.swapAnswer_kept | apply okept_next | intro x
    | split

theorem execSwapGo_kept {cq : List Instr} {s : State} (h : Kept cq s) (h : TwinHdr) (cycle : Word) :
    OKept cq (execSwapGo h cycle s) := by
  unfold execSwapGo
  repeat' with_reducible first
    | assumption | apply State.storeEpoch_kept | apply State.setTwin_kept | apply State.twinRx_kept | apply okept_next | intro x
    | split

theorem execSwapAbort_kept {cq : List Instr} {s : State} (h : Kept cq s) (h : TwinHdr) (cycle : Word) (code : Nat) :
    OKept cq (execSwapAbort h cycle code s) := by
  unfold execSwapAbort
  repeat' with_reducible first
    | assumption | apply State.setTwin_kept | apply State.twinRx_kept | apply State.swapRefuse_kept | apply okept_next | intro x
    | split

theorem execSwapAckTimeout_kept {cq : List Instr} {s : State} (h : Kept cq s) : OKept cq (execSwapAckTimeout s) := by
  unfold execSwapAckTimeout
  repeat' with_reducible first
    | assumption | apply State.twinSend_kept | apply State.endActivation_kept | apply State.swapRefuse_kept
    | apply State.swapAnswer_kept
    | apply okept_next | (intro x; refine kept_mid (q := cq) (x := x) ?_ ?_; subst x; rotate_left; intro hx; rotate_left) | split

theorem State.updReply_kept {cq : List Instr} {s : State} (h : Kept cq s) (u : UpdMsg) (type : Byte) (payload : List Byte) :
    Kept cq (s.updReply u type payload) := by
  unfold State.updReply
  repeat' with_reducible first
    | assumption | (apply kept_upd; assumption) | exact cycOk_refl | exact comOk_refl | exact podOk_refl | exact nvOk_refl

theorem State.updAck_kept {cq : List Instr} {s : State} (h : Kept cq s) (u : UpdMsg) (status step : Nat) :
    Kept cq (s.updAck u status step) := by
  unfold State.updAck
  repeat' with_reducible first | assumption | apply State.updReply_kept

theorem State.updDrop_kept {cq : List Instr} {s : State} (h : Kept cq s) (u : UpdMsg) : Kept cq (s.updDrop u) := by
  unfold State.updDrop
  repeat' with_reducible first
    | assumption | apply State.addSat_kept | apply State.raiseEvt_kept | apply State.podCount_kept | split

theorem State.updTake_kept {cq : List Instr} {s : State} (h : Kept cq s) (u : UpdMsg) (len : Nat) (reboot info : Bool)
    (body : State → State) (h_body : ∀ s, Kept cq s → Kept cq (body s)) : OKept cq (s.updTake u len reboot info body) := by
  unfold State.updTake
  repeat' with_reducible first
    | assumption | (refine fun (s : State) (h : Kept cq s) => ?_) | apply h_body | apply State.reboot_kept
    | apply State.updAck_kept
    | apply State.updDrop_kept | (refine State.setQueue_kept ?_ _ _ ?_) | (refine kept_fit (q := cq) ?_ _)
    | exact emptyQueue_fit _
    | (refine Nat.le_trans (List.length_filter_le _ _) ?_) | apply okept_next | (refine okept_ite (fun _ => ?_) (fun _ => ?_))
    | (refine kept_ite (fun _ => ?_) (fun _ => ?_)) | exact nvOk_refl | (apply nvOk_of (q := cq); assumption)
    | (apply nv_with; first | exact nvOk_refl | (apply nvOk_of (q := cq); assumption))
    | ((refine nv_put ?_ ?_ ?_ ?_ ?_ ?_) <;> with_unfolding_all (rintro ⟨_, _, _, _, _, _⟩; first
        | assumption | rfl | exact Store.wf_set _ _ _ _ ‹_›))
    | exact cycOk_refl | (apply cycOk_of (q := cq); assumption)
    | (apply cyc_with; first | exact cycOk_refl | (apply cycOk_of (q := cq); assumption))
    | ((refine cyc_put ?_); with_unfolding_all (intro h0; first | exact h0 | omega))
    | (intro x; refine kept_mid (q := cq) (x := x) ?_ ?_; subst x; rotate_left; intro hx; rotate_left) | intro x
    | (apply kept_with; first
        | assumption | (refine fun (s : State) (h : Kept cq s) => ?_) | apply h_body | apply State.reboot_kept
        | apply State.updAck_kept | apply State.updDrop_kept | (refine State.setQueue_kept ?_ _ _ ?_)
        | (refine kept_fit (q := cq) ?_ _) | exact emptyQueue_fit _ | (refine Nat.le_trans (List.length_filter_le _ _) ?_)
        | apply okept_next | (refine okept_ite (fun _ => ?_) (fun _ => ?_)) | (refine kept_ite (fun _ => ?_) (fun _ => ?_)))
    | (apply kept_upd; first
        | assumption | (refine fun (s : State) (h : Kept cq s) => ?_) | apply h_body | apply State.reboot_kept
        | apply State.updAck_kept | apply State.updDrop_kept | (refine State.setQueue_kept ?_ _ _ ?_)
        | (refine kept_fit (q := cq) ?_ _) | exact emptyQueue_fit _ | (refine Nat.le_trans (List.length_filter_le _ _) ?_)
        | apply okept_next | (refine okept_ite (fun _ => ?_) (fun _ => ?_)) | (refine kept_ite (fun _ => ?_) (fun _ => ?_)))
    | exact cycOk_refl | exact comOk_refl | exact podOk_refl | exact nvOk_refl | lift_lets
    | (refine kept_of_eq (by assumption) ?_) | split
    | dsimp only

theorem State.dropStaged_kept {cq : List Instr} {s : State} (h : Kept cq s) : Kept cq s.dropStaged := by
  unfold State.dropStaged
  repeat' with_reducible first
    | assumption | apply State.setReg_kept | apply State.setFld_kept | apply State.showXstat_kept
    | (apply kept_upd; first | assumption | apply State.setReg_kept | apply State.setFld_kept | apply State.showXstat_kept)
    | exact cycOk_refl | exact comOk_refl | exact podOk_refl | exact nvOk_refl

theorem State.updBegin_kept {cq : List Instr} {s : State} (h : Kept cq s) (u : UpdMsg) (kind len : Nat) :
    Kept cq (s.updBegin u kind len) := by
  unfold State.updBegin
  repeat' with_reducible first
    | assumption | (refine fun (s : State) (h : Kept cq s) => ?_) | apply State.setReg_kept | apply State.setFld_kept
    | apply State.setSlot_kept | apply State.updAck_kept | apply State.dropStaged_kept
    | (refine kept_ite (fun _ => ?_) (fun _ => ?_))
    | (intro x; refine kept_mid (q := cq) (x := x) ?_ ?_; subst x; rotate_left; intro hx; rotate_left) | intro x
    | (apply kept_with; first
        | assumption | (refine fun (s : State) (h : Kept cq s) => ?_) | apply State.setReg_kept | apply State.setFld_kept
        | apply State.setSlot_kept | apply State.updAck_kept | apply State.dropStaged_kept
        | (refine kept_ite (fun _ => ?_) (fun _ => ?_)))
    | (apply kept_upd; first
        | assumption | (refine fun (s : State) (h : Kept cq s) => ?_) | apply State.setReg_kept | apply State.setFld_kept
        | apply State.setSlot_kept | apply State.updAck_kept | apply State.dropStaged_kept
        | (refine kept_ite (fun _ => ?_) (fun _ => ?_)))
    | exact cycOk_refl | exact comOk_refl | exact podOk_refl | exact nvOk_refl | lift_lets
    | (refine kept_of_eq (by assumption) ?_) | split
    | dsimp only

theorem State.updEnd_kept {cq : List Instr} {s : State} (h : Kept cq s) : Kept cq s.updEnd := by
  unfold State.updEnd
  repeat' with_reducible first
    | assumption | apply State.setFld_kept | (apply kept_upd; first | assumption | apply State.setFld_kept) | exact cycOk_refl
    | exact comOk_refl | exact podOk_refl | exact nvOk_refl

theorem State.inXfer_kept {cq : List Instr} {s : State} (h : Kept cq s) (u : UpdMsg) {body : Transfer → State → State}
    (hb : ∀ t s, Kept cq s → Kept cq (body t s)) : Kept cq (s.inXfer u body) := by
  unfold State.inXfer
  split
  · rename_i t _
    refine kept_ite (fun _ => hb t _ ?_) fun _ => State.updAck_kept h _ _ _
    with_reducible apply kept_with
    exact h
  · exact State.updAck_kept h _ _ _

theorem State.updData_kept {cq : List Instr} {s : State} (h : Kept cq s) (u : UpdMsg) (data : List Byte) (t : Transfer) :
    Kept cq (s.updData u data t) := by
  unfold State.updData
  extract_lets off at_ w s1
  refine kept_ite (fun _ => State.updAck_kept h _ _ _) fun _ => kept_ite (fun _ => State.updAck_kept h _ _ _) fun _ => ?_
  have h1 : Kept cq s1 := by
    unfold s1
    split
    · exact kept_mem h (foldl_wf _ _ _ _ _ h.2.mem)
    · with_reducible apply kept_upd
      · exact h
      all_goals exact fun h => h
  exact State.updAck_kept (State.setReg_kept h1 _ _) _ _ _

theorem State.keyOp_kept {cq : List Instr} {s : State} (h : Kept cq s) (o : KeyOp) : Kept cq (s.keyOp o) := by
  cases o
  all_goals unfold State.keyOp
  all_goals (
    repeat' with_reducible first
      | assumption | (refine fun (s : State) (h : Kept cq s) => ?_) | apply State.closeSess_kept
      | (refine kept_ite (fun _ => ?_) (fun _ => ?_)) | exact nvOk_refl | (apply nvOk_of (q := cq); assumption)
      | (apply nv_with; first | exact nvOk_refl | (apply nvOk_of (q := cq); assumption))
      | ((refine nv_put ?_ ?_ ?_ ?_ ?_ ?_) <;> with_unfolding_all (rintro ⟨_, _, _, _, _, _⟩; first
        | assumption | rfl | exact Store.wf_set _ _ _ _ ‹_›))
      | exact cycOk_refl | (apply cycOk_of (q := cq); assumption)
      | (apply cyc_with; first | exact cycOk_refl | (apply cycOk_of (q := cq); assumption))
      | ((refine cyc_put ?_); with_unfolding_all (intro h0; first | exact h0 | omega))
      | (intro x; refine kept_mid (q := cq) (x := x) ?_ ?_; subst x; rotate_left; intro hx; rotate_left) | intro x
      | (apply kept_with; first
          | assumption | (refine fun (s : State) (h : Kept cq s) => ?_) | apply State.closeSess_kept
          | (refine kept_ite (fun _ => ?_) (fun _ => ?_)))
      | (apply kept_upd; first
          | assumption | (refine fun (s : State) (h : Kept cq s) => ?_) | apply State.closeSess_kept
          | (refine kept_ite (fun _ => ?_) (fun _ => ?_)))
      | exact cycOk_refl | exact comOk_refl | exact podOk_refl | exact nvOk_refl | lift_lets
      | (refine kept_of_eq (by assumption) ?_)
      | split | dsimp only
  )

theorem State.stageProgram_kept {cq : List Instr} {s : State} (h : Kept cq s) (pr : Program) : Kept cq (s.stageProgram pr) := by
  unfold State.stageProgram
  repeat' with_reducible first
    | assumption | apply State.refuseProgram_kept | apply State.showXstat_kept
    | (apply kept_upd; first | assumption | apply State.refuseProgram_kept | apply State.showXstat_kept) | exact cycOk_refl
    | exact comOk_refl | exact podOk_refl | exact nvOk_refl | split

theorem State.sproutActive_kept {cq : List Instr} {s : State} (h : Kept cq s) : Kept cq s.sproutActive := by
  unfold State.sproutActive
  repeat' with_reducible first
    | assumption | apply State.activate_kept | (refine foldl_kept ?_ (fun s x h => ?_)) | split | dsimp only

theorem State.storeImage_kept {cq : List Instr} {s : State} (h : Kept cq s) (t : Transfer) (k : Nat) (c : ImageContent) :
    Kept cq (s.storeImage t k c) := by
  unfold State.storeImage
  repeat' with_reducible first
    | assumption | (refine fun (s : State) (h : Kept cq s) => ?_) | apply State.raiseEvt_kept | apply State.setSlot_kept
    | apply State.stageProgram_kept | apply State.sproutActive_kept | (refine kept_ite (fun _ => ?_) (fun _ => ?_))
    | (intro x; refine kept_mid (q := cq) (x := x) ?_ ?_; subst x; rotate_left; intro hx; rotate_left) | intro x
    | (apply kept_with; first
        | assumption | (refine fun (s : State) (h : Kept cq s) => ?_) | apply State.raiseEvt_kept | apply State.setSlot_kept
        | apply State.stageProgram_kept | apply State.sproutActive_kept | (refine kept_ite (fun _ => ?_) (fun _ => ?_)))
    | (apply kept_upd; first
        | assumption | (refine fun (s : State) (h : Kept cq s) => ?_) | apply State.raiseEvt_kept | apply State.setSlot_kept
        | apply State.stageProgram_kept | apply State.sproutActive_kept | (refine kept_ite (fun _ => ?_) (fun _ => ?_)))
    | exact cycOk_refl | exact comOk_refl | exact podOk_refl | exact nvOk_refl | lift_lets
    | (refine kept_of_eq (by assumption) ?_) | split
    | dsimp only

theorem State.updReject_kept {cq : List Instr} {s : State} (h : Kept cq s) (step status : Nat) :
    Kept cq (s.updReject step status) := by
  unfold State.updReject
  repeat' with_reducible first | assumption | apply State.setReg_kept | apply State.raiseEvt_kept

theorem State.updFinish_kept {cq : List Instr} {s : State} (h : Kept cq s) (u : UpdMsg) (sigOk gtagOk : Bool) (c : ImageContent)
    (t : Transfer) : Kept cq (s.updFinish u sigOk gtagOk c t) := by
  unfold State.updFinish
  repeat' with_reducible first
    | assumption | apply State.raiseEvt_kept | apply State.noteRefusal_kept | apply State.updAck_kept | apply State.updEnd_kept
    | apply State.keyOp_kept | apply State.storeImage_kept | apply State.updReject_kept
    | (intro x; refine kept_mid (q := cq) (x := x) ?_ ?_; subst x; rotate_left; intro hx; rotate_left)
    | (apply kept_upd; first
        | assumption | apply State.raiseEvt_kept | apply State.noteRefusal_kept | apply State.updAck_kept
        | apply State.updEnd_kept | apply State.keyOp_kept | apply State.storeImage_kept | apply State.updReject_kept
        | (refine foldl_kept ?_ (fun s x h => ?_)))
    | exact cycOk_refl | exact comOk_refl | exact podOk_refl | exact nvOk_refl | split

theorem State.schedule_kept {cq : List Instr} {s : State} (h : Kept cq s) (k : Nat) (a : Word) (time session : Nat) (num : Word) :
    Kept cq (s.schedule k a time session num) := by
  unfold State.schedule
  repeat' with_reducible first
    | assumption | (refine fun (s : State) (h : Kept cq s) => ?_) | apply State.setReg_kept | apply State.actPhase_kept
    | (intro x; refine kept_mid (q := cq) (x := x) ?_ ?_; subst x; rotate_left; intro hx; rotate_left) | intro x
    | (apply kept_with; first
        | assumption | (refine fun (s : State) (h : Kept cq s) => ?_) | apply State.setReg_kept | apply State.actPhase_kept)
    | (apply kept_upd; first
        | assumption | (refine fun (s : State) (h : Kept cq s) => ?_) | apply State.setReg_kept | apply State.actPhase_kept)
    | exact cycOk_refl | exact comOk_refl | exact podOk_refl | exact nvOk_refl | lift_lets
    | (refine kept_of_eq (by assumption) ?_) | split
    | dsimp only

theorem State.activateRequest_kept {cq : List Instr} {s : State} (h : Kept cq s) (session : Nat) (num : Word)
    (slot time stamp : Nat) : Kept cq (s.activateRequest session num slot time stamp) := by
  unfold State.activateRequest
  repeat' with_reducible first
    | assumption | apply State.respond_kept | apply State.mirror_kept | apply State.endActivation_kept
    | apply State.schedule_kept | split
    | dsimp only

theorem State.restartFrom_kept {cq : List Instr} {s : State} (h : Kept cq s) (k ph : Nat) : Kept cq (s.restartFrom k ph) := by
  unfold State.restartFrom
  repeat' with_reducible first
    | assumption | apply State.setSlot_kept | apply State.activate_kept | apply State.actPhase_kept
    | apply State.enterShutdown_kept
    | ((refine nv_put ?_ ?_ ?_ ?_ ?_ ?_) <;> with_unfolding_all (rintro ⟨_, _, _, _, _, _⟩; first
        | assumption | rfl | exact Store.wf_set _ _ _ _ ‹_›))
    | (apply kept_upd; first
        | assumption | apply State.setSlot_kept | apply State.activate_kept | apply State.actPhase_kept
        | apply State.enterShutdown_kept | (refine kept_ite (fun _ => ?_) (fun _ => ?_)))
    | exact cycOk_refl | exact comOk_refl | exact podOk_refl

theorem State.activationBoundary_kept {cq : List Instr} {s : State} (h : Kept cq s) : Kept cq s.activationBoundary := by
  unfold State.activationBoundary
  repeat' with_reducible first
    | assumption | (refine fun (s : State) (h : Kept cq s) => ?_) | apply State.restartFrom_kept
    | (refine kept_ite (fun _ => ?_) (fun _ => ?_))
    | (intro x; refine kept_mid (q := cq) (x := x) ?_ ?_; subst x; rotate_left; intro hx; rotate_left) | intro x
    | (apply kept_with; first
        | assumption | (refine fun (s : State) (h : Kept cq s) => ?_) | apply State.restartFrom_kept
        | (refine kept_ite (fun _ => ?_) (fun _ => ?_)))
    | (apply kept_upd; first
        | assumption | (refine fun (s : State) (h : Kept cq s) => ?_) | apply State.restartFrom_kept
        | (refine kept_ite (fun _ => ?_) (fun _ => ?_)))
    | exact cycOk_refl | exact comOk_refl | exact podOk_refl | exact nvOk_refl | lift_lets
    | (refine kept_of_eq (by assumption) ?_) | split
    | dsimp only

theorem execUpdateBegin_kept {cq : List Instr} {s : State} (h : Kept cq s) (u : UpdMsg) (kind : Byte) (length : Word) :
    OKept cq (execUpdateBegin u kind length s) := by
  unfold execUpdateBegin
  repeat' with_reducible first
    | assumption | (refine fun (s : State) (h : Kept cq s) => ?_) | apply State.updTake_kept | apply State.updBegin_kept

theorem execUpdateData_kept {cq : List Instr} {s : State} (h : Kept cq s) (u : UpdMsg) (data : List Byte) :
    OKept cq (execUpdateData u data s) := by
  unfold execUpdateData
  repeat' with_reducible first
    | assumption | (refine fun (s : State) (h : Kept cq s) => ?_) | apply State.updDrop_kept | apply State.updTake_kept
    | apply State.updData_kept | (refine State.inXfer_kept ?_ _ (fun t s h => ?_)) | apply okept_next | split

theorem execUpdateEnd_kept {cq : List Instr} {s : State} (h : Kept cq s) (u : UpdMsg) (sigOk gtagOk : Bool)
    (content : ImageContent) : OKept cq (execUpdateEnd u sigOk gtagOk content s) := by
  unfold execUpdateEnd
  repeat' with_reducible first
    | assumption | (refine fun (s : State) (h : Kept cq s) => ?_) | apply State.updTake_kept | apply State.updFinish_kept
    | (refine State.inXfer_kept ?_ _ (fun t s h => ?_))

theorem execUpdateAbort_kept {cq : List Instr} {s : State} (h : Kept cq s) (u : UpdMsg) : OKept cq (execUpdateAbort u s) := by
  unfold execUpdateAbort
  repeat' with_reducible first
    | assumption | (refine fun (s : State) (h : Kept cq s) => ?_) | apply State.updAck_kept | apply State.updTake_kept
    | apply State.updEnd_kept | (refine State.inXfer_kept ?_ _ (fun t s h => ?_))

theorem execUpdateQuery_kept {cq : List Instr} {s : State} (h : Kept cq s) (u : UpdMsg) : OKept cq (execUpdateQuery u s) := by
  unfold execUpdateQuery
  repeat' with_reducible first
    | assumption | (refine fun (s : State) (h : Kept cq s) => ?_) | apply State.updAck_kept | apply State.updTake_kept
    | (refine State.inXfer_kept ?_ _ (fun t s h => ?_))

theorem execUpdateInfo_kept {cq : List Instr} {s : State} (h : Kept cq s) (u : UpdMsg) : OKept cq (execUpdateInfo u s) := by
  unfold execUpdateInfo
  repeat' with_reducible first
    | assumption | (refine fun (s : State) (h : Kept cq s) => ?_) | apply State.updReply_kept | apply State.updTake_kept

theorem execUpdateReboot_kept {cq : List Instr} {s : State} (h : Kept cq s) (u : UpdMsg) : OKept cq (execUpdateReboot u s) := by
  unfold execUpdateReboot
  repeat' with_reducible first
    | assumption | (refine fun (s : State) (h : Kept cq s) => ?_) | apply State.reboot_kept | apply State.updTake_kept

theorem execUpdateTimeout_kept {cq : List Instr} {s : State} (h : Kept cq s) : OKept cq (execUpdateTimeout s) := by
  unfold execUpdateTimeout
  repeat' with_reducible first | assumption | apply State.updEnd_kept | apply State.updReject_kept | apply okept_next | split

theorem execSched_kept {cq : List Instr} {s : State} (h : Kept cq s) (h : TwinHdr) (cycle : Word) (kind : Nat) :
    OKept cq (execSched h cycle kind s) := by
  unfold execSched
  repeat' with_reducible first
    | assumption | (refine fun (s : State) (h : Kept cq s) => ?_) | apply State.endActivation_kept | apply State.twinRx_kept
    | apply State.schedule_kept | apply okept_next | split

theorem execActivationCycle_kept {cq : List Instr} {s : State} (h : Kept cq s) : OKept cq (execActivationCycle s) := by
  unfold execActivationCycle
  repeat' with_reducible first
    | assumption | (refine fun (s : State) (h : Kept cq s) => ?_) | apply State.actPhase_kept | apply State.restartFrom_kept
    | apply okept_next | (refine okept_ite (fun _ => ?_) (fun _ => ?_)) | (refine kept_ite (fun _ => ?_) (fun _ => ?_))
    | exact cycOk_refl
    | (apply cycOk_of (q := cq); assumption) | (apply cyc_with; first | exact cycOk_refl | (apply cycOk_of (q := cq); assumption))
    | ((refine cyc_put ?_); with_unfolding_all (intro h0; first | exact h0 | omega))
    | (intro x; refine kept_mid (q := cq) (x := x) ?_ ?_; subst x; rotate_left; intro hx; rotate_left) | intro x
    | (apply kept_with; first
        | assumption | (refine fun (s : State) (h : Kept cq s) => ?_) | apply State.actPhase_kept | apply State.restartFrom_kept
        | apply okept_next | (refine okept_ite (fun _ => ?_) (fun _ => ?_)) | (refine kept_ite (fun _ => ?_) (fun _ => ?_)))
    | (apply kept_upd; first
        | assumption | (refine fun (s : State) (h : Kept cq s) => ?_) | apply State.actPhase_kept | apply State.restartFrom_kept
        | apply okept_next | (refine okept_ite (fun _ => ?_) (fun _ => ?_)) | (refine kept_ite (fun _ => ?_) (fun _ => ?_)))
    | exact cycOk_refl | exact comOk_refl | exact podOk_refl | exact nvOk_refl | lift_lets
    | (refine kept_of_eq (by assumption) ?_) | split
    | dsimp only

theorem execActivationSwap_kept {cq : List Instr} {s : State} (h : Kept cq s) : OKept cq (execActivationSwap s) := by
  unfold execActivationSwap
  repeat' with_reducible first
    | assumption | apply State.actPhase_kept | apply State.endActivation_kept | apply State.swapRefuse_kept
    | apply State.swapArmAt_kept
    | apply okept_next
    | (apply kept_upd; first
        | assumption | apply State.actPhase_kept | apply State.endActivation_kept | apply State.swapRefuse_kept
        | apply State.swapArmAt_kept)
    | exact cycOk_refl | exact comOk_refl | exact podOk_refl | exact nvOk_refl | split | dsimp only

theorem execTrialTimeout_kept {cq : List Instr} {s : State} (h : Kept cq s) : OKept cq (execTrialTimeout s) := by
  unfold execTrialTimeout
  repeat' with_reducible first
    | assumption | apply State.endActivation_kept | apply State.reboot_kept | apply okept_next
    | (refine kept_ite (fun _ => ?_) (fun _ => ?_)) | split

end Sys2Proof.Machine
end

