-- ==== Sys2Proof/Laws/KeepsHosts.lean ====
section
/-! SUPPORT. The invariant is kept by hosts, the supply, the commit point and the cycle: one lemma for each definition,
in the order of the model. -/

namespace Sys2Proof.Machine

theorem State.makeReply_kept {cq : List Instr} {s : State} (h : Kept cq s) (o : OhpOut) (key : Option Nat) :
    Kept cq (s.makeReply o key).1 := by
  unfold State.makeReply
  repeat' with_reducible first | assumption | apply State.setSession_kept | split | dsimp only

theorem State.sendOhp_kept {cq : List Instr} {s : State} (h : Kept cq s) (fwd : Bool) (o : OhpOut) :
    Kept cq (s.sendOhp fwd o) := by
  unfold State.sendOhp
  repeat' with_reducible first
    | assumption | apply State.resolve_kept | apply State.twinSend_kept
    | (apply kept_upd; first
        | assumption | apply State.resolve_kept | apply State.twinSend_kept | (refine kept_ite (fun _ => ?_) (fun _ => ?_)))
    | exact cycOk_refl | exact comOk_refl | exact podOk_refl | exact nvOk_refl

theorem State.answer_kept {cq : List Instr} {s : State} (h : Kept cq s) (m : OhpMsg) (type : Byte) (fwd : Bool)
    (code detail : Nat) (payload : List Byte) : Kept cq (s.answer m type fwd code detail payload) := by
  unfold State.answer
  repeat' with_reducible first
    | assumption | apply State.setSession_kept | apply State.makeReply_kept | apply State.sendOhp_kept | split

theorem State.refuseOhp_kept {cq : List Instr} {s : State} (h : Kept cq s) (m : OhpMsg) (type : Byte) (fwd : Bool) (code : Nat) :
    Kept cq (s.refuseOhp m type fwd code) := by
  unfold State.refuseOhp
  repeat' with_reducible first | assumption | apply State.answer_kept

theorem State.dropOhp_kept {cq : List Instr} {s : State} (h : Kept cq s) (port : Fin 2) : Kept cq (s.dropOhp port) := by
  unfold State.dropOhp
  repeat' with_reducible first | assumption | apply State.addSat_kept | apply State.raiseEvt_kept | apply State.podCount_kept

theorem State.noteEnvelope_kept {cq : List Instr} {s : State} (h : Kept cq s) (i code : Nat) (sseq : Word) :
    Kept cq (s.noteEnvelope i code sseq) := by
  unfold State.noteEnvelope
  repeat' with_reducible first | assumption | apply State.raiseRec_kept

theorem State.badMac_kept {cq : List Instr} {s : State} (h : Kept cq s) (m : OhpMsg) : Kept cq (s.badMac m) := by
  unfold State.badMac
  repeat' with_reducible first
    | assumption | apply State.setFld_kept | apply State.addSat_kept | apply State.setSession_kept | apply State.raiseEvt_kept
    | apply State.noteEnvelope_kept | split | dsimp only

theorem State.untimely_kept {cq : List Instr} {s : State} (h : Kept cq s) (m : OhpMsg) : Kept cq (s.untimely m) := by
  unfold State.untimely
  repeat' with_reducible first | assumption | apply State.addSat_kept | apply State.raiseEvt_kept | apply State.noteEnvelope_kept

theorem State.adopt_kept {cq : List Instr} {s : State} (h : Kept cq s) (m : OhpMsg) (type : Byte) (payload : List Byte)
    (bad : Bool) : Kept cq (s.adopt m type payload bad) := by
  unfold State.adopt
  repeat' with_reducible first | assumption | apply State.adoptTime_kept | split | dsimp only

theorem State.receive_kept {cq : List Instr} {s : State} (h : Kept cq s) (m : OhpMsg) (type : Byte) (payload : List Byte)
    (need bad : Bool) (body : State → State) (h_body : ∀ s, Kept cq s → Kept cq (body s)) :
    Kept cq (s.receive m type payload need bad body) := by
  unfold State.receive
  repeat' with_reducible first
    | assumption | apply h_body | apply State.addSat_kept | apply State.podCount_kept | apply State.refuseOhp_kept
    | apply State.dropOhp_kept | apply State.badMac_kept | apply State.untimely_kept | apply State.adopt_kept | split | dsimp only

theorem State.hear_kept {cq : List Instr} {s : State} (h : Kept cq s) (m : OhpMsg) : Kept cq (s.hear m) := by
  unfold State.hear
  repeat' with_reducible first | assumption | apply State.setFld_kept | apply State.setSession_kept | split

theorem State.repeatReply_kept {cq : List Instr} {s : State} (h : Kept cq s) (m : OhpMsg) (fwd : Bool) (o : OhpOut) :
    Kept cq (s.repeatReply m fwd o) := by
  unfold State.repeatReply
  repeat' with_reducible first | assumption | apply State.makeReply_kept | apply State.sendOhp_kept

theorem State.staleSeq_kept {cq : List Instr} {s : State} (h : Kept cq s) (m : OhpMsg) (type : Byte) (fwd : Bool) (code : Nat) :
    Kept cq (s.staleSeq m type fwd code) := by
  unfold State.staleSeq
  repeat' with_reducible first
    | assumption | apply State.addSat_kept | apply State.raiseEvt_kept | apply State.refuseOhp_kept
    | apply State.noteEnvelope_kept | split

theorem State.takeSeq_kept {cq : List Instr} {s : State} (h : Kept cq s) (i : Nat) (sseq : Word) (mac : BitVec 64) :
    Kept cq (s.takeSeq i sseq mac) := by
  unfold State.takeSeq
  repeat' with_reducible first
    | assumption | (refine fun (s : State) (h : Kept cq s) => ?_) | apply State.setReg_kept | apply State.addSat_kept
    | apply State.setSession_kept | apply State.raiseEvt_kept | (refine kept_ite (fun _ => ?_) (fun _ => ?_))
    | (intro x; refine kept_mid (q := cq) (x := x) ?_ ?_; subst x; rotate_left; intro hx; rotate_left) | intro x
    | (apply kept_with; first
        | assumption | (refine fun (s : State) (h : Kept cq s) => ?_) | apply State.setReg_kept | apply State.addSat_kept
        | apply State.setSession_kept | apply State.raiseEvt_kept | (refine kept_ite (fun _ => ?_) (fun _ => ?_)))
    | (apply kept_upd; first
        | assumption | (refine fun (s : State) (h : Kept cq s) => ?_) | apply State.setReg_kept | apply State.addSat_kept
        | apply State.setSession_kept | apply State.raiseEvt_kept | (refine kept_ite (fun _ => ?_) (fun _ => ?_)))
    | exact cycOk_refl | exact comOk_refl | exact podOk_refl | exact nvOk_refl | lift_lets
    | (refine kept_of_eq (by assumption) ?_) | split
    | dsimp only

theorem State.shareTaken_kept {cq : List Instr} {s : State} (h : Kept cq s) (i : Nat) (sseq : Option Word) :
    Kept cq (s.shareTaken i sseq) := by
  unfold State.shareTaken
  repeat' with_reducible first | assumption | apply State.shareSession_kept

theorem State.acceptance_kept {cq : List Instr} {s : State} (h : Kept cq s) (m : OhpMsg) (type : Byte) (fwd : Bool)
    (body : State → State) (h_body : ∀ s, Kept cq s → Kept cq (body s)) : Kept cq (s.acceptance m type fwd body) := by
  unfold State.acceptance
  repeat' with_reducible first
    | assumption | apply h_body | apply State.refuseOhp_kept | apply State.hear_kept | apply State.repeatReply_kept
    | apply State.staleSeq_kept | apply State.takeSeq_kept | apply State.shareTaken_kept | split | dsimp only

theorem State.setFeed_kept {cq : List Instr} {s : State} (h : Kept cq s) (b : Bool) (v : Nat) : Kept cq (s.setFeed b v) := by
  unfold State.setFeed
  repeat' with_reducible first
    | assumption | (refine fun (s : State) (h : Kept cq s) => ?_) | apply State.raiseEvt_kept
    | (refine kept_ite (fun _ => ?_) (fun _ => ?_))
    | (intro x; refine kept_mid (q := cq) (x := x) ?_ ?_; subst x; rotate_left; intro hx; rotate_left) | intro x
    | (apply kept_with; first
        | assumption | (refine fun (s : State) (h : Kept cq s) => ?_) | apply State.raiseEvt_kept
        | (refine kept_ite (fun _ => ?_) (fun _ => ?_)))
    | (apply kept_upd; first
        | assumption | (refine fun (s : State) (h : Kept cq s) => ?_) | apply State.raiseEvt_kept
        | (refine kept_ite (fun _ => ?_) (fun _ => ?_)))
    | exact cycOk_refl | exact comOk_refl | exact podOk_refl | exact nvOk_refl | lift_lets
    | (refine kept_of_eq (by assumption) ?_) | split
    | dsimp only

theorem State.supplyLoss_kept {cq : List Instr} {s : State} (h : Kept cq s) : Kept cq s.supplyLoss := by
  unfold State.supplyLoss
  repeat' with_reducible first
    | assumption | (refine fun (s : State) (h : Kept cq s) => ?_) | apply State.raiseEvt_kept | apply State.stopKernel_kept
    | apply State.cutEnergy_kept | (refine kept_ite (fun _ => ?_) (fun _ => ?_))
    | (intro x; refine kept_mid (q := cq) (x := x) ?_ ?_; subst x; rotate_left; intro hx; rotate_left) | intro x
    | (apply kept_with; first
        | assumption | (refine fun (s : State) (h : Kept cq s) => ?_) | apply State.raiseEvt_kept | apply State.stopKernel_kept
        | apply State.cutEnergy_kept | (refine kept_ite (fun _ => ?_) (fun _ => ?_)))
    | (apply kept_upd; first
        | assumption | (refine fun (s : State) (h : Kept cq s) => ?_) | apply State.raiseEvt_kept | apply State.stopKernel_kept
        | apply State.cutEnergy_kept | (refine kept_ite (fun _ => ?_) (fun _ => ?_)))
    | exact cycOk_refl | exact comOk_refl | exact podOk_refl | exact nvOk_refl | lift_lets
    | (refine kept_of_eq (by assumption) ?_) | split
    | dsimp only

theorem State.failFeed_kept {cq : List Instr} {s : State} (h : Kept cq s) (b : Bool) (v : Nat) : Kept cq (s.failFeed b v) := by
  unfold State.failFeed
  repeat' with_reducible first
    | assumption | (refine fun (s : State) (h : Kept cq s) => ?_) | apply State.setFeed_kept | apply State.supplyLoss_kept
    | (refine kept_ite (fun _ => ?_) (fun _ => ?_))
    | (intro x; refine kept_mid (q := cq) (x := x) ?_ ?_; subst x; rotate_left; intro hx; rotate_left) | intro x | lift_lets
    | (refine kept_of_eq (by assumption) ?_) | split | dsimp only

theorem execFeedFail_kept {cq : List Instr} {s : State} (h : Kept cq s) (feedB : Bool) : OKept cq (execFeedFail feedB s) := by
  unfold execFeedFail
  repeat' with_reducible first | assumption | apply State.failFeed_kept | apply okept_next | split

theorem execFeedOvervoltage_kept {cq : List Instr} {s : State} (h : Kept cq s) (feedB : Bool) :
    OKept cq (execFeedOvervoltage feedB s) := by
  unfold execFeedOvervoltage
  repeat' with_reducible first | assumption | apply State.failFeed_kept | apply okept_next | split

theorem execFeedReturn_kept {cq : List Instr} {s : State} (h : Kept cq s) (feedB : Bool) : OKept cq (execFeedReturn feedB s) := by
  unfold execFeedReturn
  repeat' with_reducible first
    | assumption | (refine fun (s : State) (h : Kept cq s) => ?_) | apply State.setFeed_kept | apply okept_next
    | (refine okept_ite (fun _ => ?_) (fun _ => ?_)) | (refine kept_ite (fun _ => ?_) (fun _ => ?_))
    | (refine kept_of_eq (by assumption) ?_) | split | dsimp only

theorem execFeedReconnect_kept {cq : List Instr} {s : State} (h : Kept cq s) (feedB : Bool) :
    OKept cq (execFeedReconnect feedB s) := by
  unfold execFeedReconnect
  repeat' with_reducible first
    | assumption | (refine fun (s : State) (h : Kept cq s) => ?_) | apply State.setFeed_kept | apply okept_next
    | (refine okept_ite (fun _ => ?_) (fun _ => ?_)) | (refine kept_ite (fun _ => ?_) (fun _ => ?_))
    | (refine kept_of_eq (by assumption) ?_) | split | dsimp only

theorem execHoldupSequenceEnd_kept {cq : List Instr} {s : State} (h : Kept cq s) : OKept cq (execHoldupSequenceEnd s) := by
  unfold execHoldupSequenceEnd
  repeat' with_reducible first
    | assumption | apply State.setFld_kept | apply State.saveFloor_kept | apply State.flushRecorder_kept | apply State.goOff_kept
    | apply okept_next | split

theorem execHoldupCharged_kept {cq : List Instr} {s : State} (h : Kept cq s) : OKept cq (execHoldupCharged s) := by
  unfold execHoldupCharged
  repeat' with_reducible first
    | assumption | (refine fun (s : State) (h : Kept cq s) => ?_) | apply State.setFld_kept | apply okept_next
    | (refine okept_ite (fun _ => ?_) (fun _ => ?_)) | (refine kept_ite (fun _ => ?_) (fun _ => ?_))
    | (refine kept_of_eq (by assumption) ?_) | split | dsimp only

theorem execExternalReset_kept {cq : List Instr} {s : State} (h : Kept cq s) (a b : Bool) :
    OKept cq (execExternalReset a b s) := by
  unfold execExternalReset
  repeat' with_reducible first
    | assumption | (refine fun (s : State) (h : Kept cq s) => ?_) | apply State.raiseEvt_kept | apply State.reboot_kept
    | (apply pea_with; first | assumption | refine pea_canonical (q := cq) ?_ _ | exact pea_reset_canonical _)
    | refine pea_canonical (q := cq) ?_ _ | apply okept_next | (refine okept_ite (fun _ => ?_) (fun _ => ?_))
    | (refine kept_ite (fun _ => ?_) (fun _ => ?_)) | exact nvOk_refl | (apply nvOk_of (q := cq); assumption)
    | (apply nv_with; first | exact nvOk_refl | (apply nvOk_of (q := cq); assumption))
    | ((refine nv_put ?_ ?_ ?_ ?_ ?_ ?_) <;> with_unfolding_all (rintro ⟨_, _, _, _, _, _⟩; first
        | assumption | rfl | exact Store.wf_set _ _ _ _ ‹_›))
    | (intro x; refine kept_mid (q := cq) (x := x) ?_ ?_; subst x; rotate_left; intro hx; rotate_left) | intro x
    | (apply kept_with; first
        | assumption | (refine fun (s : State) (h : Kept cq s) => ?_) | apply State.raiseEvt_kept | apply State.reboot_kept
        | (apply pea_with; first | assumption | refine pea_canonical (q := cq) ?_ _ | exact pea_reset_canonical _)
        | refine pea_canonical (q := cq) ?_ _ | apply okept_next | (refine okept_ite (fun _ => ?_) (fun _ => ?_))
        | (refine kept_ite (fun _ => ?_) (fun _ => ?_)))
    | (apply kept_upd; first
        | assumption | (refine fun (s : State) (h : Kept cq s) => ?_) | apply State.raiseEvt_kept | apply State.reboot_kept
        | (apply pea_with; first | assumption | refine pea_canonical (q := cq) ?_ _ | exact pea_reset_canonical _)
        | refine pea_canonical (q := cq) ?_ _ | apply okept_next | (refine okept_ite (fun _ => ?_) (fun _ => ?_))
        | (refine kept_ite (fun _ => ?_) (fun _ => ?_)))
    | exact cycOk_refl | exact comOk_refl | exact podOk_refl | exact nvOk_refl | lift_lets
    | (refine kept_of_eq (by assumption) ?_) | split
    | dsimp only

theorem execStrapChange_kept {cq : List Instr} {s : State} (h : Kept cq s) (straps : BitVec 4) :
    OKept cq (execStrapChange straps s) := by
  unfold execStrapChange
  repeat' with_reducible first
    | assumption | (refine fun (s : State) (h : Kept cq s) => ?_) | apply State.raiseEvt_kept | apply State.raiseRec_kept
    | apply okept_next | (refine okept_ite (fun _ => ?_) (fun _ => ?_)) | (refine kept_ite (fun _ => ?_) (fun _ => ?_))
    | (intro x; refine kept_mid (q := cq) (x := x) ?_ ?_; subst x; rotate_left; intro hx; rotate_left) | intro x
    | (apply kept_with; first
        | assumption | (refine fun (s : State) (h : Kept cq s) => ?_) | apply State.raiseEvt_kept | apply State.raiseRec_kept
        | apply okept_next | (refine okept_ite (fun _ => ?_) (fun _ => ?_)) | (refine kept_ite (fun _ => ?_) (fun _ => ?_)))
    | (apply kept_upd; first
        | assumption | (refine fun (s : State) (h : Kept cq s) => ?_) | apply State.raiseEvt_kept | apply State.raiseRec_kept
        | apply okept_next | (refine okept_ite (fun _ => ?_) (fun _ => ?_)) | (refine kept_ite (fun _ => ?_) (fun _ => ?_)))
    | exact cycOk_refl | exact comOk_refl | exact podOk_refl | exact nvOk_refl | lift_lets
    | (refine kept_of_eq (by assumption) ?_) | split
    | dsimp only

theorem execTamper_kept {cq : List Instr} {s : State} (h : Kept cq s) (mesh : Bool) : OKept cq (execTamper mesh s) := by
  unfold execTamper
  repeat' with_reducible first
    | assumption | (refine fun (s : State) (h : Kept cq s) => ?_) | apply State.setReg_kept | apply State.raiseEvt_kept
    | apply State.closeAll_kept | apply State.wipe_kept | apply State.tamperRecord_kept
    | (apply pea_with; first | assumption | refine pea_canonical (q := cq) ?_ _ | exact pea_reset_canonical _)
    | refine pea_canonical (q := cq) ?_ _ | apply okept_next | (refine okept_ite (fun _ => ?_) (fun _ => ?_))
    | (refine kept_ite (fun _ => ?_) (fun _ => ?_)) | exact nvOk_refl | (apply nvOk_of (q := cq); assumption)
    | (apply nv_with; first | exact nvOk_refl | (apply nvOk_of (q := cq); assumption))
    | ((refine nv_put ?_ ?_ ?_ ?_ ?_ ?_) <;> with_unfolding_all (rintro ⟨_, _, _, _, _, _⟩; first
        | assumption | rfl | exact Store.wf_set _ _ _ _ ‹_›))
    | (intro x; refine kept_mid (q := cq) (x := x) ?_ ?_; subst x; rotate_left; intro hx; rotate_left) | intro x
    | (apply kept_with; first
        | assumption | (refine fun (s : State) (h : Kept cq s) => ?_) | apply State.setReg_kept | apply State.raiseEvt_kept
        | apply State.closeAll_kept | apply State.wipe_kept | apply State.tamperRecord_kept
        | (apply pea_with; first | assumption | refine pea_canonical (q := cq) ?_ _ | exact pea_reset_canonical _)
        | refine pea_canonical (q := cq) ?_ _ | apply okept_next | (refine okept_ite (fun _ => ?_) (fun _ => ?_))
        | (refine kept_ite (fun _ => ?_) (fun _ => ?_)))
    | (apply kept_upd; first
        | assumption | (refine fun (s : State) (h : Kept cq s) => ?_) | apply State.setReg_kept | apply State.raiseEvt_kept
        | apply State.closeAll_kept | apply State.wipe_kept | apply State.tamperRecord_kept
        | (apply pea_with; first | assumption | refine pea_canonical (q := cq) ?_ _ | exact pea_reset_canonical _)
        | refine pea_canonical (q := cq) ?_ _ | apply okept_next | (refine okept_ite (fun _ => ?_) (fun _ => ?_))
        | (refine kept_ite (fun _ => ?_) (fun _ => ?_)))
    | exact cycOk_refl | exact comOk_refl | exact podOk_refl | exact nvOk_refl | lift_lets
    | (refine kept_of_eq (by assumption) ?_) | split
    | dsimp only

theorem execWakeInput_kept {cq : List Instr} {s : State} (h : Kept cq s) (active : Bool) : OKept cq (execWakeInput active s) := by
  unfold execWakeInput
  repeat' with_reducible first
    | assumption | (refine fun (s : State) (h : Kept cq s) => ?_) | apply State.wakeUp_kept | apply okept_next
    | (refine okept_ite (fun _ => ?_) (fun _ => ?_)) | (refine kept_ite (fun _ => ?_) (fun _ => ?_))
    | (intro x; refine kept_mid (q := cq) (x := x) ?_ ?_; subst x; rotate_left; intro hx; rotate_left) | intro x
    | (apply kept_with; first
        | assumption | (refine fun (s : State) (h : Kept cq s) => ?_) | apply State.wakeUp_kept | apply okept_next
        | (refine okept_ite (fun _ => ?_) (fun _ => ?_)) | (refine kept_ite (fun _ => ?_) (fun _ => ?_)))
    | (apply kept_upd; first
        | assumption | (refine fun (s : State) (h : Kept cq s) => ?_) | apply State.wakeUp_kept | apply okept_next
        | (refine okept_ite (fun _ => ?_) (fun _ => ?_)) | (refine kept_ite (fun _ => ?_) (fun _ => ?_)))
    | exact cycOk_refl | exact comOk_refl | exact podOk_refl | exact nvOk_refl | lift_lets
    | (refine kept_of_eq (by assumption) ?_) | split
    | dsimp only

theorem execTimeAlarm_kept {cq : List Instr} {s : State} (h : Kept cq s) : OKept cq (execTimeAlarm s) := by
  unfold execTimeAlarm
  repeat' with_reducible first
    | assumption | (refine fun (s : State) (h : Kept cq s) => ?_) | apply State.raiseEvt_kept | apply State.wakeUp_kept
    | apply okept_next
    | (refine okept_ite (fun _ => ?_) (fun _ => ?_)) | (refine kept_ite (fun _ => ?_) (fun _ => ?_))
    | (intro x; refine kept_mid (q := cq) (x := x) ?_ ?_; subst x; rotate_left; intro hx; rotate_left) | intro x | lift_lets
    | (refine kept_of_eq (by assumption) ?_) | split | dsimp only

theorem State.leaveSafe_kept {cq : List Instr} {s : State} (h : Kept cq s) (row : Nat) : Kept cq (s.leaveSafe row) := by
  unfold State.leaveSafe
  repeat' with_reducible first
    | assumption | (refine fun (s : State) (h : Kept cq s) => ?_) | apply State.reboot_kept
    | (apply pea_with; first | assumption | refine pea_canonical (q := cq) ?_ _ | exact pea_reset_canonical _)
    | refine pea_canonical (q := cq) ?_ _ | exact nvOk_refl | (apply nvOk_of (q := cq); assumption)
    | (apply nv_with; first | exact nvOk_refl | (apply nvOk_of (q := cq); assumption))
    | ((refine nv_put ?_ ?_ ?_ ?_ ?_ ?_) <;> with_unfolding_all (rintro ⟨_, _, _, _, _, _⟩; first
        | assumption | rfl | exact Store.wf_set _ _ _ _ ‹_›))
    | (intro x; refine kept_mid (q := cq) (x := x) ?_ ?_; subst x; rotate_left; intro hx; rotate_left) | intro x
    | (apply kept_with; first
        | assumption | (refine fun (s : State) (h : Kept cq s) => ?_) | apply State.reboot_kept
        | (apply pea_with; first | assumption | refine pea_canonical (q := cq) ?_ _ | exact pea_reset_canonical _)
        | refine pea_canonical (q := cq) ?_ _)
    | (apply kept_upd; first
        | assumption | (refine fun (s : State) (h : Kept cq s) => ?_) | apply State.reboot_kept
        | (apply pea_with; first | assumption | refine pea_canonical (q := cq) ?_ _ | exact pea_reset_canonical _)
        | refine pea_canonical (q := cq) ?_ _)
    | exact cycOk_refl | exact comOk_refl | exact podOk_refl | exact nvOk_refl | lift_lets
    | (refine kept_of_eq (by assumption) ?_) | split
    | dsimp only

theorem State.sfbRelease_kept {cq : List Instr} {s : State} (h : Kept cq s) (f : Nat) : Kept cq (s.sfbRelease f) := by
  unfold State.sfbRelease
  repeat' with_reducible first
    | assumption | (refine fun (s : State) (h : Kept cq s) => ?_) | apply State.setFld_kept | apply State.raiseEvt_kept
    | apply State.showSfb_kept | (refine kept_ite (fun _ => ?_) (fun _ => ?_))
    | (intro x; refine kept_mid (q := cq) (x := x) ?_ ?_; subst x; rotate_left; intro hx; rotate_left) | intro x
    | (apply kept_with; first
        | assumption | (refine fun (s : State) (h : Kept cq s) => ?_) | apply State.setFld_kept | apply State.raiseEvt_kept
        | apply State.showSfb_kept | (refine kept_ite (fun _ => ?_) (fun _ => ?_)))
    | (apply kept_upd; first
        | assumption | (refine fun (s : State) (h : Kept cq s) => ?_) | apply State.setFld_kept | apply State.raiseEvt_kept
        | apply State.showSfb_kept | (refine kept_ite (fun _ => ?_) (fun _ => ?_)))
    | exact cycOk_refl | exact comOk_refl | exact podOk_refl | exact nvOk_refl | lift_lets
    | (refine kept_of_eq (by assumption) ?_) | split
    | dsimp only

theorem State.lorValid_kept {cq : List Instr} {s : State} (h : Kept cq s) : Kept cq s.lorValid := by
  unfold State.lorValid
  repeat' with_reducible first
    | assumption | apply State.setFld_kept | apply State.addSat_kept | apply State.raiseEvt_kept | apply State.raiseRec_kept
    | apply State.leaveSafe_kept | apply State.sfbRelease_kept
    | (apply nv_with; first | exact nvOk_refl | (apply nvOk_of (q := cq); assumption))
    | (apply kept_upd; first
        | assumption | apply State.setFld_kept | apply State.addSat_kept | apply State.raiseEvt_kept | apply State.raiseRec_kept
        | apply State.leaveSafe_kept | apply State.sfbRelease_kept | (refine foldl_kept ?_ (fun s x h => ?_))
        | (refine kept_ite (fun _ => ?_) (fun _ => ?_)))
    | exact cycOk_refl | exact comOk_refl | exact podOk_refl

theorem State.lorVoid_kept {cq : List Instr} {s : State} (h : Kept cq s) (code : Nat) : Kept cq (s.lorVoid code) := by
  unfold State.lorVoid
  repeat' with_reducible first
    | assumption | (refine fun (s : State) (h : Kept cq s) => ?_) | apply State.setFld_kept | apply State.raiseEvt_kept
    | apply State.raiseRec_kept | (refine kept_ite (fun _ => ?_) (fun _ => ?_))
    | (intro x; refine kept_mid (q := cq) (x := x) ?_ ?_; subst x; rotate_left; intro hx; rotate_left) | intro x
    | (apply kept_with; first
        | assumption | (refine fun (s : State) (h : Kept cq s) => ?_) | apply State.setFld_kept | apply State.raiseEvt_kept
        | apply State.raiseRec_kept | (refine kept_ite (fun _ => ?_) (fun _ => ?_)))
    | (apply kept_upd; first
        | assumption | (refine fun (s : State) (h : Kept cq s) => ?_) | apply State.setFld_kept | apply State.raiseEvt_kept
        | apply State.raiseRec_kept | (refine kept_ite (fun _ => ?_) (fun _ => ?_)))
    | exact cycOk_refl | exact comOk_refl | exact podOk_refl | exact nvOk_refl | lift_lets
    | (refine kept_of_eq (by assumption) ?_) | split
    | dsimp only

theorem State.lorTie_kept {cq : List Instr} {s : State} (h : Kept cq s) (code : Nat) : Kept cq (s.lorTie code) := by
  unfold State.lorTie
  repeat' with_reducible first | assumption | apply State.setFld_kept | split

theorem State.lorActive_kept {cq : List Instr} {s : State} (h : Kept cq s) (l : Lor) (t : Nat) : Kept cq (s.lorActive l t) := by
  unfold State.lorActive
  repeat' with_reducible first
    | assumption | (refine fun (s : State) (h : Kept cq s) => ?_) | apply State.setFld_kept | apply State.lorVoid_kept
    | (refine kept_ite (fun _ => ?_) (fun _ => ?_))
    | (intro x; refine kept_mid (q := cq) (x := x) ?_ ?_; subst x; rotate_left; intro hx; rotate_left) | intro x
    | (apply kept_with; first
        | assumption | (refine fun (s : State) (h : Kept cq s) => ?_) | apply State.setFld_kept | apply State.lorVoid_kept
        | (refine kept_ite (fun _ => ?_) (fun _ => ?_)))
    | (apply kept_upd; first
        | assumption | (refine fun (s : State) (h : Kept cq s) => ?_) | apply State.setFld_kept | apply State.lorVoid_kept
        | (refine kept_ite (fun _ => ?_) (fun _ => ?_)))
    | exact cycOk_refl | exact comOk_refl | exact podOk_refl | exact nvOk_refl | lift_lets
    | (refine kept_of_eq (by assumption) ?_) | split
    | dsimp only

theorem State.lorInactive_kept {cq : List Instr} {s : State} (h : Kept cq s) (l : Lor) (t : Nat) :
    Kept cq (s.lorInactive l t) := by
  unfold State.lorInactive
  repeat' with_reducible first
    | assumption | (refine fun (s : State) (h : Kept cq s) => ?_) | apply State.lorValid_kept | apply State.lorVoid_kept
    | (apply pea_with; first | assumption | refine pea_canonical (q := cq) ?_ _ | exact pea_reset_canonical _)
    | refine pea_canonical (q := cq) ?_ _ | (refine kept_ite (fun _ => ?_) (fun _ => ?_))
    | (intro x; refine kept_mid (q := cq) (x := x) ?_ ?_; subst x; rotate_left; intro hx; rotate_left) | intro x
    | (apply kept_with; first
        | assumption | (refine fun (s : State) (h : Kept cq s) => ?_) | apply State.lorValid_kept | apply State.lorVoid_kept
        | (apply pea_with; first | assumption | refine pea_canonical (q := cq) ?_ _ | exact pea_reset_canonical _)
        | refine pea_canonical (q := cq) ?_ _ | (refine kept_ite (fun _ => ?_) (fun _ => ?_)))
    | (apply kept_upd; first
        | assumption | (refine fun (s : State) (h : Kept cq s) => ?_) | apply State.lorValid_kept | apply State.lorVoid_kept
        | (apply pea_with; first | assumption | refine pea_canonical (q := cq) ?_ _ | exact pea_reset_canonical _)
        | refine pea_canonical (q := cq) ?_ _ | (refine kept_ite (fun _ => ?_) (fun _ => ?_)))
    | exact cycOk_refl | exact comOk_refl | exact podOk_refl | exact nvOk_refl | lift_lets
    | (refine kept_of_eq (by assumption) ?_) | split
    | dsimp only

theorem execLorChannelEdge_kept {cq : List Instr} {s : State} (h : Kept cq s) (chB active : Bool) :
    OKept cq (execLorChannelEdge chB active s) := by
  unfold execLorChannelEdge
  repeat' with_reducible first
    | assumption | (refine fun (s : State) (h : Kept cq s) => ?_) | apply State.lorActive_kept | apply State.lorInactive_kept
    | apply okept_next | (refine okept_ite (fun _ => ?_) (fun _ => ?_)) | (refine kept_ite (fun _ => ?_) (fun _ => ?_))
    | (intro x; refine kept_mid (q := cq) (x := x) ?_ ?_; subst x; rotate_left; intro hx; rotate_left) | intro x
    | (apply kept_with; first
        | assumption | (refine fun (s : State) (h : Kept cq s) => ?_) | apply State.lorActive_kept | apply State.lorInactive_kept
        | apply okept_next | (refine okept_ite (fun _ => ?_) (fun _ => ?_)) | (refine kept_ite (fun _ => ?_) (fun _ => ?_)))
    | (apply kept_upd; first
        | assumption | (refine fun (s : State) (h : Kept cq s) => ?_) | apply State.lorActive_kept | apply State.lorInactive_kept
        | apply okept_next | (refine okept_ite (fun _ => ?_) (fun _ => ?_)) | (refine kept_ite (fun _ => ?_) (fun _ => ?_)))
    | exact cycOk_refl | exact comOk_refl | exact podOk_refl | exact nvOk_refl | lift_lets
    | (refine kept_of_eq (by assumption) ?_) | split
    | dsimp only

theorem execLorStuck_kept {cq : List Instr} {s : State} (h : Kept cq s) (chB : Bool) : OKept cq (execLorStuck chB s) := by
  unfold execLorStuck
  repeat' with_reducible first
    | assumption | apply State.setFld_kept | apply State.lorVoid_kept | apply State.lorTie_kept | apply okept_next | split

theorem execLorPairTimeout_kept {cq : List Instr} {s : State} (h : Kept cq s) : OKept cq (execLorPairTimeout s) := by
  unfold execLorPairTimeout
  repeat' with_reducible first
    | assumption | (refine fun (s : State) (h : Kept cq s) => ?_) | apply State.lorVoid_kept | apply okept_next
    | (refine okept_ite (fun _ => ?_) (fun _ => ?_)) | (refine kept_ite (fun _ => ?_) (fun _ => ?_))
    | (intro x; refine kept_mid (q := cq) (x := x) ?_ ?_; subst x; rotate_left; intro hx; rotate_left) | intro x
    | (apply kept_with; first
        | assumption | (refine fun (s : State) (h : Kept cq s) => ?_) | apply State.lorVoid_kept | apply okept_next
        | (refine okept_ite (fun _ => ?_) (fun _ => ?_)) | (refine kept_ite (fun _ => ?_) (fun _ => ?_)))
    | (apply kept_upd; first
        | assumption | (refine fun (s : State) (h : Kept cq s) => ?_) | apply State.lorVoid_kept | apply okept_next
        | (refine okept_ite (fun _ => ?_) (fun _ => ?_)) | (refine kept_ite (fun _ => ?_) (fun _ => ?_)))
    | exact cycOk_refl | exact comOk_refl | exact podOk_refl | exact nvOk_refl | lift_lets
    | (refine kept_of_eq (by assumption) ?_) | split
    | dsimp only

theorem execSafeAutoRestart_kept {cq : List Instr} {s : State} (h : Kept cq s) : OKept cq (execSafeAutoRestart s) := by
  unfold execSafeAutoRestart
  repeat' with_reducible first
    | assumption | (refine fun (s : State) (h : Kept cq s) => ?_) | apply State.leaveSafe_kept
    | (apply pea_with; first | assumption | refine pea_canonical (q := cq) ?_ _ | exact pea_reset_canonical _)
    | refine pea_canonical (q := cq) ?_ _ | apply okept_next | (refine okept_ite (fun _ => ?_) (fun _ => ?_))
    | (refine kept_ite (fun _ => ?_) (fun _ => ?_)) | (refine kept_of_eq (by assumption) ?_) | split | dsimp only

theorem execTimebaseWindowEnd_kept {cq : List Instr} {s : State} (h : Kept cq s) (count : Nat) :
    OKept cq (execTimebaseWindowEnd count s) := by
  unfold execTimebaseWindowEnd
  repeat' with_reducible first
    | assumption | (refine fun (s : State) (h : Kept cq s) => ?_) | apply State.setFld_kept | apply State.raiseMax_kept
    | apply State.timebaseFault_kept | apply okept_next | (refine okept_ite (fun _ => ?_) (fun _ => ?_))
    | (refine kept_ite (fun _ => ?_) (fun _ => ?_))
    | (intro x; refine kept_mid (q := cq) (x := x) ?_ ?_; subst x; rotate_left; intro hx; rotate_left) | intro x
    | (apply kept_with; first
        | assumption | (refine fun (s : State) (h : Kept cq s) => ?_) | apply State.setFld_kept | apply State.raiseMax_kept
        | apply State.timebaseFault_kept | apply okept_next | (refine okept_ite (fun _ => ?_) (fun _ => ?_))
        | (refine kept_ite (fun _ => ?_) (fun _ => ?_)))
    | (apply kept_upd; first
        | assumption | (refine fun (s : State) (h : Kept cq s) => ?_) | apply State.setFld_kept | apply State.raiseMax_kept
        | apply State.timebaseFault_kept | apply okept_next | (refine okept_ite (fun _ => ?_) (fun _ => ?_))
        | (refine kept_ite (fun _ => ?_) (fun _ => ?_)))
    | exact cycOk_refl | exact comOk_refl | exact podOk_refl | exact nvOk_refl | lift_lets
    | (refine kept_of_eq (by assumption) ?_) | split
    | dsimp only

theorem execOscillatorStopped_kept {cq : List Instr} {s : State} (h : Kept cq s) (_b : Bool) :
    OKept cq (execOscillatorStopped _b s) := by
  unfold execOscillatorStopped
  repeat' with_reducible first
    | assumption | (refine fun (s : State) (h : Kept cq s) => ?_) | apply State.timebaseFault_kept | apply okept_next
    | (refine okept_ite (fun _ => ?_) (fun _ => ?_)) | (refine kept_ite (fun _ => ?_) (fun _ => ?_))
    | (refine kept_of_eq (by assumption) ?_) | split | dsimp only

theorem execCoreRailOutOfWindow_kept {cq : List Instr} {s : State} (h : Kept cq s) (_high : Bool) :
    OKept cq (execCoreRailOutOfWindow _high s) := by
  unfold execCoreRailOutOfWindow
  repeat' with_reducible first
    | assumption | (refine fun (s : State) (h : Kept cq s) => ?_) | apply State.enterSafe_kept | apply okept_next
    | (refine okept_ite (fun _ => ?_) (fun _ => ?_)) | (refine kept_ite (fun _ => ?_) (fun _ => ?_))
    | (refine kept_of_eq (by assumption) ?_) | split | dsimp only

theorem State.noteRefused_kept {cq : List Instr} {s : State} (h : Kept cq s) (i : Nat) (kind : Byte) :
    Kept cq (s.noteRefused i kind) := by
  unfold State.noteRefused
  repeat' with_reducible first
    | assumption | (refine fun (s : State) (h : Kept cq s) => ?_) | apply State.setFld_kept | apply State.raiseEvt_kept
    | apply State.podCount_kept | (refine kept_ite (fun _ => ?_) (fun _ => ?_)) | exact podOk_refl
    | (apply podOk_of (q := cq); assumption)
    | (apply pod_with; first | exact podOk_refl | (apply podOk_of (q := cq); assumption))
    | (apply pod_half; exact podOk_refl; omega)
    | (refine podOk_ite ?_ ?_)
    | ((refine pod_put ?_ ?_ ?_ ?_) <;> with_unfolding_all (rintro ⟨_, _, _, _⟩; first
        | assumption | (apply pea_with; assumption) | omega))
    | (intro x; refine kept_mid (q := cq) (x := x) ?_ ?_; subst x; rotate_left; intro hx; rotate_left) | intro x | lift_lets
    | (refine kept_of_eq (by assumption) ?_) | split | dsimp only

theorem State.orderIt_kept {cq : List Instr} {s : State} (h : Kept cq s) (m : OhpMsg) (r : HostReq) (kind : Byte) (ps : List Word)
    (sepoch : Word) (fwd : Bool) (stamp : Nat) (rc : Word) : Kept cq (s.orderIt m r kind ps sepoch fwd stamp rc).1 := by
  unfold State.orderIt
  repeat' with_reducible first
    | assumption | (refine fun (s : State) (h : Kept cq s) => ?_) | apply State.setReg_kept | apply State.podCount_kept
    | apply State.journalAdd_kept | apply State.mirror_kept | apply State.showHalt_kept
    | (apply pea_with; first | assumption | refine pea_canonical (q := cq) ?_ _ | exact pea_reset_canonical _)
    | refine pea_canonical (q := cq) ?_ _ | exact nvOk_refl | (apply nvOk_of (q := cq); assumption)
    | (apply nv_with; first | exact nvOk_refl | (apply nvOk_of (q := cq); assumption))
    | ((refine nv_put ?_ ?_ ?_ ?_ ?_ ?_) <;> with_unfolding_all (rintro ⟨_, _, _, _, _, _⟩; first
        | assumption | rfl | exact Store.wf_set _ _ _ _ ‹_›))
    | exact podOk_refl | (apply podOk_of (q := cq); assumption)
    | (apply pod_with; first | exact podOk_refl | (apply podOk_of (q := cq); assumption))
    | (apply pod_half; exact podOk_refl; omega)
    | (refine podOk_ite ?_ ?_)
    | ((refine pod_put ?_ ?_ ?_ ?_) <;> with_unfolding_all (rintro ⟨_, _, _, _⟩; first
        | assumption | (apply pea_with; assumption) | omega))
    | exact cycOk_refl | (apply cycOk_of (q := cq); assumption)
    | (apply cyc_with; first | exact cycOk_refl | (apply cycOk_of (q := cq); assumption))
    | ((refine cyc_put ?_); with_unfolding_all (intro h0; first | exact h0 | omega)) | exact comOk_refl
    | (apply comOk_of (q := cq); assumption) | (apply com_with; first | exact comOk_refl | (apply comOk_of (q := cq); assumption))
    | ((refine com_put ?_ ?_) <;> with_unfolding_all (rintro ⟨_, _⟩; first | assumption | exact Store.wf_set _ _ _ _ ‹_›))
    | (intro x; refine kept_mid (q := cq) (x := x) ?_ ?_; subst x; rotate_left; intro hx; rotate_left)
    | (intro x; refine kept_mid (q := cq) (x := x.1) ?_ ?_; subst x; rotate_left; intro hx; rotate_left) | intro x
    | (apply kept_with; first
        | assumption | (refine fun (s : State) (h : Kept cq s) => ?_) | apply State.setReg_kept | apply State.podCount_kept
        | apply State.journalAdd_kept | apply State.mirror_kept | apply State.showHalt_kept
        | (apply pea_with; first | assumption | refine pea_canonical (q := cq) ?_ _ | exact pea_reset_canonical _)
        | refine pea_canonical (q := cq) ?_ _)
    | (apply kept_upd; first
        | assumption | (refine fun (s : State) (h : Kept cq s) => ?_) | apply State.setReg_kept | apply State.podCount_kept
        | apply State.journalAdd_kept | apply State.mirror_kept | apply State.showHalt_kept
        | (apply pea_with; first | assumption | refine pea_canonical (q := cq) ?_ _ | exact pea_reset_canonical _)
        | refine pea_canonical (q := cq) ?_ _)
    | exact cycOk_refl | exact comOk_refl | exact podOk_refl | exact nvOk_refl | lift_lets
    | (refine kept_of_eq (by assumption) ?_) | split
    | dsimp only

theorem State.safeHere_kept {cq : List Instr} {s : State} (h : Kept cq s) : Kept cq s.safeHere := by
  unfold State.safeHere
  repeat' with_reducible first
    | assumption | (refine fun (s : State) (h : Kept cq s) => ?_) | apply State.enterSafe_kept
    | (refine kept_ite (fun _ => ?_) (fun _ => ?_))
    | (intro x; refine kept_mid (q := cq) (x := x) ?_ ?_; subst x; rotate_left; intro hx; rotate_left) | intro x
    | (apply kept_with; first
        | assumption | (refine fun (s : State) (h : Kept cq s) => ?_) | apply State.enterSafe_kept
        | (refine kept_ite (fun _ => ?_) (fun _ => ?_)))
    | (apply kept_upd; first
        | assumption | (refine fun (s : State) (h : Kept cq s) => ?_) | apply State.enterSafe_kept
        | (refine kept_ite (fun _ => ?_) (fun _ => ?_)))
    | exact cycOk_refl | exact comOk_refl | exact podOk_refl | exact nvOk_refl | lift_lets
    | (refine kept_of_eq (by assumption) ?_) | split
    | dsimp only

theorem State.restartHere_kept {cq : List Instr} {s : State} (h : Kept cq s) : Kept cq s.restartHere := by
  unfold State.restartHere
  repeat' with_reducible first
    | assumption | (refine fun (s : State) (h : Kept cq s) => ?_) | apply State.leaveSafe_kept
    | (apply pea_with; first | assumption | refine pea_canonical (q := cq) ?_ _ | exact pea_reset_canonical _)
    | refine pea_canonical (q := cq) ?_ _ | (refine kept_ite (fun _ => ?_) (fun _ => ?_))
    | (refine kept_of_eq (by assumption) ?_) | split
    | dsimp only

theorem State.targetEffect_kept {cq : List Instr} {s : State} (h : Kept cq s) (kind : Byte) : Kept cq (s.targetEffect kind) := by
  unfold State.targetEffect
  repeat' with_reducible first | assumption | apply State.safeHere_kept | apply State.restartHere_kept | split

theorem State.targetRequest_kept {cq : List Instr} {s : State} (h : Kept cq s) (i : Nat) (num : Word) (kind : Byte)
    (serial : Word) : Kept cq (s.targetRequest i num kind serial) := by
  unfold State.targetRequest
  repeat' with_reducible first | assumption | apply State.respond_kept | apply State.targetEffect_kept | split | dsimp only

theorem State.decideRequest_kept {cq : List Instr} {s : State} (h : Kept cq s) (i : Nat) (num : Word) (kind : Byte)
    (ps : List Word) (stamp : Nat) : Kept cq (s.decideRequest i num kind ps stamp) := by
  unfold State.decideRequest
  repeat' with_reducible first
    | assumption | (refine fun (s : State) (h : Kept cq s) => ?_) | apply State.respond_kept | apply State.orderTime_kept
    | apply State.recClear_kept | apply State.exchangeArm_kept | apply State.exchangeCancel_kept | apply State.swapRequest_kept
    | apply State.swapCancel_kept | apply State.activateRequest_kept | apply State.targetRequest_kept
    | (apply pea_with; first | assumption | refine pea_canonical (q := cq) ?_ _ | exact pea_reset_canonical _)
    | refine pea_canonical (q := cq) ?_ _ | (refine kept_ite (fun _ => ?_) (fun _ => ?_))
    | (intro x; refine kept_mid (q := cq) (x := x) ?_ ?_; subst x; rotate_left; intro hx; rotate_left) | intro x
    | (apply kept_with; first
        | assumption | (refine fun (s : State) (h : Kept cq s) => ?_) | apply State.respond_kept | apply State.orderTime_kept
        | apply State.recClear_kept | apply State.exchangeArm_kept | apply State.exchangeCancel_kept
        | apply State.swapRequest_kept | apply State.swapCancel_kept | apply State.activateRequest_kept
        | apply State.targetRequest_kept
        | (apply pea_with; first | assumption | refine pea_canonical (q := cq) ?_ _ | exact pea_reset_canonical _)
        | refine pea_canonical (q := cq) ?_ _ | (refine kept_ite (fun _ => ?_) (fun _ => ?_)))
    | (apply kept_upd; first
        | assumption | (refine fun (s : State) (h : Kept cq s) => ?_) | apply State.respond_kept | apply State.orderTime_kept
        | apply State.recClear_kept | apply State.exchangeArm_kept | apply State.exchangeCancel_kept
        | apply State.swapRequest_kept | apply State.swapCancel_kept | apply State.activateRequest_kept
        | apply State.targetRequest_kept
        | (apply pea_with; first | assumption | refine pea_canonical (q := cq) ?_ _ | exact pea_reset_canonical _)
        | refine pea_canonical (q := cq) ?_ _ | (refine kept_ite (fun _ => ?_) (fun _ => ?_)))
    | exact cycOk_refl | exact comOk_refl | exact podOk_refl | exact nvOk_refl | lift_lets
    | (refine kept_of_eq (by assumption) ?_) | split
    | dsimp only

theorem State.takeRequest_kept {cq : List Instr} {s : State} (h : Kept cq s) (m : OhpMsg) (kind : Byte) (ps : List Word)
    (fwd : Bool) (stamp : Option Nat) : Kept cq (s.takeRequest m kind ps fwd stamp) := by
  unfold State.takeRequest
  repeat' with_reducible first
    | assumption | (refine fun (s : State) (h : Kept cq s) => ?_) | apply State.setSession_kept | apply State.push_kept
    | apply State.answer_kept | apply State.refuseOhp_kept | apply State.noteRefused_kept | apply State.orderIt_kept
    | apply State.decideRequest_kept | (refine State.setQueue_kept ?_ _ _ ?_) | (refine kept_fit (q := cq) ?_ _)
    | exact emptyQueue_fit _
    | (refine Nat.le_trans (List.length_filter_le _ _) ?_) | (refine kept_ite (fun _ => ?_) (fun _ => ?_))
    | (intro x; refine kept_mid (q := cq) (x := x) ?_ ?_; subst x; rotate_left; intro hx; rotate_left) | intro x
    | (apply kept_with; first
        | assumption | (refine fun (s : State) (h : Kept cq s) => ?_) | apply State.setSession_kept | apply State.push_kept
        | apply State.answer_kept | apply State.refuseOhp_kept | apply State.noteRefused_kept | apply State.orderIt_kept
        | apply State.decideRequest_kept | (refine State.setQueue_kept ?_ _ _ ?_) | (refine kept_fit (q := cq) ?_ _)
        | exact emptyQueue_fit _ | (refine Nat.le_trans (List.length_filter_le _ _) ?_)
        | (refine kept_ite (fun _ => ?_) (fun _ => ?_)))
    | (apply kept_upd; first
        | assumption | (refine fun (s : State) (h : Kept cq s) => ?_) | apply State.setSession_kept | apply State.push_kept
        | apply State.answer_kept | apply State.refuseOhp_kept | apply State.noteRefused_kept | apply State.orderIt_kept
        | apply State.decideRequest_kept | (refine State.setQueue_kept ?_ _ _ ?_) | (refine kept_fit (q := cq) ?_ _)
        | exact emptyQueue_fit _ | (refine Nat.le_trans (List.length_filter_le _ _) ?_)
        | (refine kept_ite (fun _ => ?_) (fun _ => ?_)))
    | exact cycOk_refl | exact comOk_refl | exact podOk_refl | exact nvOk_refl | lift_lets
    | (refine kept_of_eq (by assumption) ?_) | split
    | dsimp only

theorem State.takeOpen_kept {cq : List Instr} {s : State} (h : Kept cq s) (m : OhpMsg) (nonce : BitVec 64) (fwd : Bool)
    (stamp : Option Nat) : Kept cq (s.takeOpen m nonce fwd stamp) := by
  unfold State.takeOpen
  repeat' with_reducible first
    | assumption | apply State.setFld_kept | apply State.addSat_kept | apply State.raiseEvt_kept | apply State.journalDone_kept
    | apply State.shareSession_kept | apply State.openSess_kept | apply State.answer_kept | apply State.refuseOhp_kept
    | apply State.noteEnvelope_kept | apply State.hear_kept | apply State.orderIt_kept
    | ((refine nv_put ?_ ?_ ?_ ?_ ?_ ?_) <;> with_unfolding_all (rintro ⟨_, _, _, _, _, _⟩; first
        | assumption | rfl | exact Store.wf_set _ _ _ _ ‹_›))
    | (apply kept_upd; first
        | assumption | apply State.setFld_kept | apply State.addSat_kept | apply State.raiseEvt_kept
        | apply State.journalDone_kept | apply State.shareSession_kept | apply State.openSess_kept | apply State.answer_kept
        | apply State.refuseOhp_kept | apply State.noteEnvelope_kept | apply State.hear_kept | apply State.orderIt_kept
        | (refine kept_ite (fun _ => ?_) (fun _ => ?_)))
    | exact cycOk_refl | exact comOk_refl | exact podOk_refl

theorem State.takeClose_kept {cq : List Instr} {s : State} (h : Kept cq s) (m : OhpMsg) (fwd : Bool) :
    Kept cq (s.takeClose m fwd) := by
  unfold State.takeClose
  repeat' with_reducible first | assumption | apply State.closeSess_kept | apply State.answer_kept

theorem State.orderVital_kept {cq : List Instr} {s : State} (h : Kept cq s) (m : OhpMsg) (r : HostReq) (fwd : Bool)
    (stamp : Option Nat) : Kept cq (s.orderVital m r fwd stamp) := by
  unfold State.orderVital
  repeat' with_reducible first
    | assumption | (refine fun (s : State) (h : Kept cq s) => ?_) | apply State.acceptance_kept | apply State.takeRequest_kept
    | apply State.takeOpen_kept | apply State.takeClose_kept
    | (intro x; refine kept_mid (q := cq) (x := x) ?_ ?_; subst x; rotate_left; intro hx; rotate_left) | intro x
    | (apply kept_with; first
        | assumption | (refine fun (s : State) (h : Kept cq s) => ?_) | apply State.acceptance_kept
        | apply State.takeRequest_kept | apply State.takeOpen_kept | apply State.takeClose_kept)
    | (apply kept_upd; first
        | assumption | (refine fun (s : State) (h : Kept cq s) => ?_) | apply State.acceptance_kept
        | apply State.takeRequest_kept | apply State.takeOpen_kept | apply State.takeClose_kept)
    | exact cycOk_refl | exact comOk_refl | exact podOk_refl | exact nvOk_refl | lift_lets
    | (refine kept_of_eq (by assumption) ?_) | split
    | dsimp only

theorem State.hold_kept {cq : List Instr} {s : State} (h : Kept cq s) (m : OhpMsg) (r : HostReq) (t : Nat) (fwd : Bool) :
    Kept cq (s.hold m r t fwd) := by
  unfold State.hold
  repeat' with_reducible first
    | assumption | (refine fun (s : State) (h : Kept cq s) => ?_) | apply State.setTwin_kept
    | (intro x; refine kept_mid (q := cq) (x := x) ?_ ?_; subst x; rotate_left; intro hx; rotate_left) | intro x
    | (apply kept_with; first | assumption | (refine fun (s : State) (h : Kept cq s) => ?_) | apply State.setTwin_kept)
    | (apply kept_upd; first | assumption | (refine fun (s : State) (h : Kept cq s) => ?_) | apply State.setTwin_kept)
    | exact cycOk_refl
    | exact comOk_refl | exact podOk_refl | exact nvOk_refl | lift_lets | (refine kept_of_eq (by assumption) ?_) | split
    | dsimp only

theorem State.vital_kept {cq : List Instr} {s : State} (h : Kept cq s) (m : OhpMsg) (r : HostReq) : Kept cq (s.vital m r) := by
  unfold State.vital
  repeat' with_reducible first
    | assumption | apply State.raiseEvt_kept | apply State.twinSend_kept | apply State.refuseOhp_kept
    | apply State.orderVital_kept
    | apply State.hold_kept | split

theorem State.vitalMsg_kept {cq : List Instr} {s : State} (h : Kept cq s) (m : OhpMsg) (r : HostReq) :
    OKept cq (s.vitalMsg m r) := by
  unfold State.vitalMsg
  repeat' with_reducible first
    | assumption | (refine fun (s : State) (h : Kept cq s) => ?_) | apply State.receive_kept | apply State.vital_kept
    | apply okept_next

theorem execOpenSession_kept {cq : List Instr} {s : State} (h : Kept cq s) (m : OhpMsg) (nonce : BitVec 64) :
    OKept cq (execOpenSession m nonce s) := by
  unfold execOpenSession
  repeat' with_reducible first | assumption | apply State.vitalMsg_kept

theorem execCloseSession_kept {cq : List Instr} {s : State} (h : Kept cq s) (m : OhpMsg) : OKept cq (execCloseSession m s) := by
  unfold execCloseSession
  repeat' with_reducible first | assumption | apply State.vitalMsg_kept

theorem execProgramRequest_kept {cq : List Instr} {s : State} (h : Kept cq s) (m : OhpMsg) (kind : Byte) (params : List Word) :
    OKept cq (execProgramRequest m kind params s) := by
  unfold execProgramRequest
  repeat' with_reducible first | assumption | apply State.vitalMsg_kept

theorem execForceSet_kept {cq : List Instr} {s : State} (h : Kept cq s) (m : OhpMsg) (sym elem value : Word) :
    OKept cq (execForceSet m sym elem value s) := by
  unfold execForceSet
  repeat' with_reducible first | assumption | apply State.vitalMsg_kept

theorem execForceClear_kept {cq : List Instr} {s : State} (h : Kept cq s) (m : OhpMsg) (sym elem : Word) :
    OKept cq (execForceClear m sym elem s) := by
  unfold execForceClear
  repeat' with_reducible first | assumption | apply State.vitalMsg_kept

theorem execForceClearAll_kept {cq : List Instr} {s : State} (h : Kept cq s) (m : OhpMsg) : OKept cq (execForceClearAll m s) := by
  unfold execForceClearAll
  repeat' with_reducible first | assumption | apply State.vitalMsg_kept

theorem execExchangeArm_kept {cq : List Instr} {s : State} (h : Kept cq s) (m : OhpMsg) (flags : Word) (time : BitVec 64)
    (build : Word) : OKept cq (execExchangeArm m flags time build s) := by
  unfold execExchangeArm
  repeat' with_reducible first | assumption | apply State.vitalMsg_kept

theorem execExchangeCancel_kept {cq : List Instr} {s : State} (h : Kept cq s) (m : OhpMsg) :
    OKept cq (execExchangeCancel m s) := by
  unfold execExchangeCancel
  repeat' with_reducible first | assumption | apply State.vitalMsg_kept

theorem execSwapRequestArm_kept {cq : List Instr} {s : State} (h : Kept cq s) (m : OhpMsg) (time : BitVec 64) :
    OKept cq (execSwapRequestArm m time s) := by
  unfold execSwapRequestArm
  repeat' with_reducible first | assumption | apply State.vitalMsg_kept

theorem execSwapRequestCancel_kept {cq : List Instr} {s : State} (h : Kept cq s) (m : OhpMsg) :
    OKept cq (execSwapRequestCancel m s) := by
  unfold execSwapRequestCancel
  repeat' with_reducible first | assumption | apply State.vitalMsg_kept

theorem execSafeRequest_kept {cq : List Instr} {s : State} (h : Kept cq s) (m : OhpMsg) (target : Word) :
    OKept cq (execSafeRequest m target s) := by
  unfold execSafeRequest
  repeat' with_reducible first | assumption | apply State.vitalMsg_kept

theorem execRestartRequest_kept {cq : List Instr} {s : State} (h : Kept cq s) (m : OhpMsg) (target : Word) :
    OKept cq (execRestartRequest m target s) := by
  unfold execRestartRequest
  repeat' with_reducible first | assumption | apply State.vitalMsg_kept

theorem execRestrictEnd_kept {cq : List Instr} {s : State} (h : Kept cq s) (m : OhpMsg) : OKept cq (execRestrictEnd m s) := by
  unfold execRestrictEnd
  repeat' with_reducible first | assumption | apply State.vitalMsg_kept

theorem execRvwrite_kept {cq : List Instr} {s : State} (h : Kept cq s) (m : OhpMsg) (addr mask value : Word) :
    OKept cq (execRvwrite m addr mask value s) := by
  unfold execRvwrite
  repeat' with_reducible first | assumption | apply State.vitalMsg_kept

theorem execRecClear_kept {cq : List Instr} {s : State} (h : Kept cq s) (m : OhpMsg) : OKept cq (execRecClear m s) := by
  unfold execRecClear
  repeat' with_reducible first | assumption | apply State.vitalMsg_kept

theorem execActivate_kept {cq : List Instr} {s : State} (h : Kept cq s) (m : OhpMsg) (slot : Word) (time : BitVec 64) :
    OKept cq (execActivate m slot time s) := by
  unfold execActivate
  repeat' with_reducible first | assumption | apply State.vitalMsg_kept

theorem execTimeset_kept {cq : List Instr} {s : State} (h : Kept cq s) (m : OhpMsg) (time : BitVec 64) :
    OKept cq (execTimeset m time s) := by
  unfold execTimeset
  repeat' with_reducible first | assumption | apply State.vitalMsg_kept

theorem State.readWords_kept {cq : List Instr} {s : State} (h : Kept cq s) (a j n : Nat) : Kept cq (s.readWords a j n).1 := by
  induction n generalizing s j with
  | zero => exact h
  | succ n ih =>
    unfold State.readWords
    have h1 := State.readAddr_kept h (a + 4 * j)
    generalize s.readAddr (a + 4 * j) = z at h1 ⊢
    obtain ⟨s1, w, bad⟩ := z
    have h2 := ih h1 (j + 1)
    dsimp only
    generalize s1.readWords a (j + 1) n = z at h2 ⊢
    obtain ⟨s2, ws, k⟩ := z
    exact h2

theorem State.regRead_kept {cq : List Instr} {s : State} (h : Kept cq s) (m : OhpMsg) (a n : Nat) :
    Kept cq (s.regRead m a n) := by
  unfold State.regRead
  repeat' with_reducible first
    | assumption | (refine fun (s : State) (h : Kept cq s) => ?_) | apply State.answer_kept | apply State.readWords_kept
    | (apply pea_with; first | assumption | refine pea_canonical (q := cq) ?_ _ | exact pea_reset_canonical _)
    | refine pea_canonical (q := cq) ?_ _
    | (intro x; refine kept_mid (q := cq) (x := x) ?_ ?_; subst x; rotate_left; intro hx; rotate_left) | intro x
    | (apply kept_with; first
        | assumption | (refine fun (s : State) (h : Kept cq s) => ?_) | apply State.answer_kept | apply State.readWords_kept
        | (apply pea_with; first | assumption | refine pea_canonical (q := cq) ?_ _ | exact pea_reset_canonical _)
        | refine pea_canonical (q := cq) ?_ _)
    | (apply kept_upd; first
        | assumption | (refine fun (s : State) (h : Kept cq s) => ?_) | apply State.answer_kept | apply State.readWords_kept
        | (apply pea_with; first | assumption | refine pea_canonical (q := cq) ?_ _ | exact pea_reset_canonical _)
        | refine pea_canonical (q := cq) ?_ _)
    | exact cycOk_refl | exact comOk_refl | exact podOk_refl | exact nvOk_refl | lift_lets
    | (refine kept_of_eq (by assumption) ?_) | split
    | dsimp only

theorem State.post_kept {cq : List Instr} {s : State} (h : Kept cq s) (m : OhpMsg) (addr : Word) (words : Nat) (data : List Word)
    : Kept cq (s.post m addr words data) := by
  unfold State.post
  repeat' with_reducible first
    | assumption | (refine fun (s : State) (h : Kept cq s) => ?_) | apply State.hear_kept
    | (apply pea_with; first | assumption | refine pea_canonical (q := cq) ?_ _ | exact pea_reset_canonical _)
    | refine pea_canonical (q := cq) ?_ _ | (refine kept_ite (fun _ => ?_) (fun _ => ?_)) | exact nvOk_refl
    | (apply nvOk_of (q := cq); assumption) | (apply nv_with; first | exact nvOk_refl | (apply nvOk_of (q := cq); assumption))
    | ((refine nv_put ?_ ?_ ?_ ?_ ?_ ?_) <;> with_unfolding_all (rintro ⟨_, _, _, _, _, _⟩; first
        | assumption | rfl | exact Store.wf_set _ _ _ _ ‹_›))
    | (intro x; refine kept_mid (q := cq) (x := x) ?_ ?_; subst x; rotate_left; intro hx; rotate_left) | intro x
    | (apply kept_with; first
        | assumption | (refine fun (s : State) (h : Kept cq s) => ?_) | apply State.hear_kept
        | (apply pea_with; first | assumption | refine pea_canonical (q := cq) ?_ _ | exact pea_reset_canonical _)
        | refine pea_canonical (q := cq) ?_ _ | (refine kept_ite (fun _ => ?_) (fun _ => ?_)))
    | (apply kept_upd; first
        | assumption | (refine fun (s : State) (h : Kept cq s) => ?_) | apply State.hear_kept
        | (apply pea_with; first | assumption | refine pea_canonical (q := cq) ?_ _ | exact pea_reset_canonical _)
        | refine pea_canonical (q := cq) ?_ _ | (refine kept_ite (fun _ => ?_) (fun _ => ?_)))
    | exact cycOk_refl | exact comOk_refl | exact podOk_refl | exact nvOk_refl | lift_lets
    | (refine kept_of_eq (by assumption) ?_) | split
    | dsimp only

theorem State.holdFence_kept {cq : List Instr} {s : State} (h : Kept cq s) (m : OhpMsg) : Kept cq (s.holdFence m) := by
  unfold State.holdFence
  repeat' with_reducible first | assumption | apply State.setSession_kept

theorem State.answerFence_kept {cq : List Instr} {s : State} (h : Kept cq s) (i : Nat) : Kept cq (s.answerFence i) := by
  unfold State.answerFence
  repeat' with_reducible first
    | assumption | apply State.setSession_kept | apply State.makeReply_kept | apply State.sendOhp_kept
    | apply State.shareTaken_kept
    | split | dsimp only

theorem State.readQueue_kept {cq : List Instr} {s : State} (h : Kept cq s) (m : OhpMsg) (q index : Nat) :
    Kept cq (s.readQueue m q index) := by
  unfold State.readQueue
  repeat' with_reducible first
    | assumption | (refine fun (s : State) (h : Kept cq s) => ?_) | apply State.answer_kept
    | (apply pea_with; first | assumption | refine pea_canonical (q := cq) ?_ _ | exact pea_reset_canonical _)
    | refine pea_canonical (q := cq) ?_ _ | (refine kept_ite (fun _ => ?_) (fun _ => ?_))
    | (intro x; refine kept_mid (q := cq) (x := x) ?_ ?_; subst x; rotate_left; intro hx; rotate_left) | intro x
    | (apply kept_with; first
        | assumption | (refine fun (s : State) (h : Kept cq s) => ?_) | apply State.answer_kept
        | (apply pea_with; first | assumption | refine pea_canonical (q := cq) ?_ _ | exact pea_reset_canonical _)
        | refine pea_canonical (q := cq) ?_ _ | (refine kept_ite (fun _ => ?_) (fun _ => ?_)))
    | (apply kept_upd; first
        | assumption | (refine fun (s : State) (h : Kept cq s) => ?_) | apply State.answer_kept
        | (apply pea_with; first | assumption | refine pea_canonical (q := cq) ?_ _ | exact pea_reset_canonical _)
        | refine pea_canonical (q := cq) ?_ _ | (refine kept_ite (fun _ => ?_) (fun _ => ?_)))
    | exact cycOk_refl | exact comOk_refl | exact podOk_refl | exact nvOk_refl | lift_lets
    | (refine kept_of_eq (by assumption) ?_) | split
    | dsimp only

theorem State.journalRead_kept {cq : List Instr} {s : State} (h : Kept cq s) (spoilt : List Word) (es : List JEntry) :
    Kept cq (s.journalRead spoilt es).1 := by
  unfold State.journalRead
  repeat' with_reducible first | assumption | apply State.addSat_kept | apply State.raiseEvt_kept | split | dsimp only

theorem State.readJournal_kept {cq : List Instr} {s : State} (h : Kept cq s) (m : OhpMsg) (num : Word) (count : Nat)
    (spoilt : List Word) : Kept cq (s.readJournal m num count spoilt) := by
  unfold State.readJournal
  repeat' with_reducible first
    | assumption | apply State.raiseEvt_kept | apply State.answer_kept | apply State.journalRead_kept | split | dsimp only

theorem State.wakeMsg_kept {cq : List Instr} {s : State} (h : Kept cq s) (m : OhpMsg) (serial : Word) :
    Kept cq (s.wakeMsg m serial) := by
  unfold State.wakeMsg
  repeat' with_reducible first
    | assumption | (refine fun (s : State) (h : Kept cq s) => ?_) | apply State.wakeUp_kept | apply State.dropOhp_kept
    | apply State.badMac_kept | apply State.untimely_kept
    | (apply pea_with; first | assumption | refine pea_canonical (q := cq) ?_ _ | exact pea_reset_canonical _)
    | refine pea_canonical (q := cq) ?_ _ | (refine kept_ite (fun _ => ?_) (fun _ => ?_)) | exact nvOk_refl
    | (apply nvOk_of (q := cq); assumption) | (apply nv_with; first | exact nvOk_refl | (apply nvOk_of (q := cq); assumption))
    | ((refine nv_put ?_ ?_ ?_ ?_ ?_ ?_) <;> with_unfolding_all (rintro ⟨_, _, _, _, _, _⟩; first
        | assumption | rfl | exact Store.wf_set _ _ _ _ ‹_›))
    | (intro x; refine kept_mid (q := cq) (x := x) ?_ ?_; subst x; rotate_left; intro hx; rotate_left) | intro x
    | (apply kept_with; first
        | assumption | (refine fun (s : State) (h : Kept cq s) => ?_) | apply State.wakeUp_kept | apply State.dropOhp_kept
        | apply State.badMac_kept | apply State.untimely_kept
        | (apply pea_with; first | assumption | refine pea_canonical (q := cq) ?_ _ | exact pea_reset_canonical _)
        | refine pea_canonical (q := cq) ?_ _ | (refine kept_ite (fun _ => ?_) (fun _ => ?_)))
    | (apply kept_upd; first
        | assumption | (refine fun (s : State) (h : Kept cq s) => ?_) | apply State.wakeUp_kept | apply State.dropOhp_kept
        | apply State.badMac_kept | apply State.untimely_kept
        | (apply pea_with; first | assumption | refine pea_canonical (q := cq) ?_ _ | exact pea_reset_canonical _)
        | refine pea_canonical (q := cq) ?_ _ | (refine kept_ite (fun _ => ?_) (fun _ => ?_)))
    | exact cycOk_refl | exact comOk_refl | exact podOk_refl | exact nvOk_refl | lift_lets
    | (refine kept_of_eq (by assumption) ?_) | split
    | dsimp only

theorem State.purge_kept {cq : List Instr} {s : State} (h : Kept cq s) (i : Nat) : Kept cq (s.purge i) := by
  unfold State.purge
  extract_lets x due r e s1 s2
  refine kept_ite (fun _ => h) fun _ => ?_
  have h1 : Kept cq s1 := State.setQueue_kept h _ _ (Nat.le_trans (List.length_filter_le _ _) (kept_fit h _))
  have h2 : Kept cq s2 := State.setQueue_kept h1 _ _ (Nat.zero_le _)
  exact State.setSession_kept (State.addSat_kept h2 _ _) _ _

theorem State.journalGap_kept {cq : List Instr} {s : State} (h : Kept cq s) (num : Word) : Kept cq (s.journalGap num) := by
  unfold State.journalGap
  repeat' with_reducible first
    | assumption | (refine fun (s : State) (h : Kept cq s) => ?_) | apply State.raiseEvt_kept | apply State.journalAdd_kept
    | (apply pea_with; first | assumption | refine pea_canonical (q := cq) ?_ _ | exact pea_reset_canonical _)
    | refine pea_canonical (q := cq) ?_ _ | (refine kept_ite (fun _ => ?_) (fun _ => ?_)) | exact nvOk_refl
    | (apply nvOk_of (q := cq); assumption) | (apply nv_with; first | exact nvOk_refl | (apply nvOk_of (q := cq); assumption))
    | ((refine nv_put ?_ ?_ ?_ ?_ ?_ ?_) <;> with_unfolding_all (rintro ⟨_, _, _, _, _, _⟩; first
        | assumption | rfl | exact Store.wf_set _ _ _ _ ‹_›))
    | exact cycOk_refl | (apply cycOk_of (q := cq); assumption)
    | (apply cyc_with; first | exact cycOk_refl | (apply cycOk_of (q := cq); assumption))
    | ((refine cyc_put ?_); with_unfolding_all (intro h0; first | exact h0 | omega)) | exact comOk_refl
    | (apply comOk_of (q := cq); assumption) | (apply com_with; first | exact comOk_refl | (apply comOk_of (q := cq); assumption))
    | ((refine com_put ?_ ?_) <;> with_unfolding_all (rintro ⟨_, _⟩; first | assumption | exact Store.wf_set _ _ _ _ ‹_›))
    | (intro x; refine kept_mid (q := cq) (x := x) ?_ ?_; subst x; rotate_left; intro hx; rotate_left) | intro x
    | (apply kept_with; first
        | assumption | (refine fun (s : State) (h : Kept cq s) => ?_) | apply State.raiseEvt_kept | apply State.journalAdd_kept
        | (apply pea_with; first | assumption | refine pea_canonical (q := cq) ?_ _ | exact pea_reset_canonical _)
        | refine pea_canonical (q := cq) ?_ _ | (refine kept_ite (fun _ => ?_) (fun _ => ?_)))
    | (apply kept_upd; first
        | assumption | (refine fun (s : State) (h : Kept cq s) => ?_) | apply State.raiseEvt_kept | apply State.journalAdd_kept
        | (apply pea_with; first | assumption | refine pea_canonical (q := cq) ?_ _ | exact pea_reset_canonical _)
        | refine pea_canonical (q := cq) ?_ _ | (refine kept_ite (fun _ => ?_) (fun _ => ?_)))
    | exact cycOk_refl | exact comOk_refl | exact podOk_refl | exact nvOk_refl | lift_lets
    | (refine kept_of_eq (by assumption) ?_) | split
    | dsimp only

theorem State.targetOrder_kept {cq : List Instr} {s : State} (h : Kept cq s) (num : Word) (kind : Byte) :
    Kept cq (s.targetOrder num kind) := by
  unfold State.targetOrder
  repeat' with_reducible first
    | assumption | apply State.journalDone_kept | apply State.mirror_kept | apply State.targetEffect_kept | split | dsimp only

theorem State.followOrder_kept {cq : List Instr} {s : State} (h : Kept cq s) (o : OrderRec) : Kept cq (s.followOrder o) := by
  unfold State.followOrder
  repeat' with_reducible first
    | assumption | apply State.journalDone_kept | apply State.openSess_kept | apply State.recClear_kept
    | apply State.targetOrder_kept
    | split | dsimp only

theorem State.followSession_kept {cq : List Instr} {s : State} (h : Kept cq s) (n : SessNews) : Kept cq (s.followSession n) := by
  unfold State.followSession
  extract_lets i s1 s2 n0 s3
  have h1 : Kept cq s1 :=
    kept_ite (fun _ => State.closeSess_kept h _) fun _ => kept_ite (fun _ => h) fun _ => State.openSess_kept h _ _
  have h2 : Kept cq s2 := by
    unfold s2
    split
    · exact h1
    · dsimp only
      exact State.setSession_kept (kept_ite (fun _ => h1) fun _ => State.takeSeq_kept h1 _ _ _) _ _
  have h3 : Kept cq s3 := by
    unfold s3
    split
    · exact h2
    · dsimp only
      with_reducible apply kept_upd
      · exact h2
      · exact cycOk_refl
      · exact comOk_refl
      · exact podOk_refl
      · refine nv_put ?_ ?_ ?_ ?_ ?_ ?_
        all_goals intro h0
        all_goals obtain ⟨a1, a2, a3, a4, a5, a6⟩ := h0
        all_goals first | assumption | exact Store.wf_set _ _ _ _ ‹_›
  exact State.setFld_kept (State.setSession_kept h3 _ _) _ _

theorem State.partnerDecided_kept {cq : List Instr} {s : State} (h : Kept cq s) (num : Word) (code : Nat) :
    Kept cq (s.partnerDecided num code) := by
  unfold State.partnerDecided
  repeat' with_reducible first | assumption | apply State.respond_kept | split

theorem State.takeOrder_kept {cq : List Instr} {s : State} (h : Kept cq s) (o : OrderRec) : Kept cq (s.takeOrder o) := by
  unfold State.takeOrder
  repeat' with_reducible first
    | assumption | (refine fun (s : State) (h : Kept cq s) => ?_) | apply State.setReg_kept | apply State.journalAdd_kept
    | apply State.noteClaim_kept | apply State.journalGap_kept | apply State.followOrder_kept
    | (apply pea_with; first | assumption | refine pea_canonical (q := cq) ?_ _ | exact pea_reset_canonical _)
    | refine pea_canonical (q := cq) ?_ _ | exact cycOk_refl | (apply cycOk_of (q := cq); assumption)
    | (apply cyc_with; first | exact cycOk_refl | (apply cycOk_of (q := cq); assumption))
    | ((refine cyc_put ?_); with_unfolding_all (intro h0; first | exact h0 | omega)) | exact comOk_refl
    | (apply comOk_of (q := cq); assumption) | (apply com_with; first | exact comOk_refl | (apply comOk_of (q := cq); assumption))
    | ((refine com_put ?_ ?_) <;> with_unfolding_all (rintro ⟨_, _⟩; first | assumption | exact Store.wf_set _ _ _ _ ‹_›))
    | (intro x; refine kept_mid (q := cq) (x := x) ?_ ?_; subst x; rotate_left; intro hx; rotate_left) | intro x
    | (apply kept_with; first
        | assumption | (refine fun (s : State) (h : Kept cq s) => ?_) | apply State.setReg_kept | apply State.journalAdd_kept
        | apply State.noteClaim_kept | apply State.journalGap_kept | apply State.followOrder_kept
        | (apply pea_with; first | assumption | refine pea_canonical (q := cq) ?_ _ | exact pea_reset_canonical _)
        | refine pea_canonical (q := cq) ?_ _)
    | (apply kept_upd; first
        | assumption | (refine fun (s : State) (h : Kept cq s) => ?_) | apply State.setReg_kept | apply State.journalAdd_kept
        | apply State.noteClaim_kept | apply State.journalGap_kept | apply State.followOrder_kept
        | (apply pea_with; first | assumption | refine pea_canonical (q := cq) ?_ _ | exact pea_reset_canonical _)
        | refine pea_canonical (q := cq) ?_ _)
    | exact cycOk_refl | exact comOk_refl | exact podOk_refl | exact nvOk_refl | lift_lets
    | (refine kept_of_eq (by assumption) ?_) | split
    | dsimp only

theorem State.takeForwarded_kept {cq : List Instr} {s : State} (h : Kept cq s) (m : OhpMsg) (r : HostReq) (stamp : Option Nat) :
    Kept cq (s.takeForwarded m r stamp) := by
  unfold State.takeForwarded
  repeat' with_reducible first
    | assumption | (refine fun (s : State) (h : Kept cq s) => ?_) | apply State.orderVital_kept | apply State.hold_kept
    | (refine kept_ite (fun _ => ?_) (fun _ => ?_))
    | (intro x; refine kept_mid (q := cq) (x := x) ?_ ?_; subst x; rotate_left; intro hx; rotate_left) | intro x | lift_lets
    | (refine kept_of_eq (by assumption) ?_) | split | dsimp only

theorem State.orderHeld_kept {cq : List Instr} {s : State} (h : Kept cq s) : Kept cq s.orderHeld := by
  unfold State.orderHeld
  repeat' with_reducible first
    | assumption | apply State.setTwin_kept | apply State.orderVital_kept
    | (apply kept_upd; first
        | assumption | apply State.setTwin_kept | apply State.orderVital_kept | (refine foldl_kept ?_ (fun s x h => ?_)))
    | exact cycOk_refl | exact comOk_refl | exact podOk_refl | exact nvOk_refl

theorem State.decideSwap_kept {cq : List Instr} {s : State} (h : Kept cq s) : Kept cq s.decideSwap := by
  unfold State.decideSwap
  repeat' with_reducible first
    | assumption | apply State.twinSend_kept | apply State.endActivation_kept | apply State.setTwin_kept
    | apply State.swapRefuse_kept
    | apply State.swapAnswer_kept | apply State.swapCancel_kept | apply State.orderHeld_kept
    | (refine kept_ite (fun _ => ?_) (fun _ => ?_))
    | (apply kept_upd; first
        | assumption | apply State.twinSend_kept | apply State.endActivation_kept | apply State.setTwin_kept
        | apply State.swapRefuse_kept | apply State.swapAnswer_kept | apply State.swapCancel_kept | apply State.orderHeld_kept
        | (refine foldl_kept ?_ (fun s x h => ?_)))
    | exact cycOk_refl | exact comOk_refl | exact podOk_refl | exact nvOk_refl

theorem execKeep_kept {cq : List Instr} {s : State} (h : Kept cq s) (m : OhpMsg) : OKept cq (execKeep m s) := by
  unfold execKeep
  repeat' with_reducible first
    | assumption | (refine fun (s : State) (h : Kept cq s) => ?_) | apply State.answer_kept | apply State.receive_kept
    | apply State.acceptance_kept | apply okept_next

theorem execRegRead_kept {cq : List Instr} {s : State} (h : Kept cq s) (m : OhpMsg) (addr : Word) (words : BitVec 16) :
    OKept cq (execRegRead m addr words s) := by
  unfold execRegRead
  repeat' with_reducible first
    | assumption | (refine fun (s : State) (h : Kept cq s) => ?_) | apply State.receive_kept | apply State.acceptance_kept
    | apply State.regRead_kept
    | (apply pea_with; first | assumption | refine pea_canonical (q := cq) ?_ _ | exact pea_reset_canonical _)
    | refine pea_canonical (q := cq) ?_ _ | apply okept_next | (refine okept_ite (fun _ => ?_) (fun _ => ?_))
    | (intro x; refine kept_mid (q := cq) (x := x) ?_ ?_; subst x; rotate_left; intro hx; rotate_left) | intro x | lift_lets
    | (refine kept_of_eq (by assumption) ?_) | split | dsimp only

theorem execRegWrite_kept {cq : List Instr} {s : State} (h : Kept cq s) (m : OhpMsg) (addr : Word) (words : BitVec 16)
    (data : List Word) : OKept cq (execRegWrite m addr words data s) := by
  unfold execRegWrite
  repeat' with_reducible first
    | assumption | (refine fun (s : State) (h : Kept cq s) => ?_) | apply State.addSat_kept | apply State.podCount_kept
    | apply State.dropOhp_kept | apply State.post_kept | apply okept_next | (refine okept_ite (fun _ => ?_) (fun _ => ?_))
    | (refine kept_ite (fun _ => ?_) (fun _ => ?_)) | exact podOk_refl | (apply podOk_of (q := cq); assumption)
    | (apply pod_with; first | exact podOk_refl | (apply podOk_of (q := cq); assumption))
    | (apply pod_half; exact podOk_refl; omega)
    | (refine podOk_ite ?_ ?_)
    | ((refine pod_put ?_ ?_ ?_ ?_) <;> with_unfolding_all (rintro ⟨_, _, _, _⟩; first
        | assumption | (apply pea_with; assumption) | omega))
    | (refine kept_of_eq (by assumption) ?_) | split | dsimp only

theorem execFence_kept {cq : List Instr} {s : State} (h : Kept cq s) (m : OhpMsg) : OKept cq (execFence m s) := by
  unfold execFence
  repeat' with_reducible first
    | assumption | (refine fun (s : State) (h : Kept cq s) => ?_) | apply State.receive_kept | apply State.acceptance_kept
    | apply State.holdFence_kept | apply okept_next

theorem execFenceAnswer_kept {cq : List Instr} {s : State} (h : Kept cq s) (i : Fin 16) : OKept cq (execFenceAnswer i s) := by
  unfold execFenceAnswer
  repeat' with_reducible first
    | assumption | (refine fun (s : State) (h : Kept cq s) => ?_) | apply State.answerFence_kept | apply okept_next
    | (refine okept_ite (fun _ => ?_) (fun _ => ?_)) | (refine kept_of_eq (by assumption) ?_) | split | dsimp only

theorem execQread_kept {cq : List Instr} {s : State} (h : Kept cq s) (m : OhpMsg) (queue index : Byte) :
    OKept cq (execQread m queue index s) := by
  unfold execQread
  repeat' with_reducible first
    | assumption | (refine fun (s : State) (h : Kept cq s) => ?_) | apply State.receive_kept | apply State.acceptance_kept
    | apply State.readQueue_kept
    | (apply pea_with; first | assumption | refine pea_canonical (q := cq) ?_ _ | exact pea_reset_canonical _)
    | refine pea_canonical (q := cq) ?_ _ | apply okept_next | (refine okept_ite (fun _ => ?_) (fun _ => ?_))
    | (intro x; refine kept_mid (q := cq) (x := x) ?_ ?_; subst x; rotate_left; intro hx; rotate_left) | intro x | lift_lets
    | (refine kept_of_eq (by assumption) ?_) | split | dsimp only

theorem execQconsume_kept {cq : List Instr} {s : State} (h : Kept cq s) (m : OhpMsg) (queue : Byte) (seq : Word) :
    OKept cq (execQconsume m queue seq s) := by
  unfold execQconsume
  repeat' with_reducible first
    | assumption | (refine fun (s : State) (h : Kept cq s) => ?_) | apply State.consume_kept | apply State.answer_kept
    | apply State.receive_kept | apply State.acceptance_kept | apply okept_next | (refine okept_ite (fun _ => ?_) (fun _ => ?_))
    | (intro x; refine kept_mid (q := cq) (x := x) ?_ ?_; subst x; rotate_left; intro hx; rotate_left) | intro x | lift_lets
    | (refine kept_of_eq (by assumption) ?_) | split | dsimp only

theorem execJread_kept {cq : List Instr} {s : State} (h : Kept cq s) (m : OhpMsg) (num : Word) (x : JournalRead) :
    OKept cq (execJread m num x s) := by
  unfold execJread
  repeat' with_reducible first
    | assumption | apply State.receive_kept | apply State.acceptance_kept | apply State.readJournal_kept | apply okept_next
    | intro x

theorem execWake_kept {cq : List Instr} {s : State} (h : Kept cq s) (m : OhpMsg) (serial : Word) :
    OKept cq (execWake m serial s) := by
  unfold execWake
  repeat' with_reducible first
    | assumption | (refine fun (s : State) (h : Kept cq s) => ?_) | apply State.wakeMsg_kept | apply okept_next
    | (refine okept_ite (fun _ => ?_) (fun _ => ?_)) | (refine kept_of_eq (by assumption) ?_) | split | dsimp only

theorem execResultTimeout_kept {cq : List Instr} {s : State} (h : Kept cq s) (num : Word) :
    OKept cq (execResultTimeout num s) := by
  unfold execResultTimeout
  repeat' with_reducible first
    | assumption | (refine fun (s : State) (h : Kept cq s) => ?_) | apply State.respond_kept | apply okept_next
    | (refine okept_ite (fun _ => ?_) (fun _ => ?_)) | (refine kept_ite (fun _ => ?_) (fun _ => ?_))
    | (intro x; refine kept_mid (q := cq) (x := x) ?_ ?_; subst x; rotate_left; intro hx; rotate_left) | intro x
    | (apply kept_with; first
        | assumption | (refine fun (s : State) (h : Kept cq s) => ?_) | apply State.respond_kept | apply okept_next
        | (refine okept_ite (fun _ => ?_) (fun _ => ?_)) | (refine kept_ite (fun _ => ?_) (fun _ => ?_)))
    | (apply kept_upd; first
        | assumption | (refine fun (s : State) (h : Kept cq s) => ?_) | apply State.respond_kept | apply okept_next
        | (refine okept_ite (fun _ => ?_) (fun _ => ?_)) | (refine kept_ite (fun _ => ?_) (fun _ => ?_)))
    | exact cycOk_refl | exact comOk_refl | exact podOk_refl | exact nvOk_refl | lift_lets
    | (refine kept_of_eq (by assumption) ?_) | split
    | dsimp only

theorem execSessionIdleTimeout_kept {cq : List Instr} {s : State} (h : Kept cq s) (i : Fin 16) :
    OKept cq (execSessionIdleTimeout i s) := by
  unfold execSessionIdleTimeout
  repeat' with_reducible first
    | assumption | (refine fun (s : State) (h : Kept cq s) => ?_) | apply State.closeSess_kept | apply okept_next
    | (refine okept_ite (fun _ => ?_) (fun _ => ?_)) | (refine kept_of_eq (by assumption) ?_) | split | dsimp only

theorem execSessionUnblock_kept {cq : List Instr} {s : State} (h : Kept cq s) (i : Fin 16) :
    OKept cq (execSessionUnblock i s) := by
  unfold execSessionUnblock
  repeat' with_reducible first
    | assumption | (refine fun (s : State) (h : Kept cq s) => ?_) | apply State.setFld_kept | apply State.setSession_kept
    | apply okept_next | (refine okept_ite (fun _ => ?_) (fun _ => ?_))
    | (intro x; refine kept_mid (q := cq) (x := x) ?_ ?_; subst x; rotate_left; intro hx; rotate_left) | intro x
    | (apply kept_with; first
        | assumption | (refine fun (s : State) (h : Kept cq s) => ?_) | apply State.setFld_kept | apply State.setSession_kept
        | apply okept_next | (refine okept_ite (fun _ => ?_) (fun _ => ?_)))
    | (apply kept_upd; first
        | assumption | (refine fun (s : State) (h : Kept cq s) => ?_) | apply State.setFld_kept | apply State.setSession_kept
        | apply okept_next | (refine okept_ite (fun _ => ?_) (fun _ => ?_)))
    | exact cycOk_refl | exact comOk_refl | exact podOk_refl | exact nvOk_refl | lift_lets
    | (refine kept_of_eq (by assumption) ?_) | split
    | dsimp only

theorem execSessionPurge_kept {cq : List Instr} {s : State} (h : Kept cq s) (i : Fin 16) : OKept cq (execSessionPurge i s) := by
  unfold execSessionPurge
  repeat' with_reducible first
    | assumption | (refine fun (s : State) (h : Kept cq s) => ?_) | apply State.purge_kept | apply okept_next
    | (refine okept_ite (fun _ => ?_) (fun _ => ?_)) | (refine kept_of_eq (by assumption) ?_) | split | dsimp only

theorem execCoalesceWindowEnd_kept {cq : List Instr} {s : State} (h : Kept cq s) : OKept cq (execCoalesceWindowEnd s) := by
  unfold execCoalesceWindowEnd
  repeat' with_reducible first
    | assumption | (refine fun (s : State) (h : Kept cq s) => ?_) | apply State.ringWrite_kept | apply okept_next
    | (refine okept_ite (fun _ => ?_) (fun _ => ?_))
    | (intro x; refine kept_mid (q := cq) (x := x) ?_ ?_; subst x; rotate_left; intro hx; rotate_left) | intro x
    | (apply kept_with; first
        | assumption | (refine fun (s : State) (h : Kept cq s) => ?_) | apply State.ringWrite_kept | apply okept_next
        | (refine okept_ite (fun _ => ?_) (fun _ => ?_)))
    | (apply kept_upd; first
        | assumption | (refine fun (s : State) (h : Kept cq s) => ?_) | apply State.ringWrite_kept | apply okept_next
        | (refine okept_ite (fun _ => ?_) (fun _ => ?_)))
    | exact cycOk_refl | exact comOk_refl | exact podOk_refl | exact nvOk_refl | lift_lets
    | (refine kept_of_eq (by assumption) ?_) | split
    | dsimp only

theorem execOrderFrame_kept {cq : List Instr} {s : State} (h : Kept cq s) (h : TwinHdr) (o : OrderRec) :
    OKept cq (execOrderFrame h o s) := by
  unfold execOrderFrame
  repeat' with_reducible first
    | assumption | (refine fun (s : State) (h : Kept cq s) => ?_) | apply State.twinRx_kept | apply State.takeOrder_kept
    | apply okept_next
    | (refine okept_ite (fun _ => ?_) (fun _ => ?_)) | (refine kept_ite (fun _ => ?_) (fun _ => ?_))
    | (refine kept_of_eq (by assumption) ?_) | split | dsimp only

theorem execFwdFrame_kept {cq : List Instr} {s : State} (h : Kept cq s) (h : TwinHdr) (f : FwdBody) :
    OKept cq (execFwdFrame h f s) := by
  unfold execFwdFrame
  repeat' with_reducible first
    | assumption | apply State.twinRx_kept | apply State.sendOhp_kept | apply State.followSession_kept
    | apply State.partnerDecided_kept
    | apply State.takeForwarded_kept | apply okept_next | intro x | split

theorem execSwapCycle_kept {cq : List Instr} {s : State} (h : Kept cq s) : OKept cq (execSwapCycle s) := by
  unfold execSwapCycle
  repeat' with_reducible first
    | assumption | (refine fun (s : State) (h : Kept cq s) => ?_) | apply State.setFld_kept | apply State.enterActive_kept
    | apply State.toState_kept | apply State.orderHeld_kept | apply okept_next | (refine okept_ite (fun _ => ?_) (fun _ => ?_))
    | (refine kept_ite (fun _ => ?_) (fun _ => ?_)) | exact cycOk_refl | (apply cycOk_of (q := cq); assumption)
    | (apply cyc_with; first | exact cycOk_refl | (apply cycOk_of (q := cq); assumption))
    | ((refine cyc_put ?_); with_unfolding_all (intro h0; first | exact h0 | omega))
    | (intro x; refine kept_mid (q := cq) (x := x) ?_ ?_; subst x; rotate_left; intro hx; rotate_left) | intro x | lift_lets
    | (refine kept_of_eq (by assumption) ?_) | split | dsimp only

theorem State.commandRange_kept {cq : List Instr} {s : State} (h : Kept cq s) (was : List (Nat × Word)) (c : Nat × Word) :
    Kept cq (s.commandRange was c) := by
  unfold State.commandRange
  repeat' with_reducible first
    | assumption | apply State.raiseEvt_kept | apply State.raiseRec_kept
    | (apply kept_upd; first
        | assumption | apply State.raiseEvt_kept | apply State.raiseRec_kept | (refine foldl_kept ?_ (fun s x h => ?_)))
    | exact cycOk_refl | exact comOk_refl | exact podOk_refl | exact nvOk_refl | split

theorem State.commitToken_kept {cq : List Instr} {s : State} (h : Kept cq s) (t : Released) : Kept cq (s.commitToken t) := by
  unfold State.commitToken
  repeat' with_reducible first
    | assumption | (refine fun (s : State) (h : Kept cq s) => ?_) | apply State.setIve_kept | apply State.commandRange_kept
    | (apply pea_with; first | assumption | refine pea_canonical (q := cq) ?_ _ | exact pea_reset_canonical _)
    | refine pea_canonical (q := cq) ?_ _ | (refine kept_ite (fun _ => ?_) (fun _ => ?_)) | exact comOk_refl
    | (apply comOk_of (q := cq); assumption) | (apply com_with; first | exact comOk_refl | (apply comOk_of (q := cq); assumption))
    | ((refine com_put ?_ ?_) <;> with_unfolding_all (rintro ⟨_, _⟩; first | assumption | exact Store.wf_set _ _ _ _ ‹_›))
    | (intro x; refine kept_mid (q := cq) (x := x) ?_ ?_; subst x; rotate_left; intro hx; rotate_left) | intro x
    | (apply kept_with; first
        | assumption | (refine fun (s : State) (h : Kept cq s) => ?_) | apply State.setIve_kept | apply State.commandRange_kept
        | (apply pea_with; first | assumption | refine pea_canonical (q := cq) ?_ _ | exact pea_reset_canonical _)
        | refine pea_canonical (q := cq) ?_ _ | (refine kept_ite (fun _ => ?_) (fun _ => ?_)))
    | (apply kept_upd; first
        | assumption | (refine fun (s : State) (h : Kept cq s) => ?_) | apply State.setIve_kept | apply State.commandRange_kept
        | (apply pea_with; first | assumption | refine pea_canonical (q := cq) ?_ _ | exact pea_reset_canonical _)
        | refine pea_canonical (q := cq) ?_ _ | (refine kept_ite (fun _ => ?_) (fun _ => ?_)))
    | exact cycOk_refl | exact comOk_refl | exact podOk_refl | exact nvOk_refl | lift_lets
    | (refine kept_of_eq (by assumption) ?_) | split
    | dsimp only

theorem State.commitStop_kept {cq : List Instr} {s : State} (h : Kept cq s) (g : Nat) : Kept cq (s.commitStop g) := by
  unfold State.commitStop
  repeat' with_reducible first
    | assumption | (refine fun (s : State) (h : Kept cq s) => ?_) | apply State.setIve_kept | exact comOk_refl
    | (apply comOk_of (q := cq); assumption) | (apply com_with; first | exact comOk_refl | (apply comOk_of (q := cq); assumption))
    | ((refine com_put ?_ ?_) <;> with_unfolding_all (rintro ⟨_, _⟩; first | assumption | exact Store.wf_set _ _ _ _ ‹_›))
    | (intro x; refine kept_mid (q := cq) (x := x) ?_ ?_; subst x; rotate_left; intro hx; rotate_left) | intro x
    | (apply kept_with; first | assumption | (refine fun (s : State) (h : Kept cq s) => ?_) | apply State.setIve_kept)
    | (apply kept_upd; first | assumption | (refine fun (s : State) (h : Kept cq s) => ?_) | apply State.setIve_kept)
    | exact cycOk_refl
    | exact comOk_refl | exact podOk_refl | exact nvOk_refl | lift_lets | (refine kept_of_eq (by assumption) ?_) | split
    | dsimp only

theorem State.clearWithdrawn_kept {cq : List Instr} {s : State} (h : Kept cq s) : Kept cq s.clearWithdrawn := by
  unfold State.clearWithdrawn
  repeat' with_reducible first | assumption | apply State.setIve_kept

theorem State.formSet_kept {cq : List Instr} {s : State} (h : Kept cq s) : Kept cq s.formSet := by
  unfold State.formSet
  repeat' with_reducible first
    | assumption | apply State.setFld_kept | apply State.podCount_kept | apply State.showBuffer_kept | apply State.setIve_kept
    | apply State.commandRange_kept | apply State.commitToken_kept | apply State.commitStop_kept | apply State.clearWithdrawn_kept
    | ((refine com_put ?_ ?_) <;> with_unfolding_all (rintro ⟨_, _⟩; first | assumption | exact Store.wf_set _ _ _ _ ‹_›))
    | (apply kept_upd; first
        | assumption | apply State.setFld_kept | apply State.podCount_kept | apply State.showBuffer_kept
        | apply State.setIve_kept | apply State.commandRange_kept | apply State.commitToken_kept | apply State.commitStop_kept
        | apply State.clearWithdrawn_kept | (refine foldl_kept ?_ (fun s x h => ?_)))
    | exact cycOk_refl | exact podOk_refl | exact nvOk_refl

theorem State.writeStatus_kept {cq : List Instr} {s : State} (h : Kept cq s) : Kept cq s.writeStatus := by
  unfold State.writeStatus
  repeat' with_reducible first
    | assumption | apply State.writeWord_kept | ((refine cyc_put ?_); with_unfolding_all (intro h0; first | exact h0 | omega))
    | (apply kept_upd; first | assumption | apply State.writeWord_kept | (refine foldl_kept ?_ (fun s x h => ?_)))
    | exact comOk_refl
    | exact podOk_refl | exact nvOk_refl | split

theorem State.closeIve_kept {cq : List Instr} {s : State} (h : Kept cq s) : Kept cq s.closeIve := by
  unfold State.closeIve
  repeat' with_reducible first | assumption | apply State.setReg_kept | apply State.setIve_kept

theorem State.ageStale_kept {cq : List Instr} {s : State} (h : Kept cq s) (keys : List (Nat × Nat)) :
    Kept cq (s.ageStale keys) := by
  unfold State.ageStale
  repeat' with_reducible first
    | assumption | apply State.addSat_kept | (refine foldl_kept ?_ (fun s x h => ?_)) | split | dsimp only

theorem State.setSkips_kept {cq : List Instr} {s : State} (h : Kept cq s) : Kept cq s.setSkips := by
  unfold State.setSkips
  repeat' with_reducible first
    | assumption | (refine fun (s : State) (h : Kept cq s) => ?_) | exact podOk_refl | (apply podOk_of (q := cq); assumption)
    | (apply pod_with; first | exact podOk_refl | (apply podOk_of (q := cq); assumption))
    | (apply pod_half; exact podOk_refl; omega)
    | (refine podOk_ite ?_ ?_)
    | ((refine pod_put ?_ ?_ ?_ ?_) <;> with_unfolding_all (rintro ⟨_, _, _, _⟩; first
        | assumption | (apply pea_with; assumption) | omega))
    | (intro x; refine kept_mid (q := cq) (x := x) ?_ ?_; subst x; rotate_left; intro hx; rotate_left) | intro x
    | (apply kept_with; first | assumption | (refine fun (s : State) (h : Kept cq s) => ?_))
    | (apply kept_upd; first | assumption | (refine fun (s : State) (h : Kept cq s) => ?_)) | exact cycOk_refl | exact comOk_refl
    | exact podOk_refl | exact nvOk_refl | lift_lets | (refine kept_of_eq (by assumption) ?_) | split | dsimp only

theorem State.nextSetpoint_kept {cq : List Instr} {s : State} (h : Kept cq s) (v : Nat) : Kept cq (s.nextSetpoint v) := by
  unfold State.nextSetpoint
  repeat' with_reducible first
    | assumption | (refine fun (s : State) (h : Kept cq s) => ?_) | exact cycOk_refl | (apply cycOk_of (q := cq); assumption)
    | (apply cyc_with; first | exact cycOk_refl | (apply cycOk_of (q := cq); assumption))
    | ((refine cyc_put ?_); with_unfolding_all (intro h0; first | exact h0 | omega))
    | (intro x; refine kept_mid (q := cq) (x := x) ?_ ?_; subst x; rotate_left; intro hx; rotate_left) | intro x
    | (apply kept_with; first | assumption | (refine fun (s : State) (h : Kept cq s) => ?_))
    | (apply kept_upd; first | assumption | (refine fun (s : State) (h : Kept cq s) => ?_)) | exact cycOk_refl | exact comOk_refl
    | exact podOk_refl | exact nvOk_refl | lift_lets | (refine kept_of_eq (by assumption) ?_) | split | dsimp only

theorem State.dvsCount_kept {cq : List Instr} {s : State} (h : Kept cq s) (n : Nat) : Kept cq (s.dvsCount n) := by
  unfold State.dvsCount
  repeat' with_reducible first
    | assumption | (refine fun (s : State) (h : Kept cq s) => ?_) | exact cycOk_refl | (apply cycOk_of (q := cq); assumption)
    | (apply cyc_with; first | exact cycOk_refl | (apply cycOk_of (q := cq); assumption))
    | ((refine cyc_put ?_); with_unfolding_all (intro h0; first | exact h0 | omega))
    | (intro x; refine kept_mid (q := cq) (x := x) ?_ ?_; subst x; rotate_left; intro hx; rotate_left) | intro x
    | (apply kept_with; first | assumption | (refine fun (s : State) (h : Kept cq s) => ?_))
    | (apply kept_upd; first | assumption | (refine fun (s : State) (h : Kept cq s) => ?_)) | exact cycOk_refl | exact comOk_refl
    | exact podOk_refl | exact nvOk_refl | lift_lets | (refine kept_of_eq (by assumption) ?_) | split | dsimp only

theorem State.decideSupply_kept {cq : List Instr} {s : State} (h : Kept cq s) : Kept cq s.decideSupply := by
  unfold State.decideSupply
  repeat' with_reducible first
    | assumption | apply State.setFld_kept | apply State.addSat_kept | apply State.raiseEvt_kept | apply State.podCount_kept
    | apply State.nextSetpoint_kept | apply State.dvsCount_kept | (refine kept_ite (fun _ => ?_) (fun _ => ?_)) | split

theorem State.endExchange_kept {cq : List Instr} {s : State} (h : Kept cq s) : Kept cq s.endExchange := by
  unfold State.endExchange
  repeat' with_reducible first
    | assumption | apply State.evict_kept | apply State.late_kept | apply State.showXstat_kept
    | (apply kept_upd; first
        | assumption | apply State.evict_kept | apply State.late_kept | apply State.showXstat_kept
        | (refine foldl_kept ?_ (fun s x h => ?_)) | (refine kept_ite (fun _ => ?_) (fun _ => ?_)))
    | exact cycOk_refl | exact comOk_refl | exact podOk_refl | exact nvOk_refl

theorem State.sendStatus_kept {cq : List Instr} {s : State} (h : Kept cq s) : Kept cq s.sendStatus := by
  unfold State.sendStatus
  repeat' with_reducible first
    | assumption | apply State.twinSend_kept | apply State.setTwin_kept | apply State.takeComparison_kept
    | (refine kept_ite (fun _ => ?_) (fun _ => ?_))

theorem State.witness_kept {cq : List Instr} {s : State} (h : Kept cq s) : Kept cq s.witness := by
  unfold State.witness
  repeat' with_reducible first
    | assumption | (refine fun (s : State) (h : Kept cq s) => ?_) | apply State.setReg_kept | apply State.setFld_kept
    | apply State.setTwin_kept
    | (apply pea_with; first | assumption | refine pea_canonical (q := cq) ?_ _ | exact pea_reset_canonical _)
    | refine pea_canonical (q := cq) ?_ _ | (refine kept_ite (fun _ => ?_) (fun _ => ?_))
    | (intro x; refine kept_mid (q := cq) (x := x) ?_ ?_; subst x; rotate_left; intro hx; rotate_left) | intro x
    | (apply kept_with; first
        | assumption | (refine fun (s : State) (h : Kept cq s) => ?_) | apply State.setReg_kept | apply State.setFld_kept
        | apply State.setTwin_kept
        | (apply pea_with; first | assumption | refine pea_canonical (q := cq) ?_ _ | exact pea_reset_canonical _)
        | refine pea_canonical (q := cq) ?_ _ | (refine kept_ite (fun _ => ?_) (fun _ => ?_)))
    | (apply kept_upd; first
        | assumption | (refine fun (s : State) (h : Kept cq s) => ?_) | apply State.setReg_kept | apply State.setFld_kept
        | apply State.setTwin_kept
        | (apply pea_with; first | assumption | refine pea_canonical (q := cq) ?_ _ | exact pea_reset_canonical _)
        | refine pea_canonical (q := cq) ?_ _ | (refine kept_ite (fun _ => ?_) (fun _ => ?_)))
    | exact cycOk_refl | exact comOk_refl | exact podOk_refl | exact nvOk_refl | lift_lets
    | (refine kept_of_eq (by assumption) ?_) | split
    | dsimp only

theorem State.decideTakeover_kept {cq : List Instr} {s : State} (h : Kept cq s) : Kept cq s.decideTakeover := by
  unfold State.decideTakeover
  repeat' with_reducible first | assumption | apply State.planTakeover_kept | split

theorem State.commitTasks_kept {cq : List Instr} {s : State} (h : Kept cq s) : Kept cq s.commitTasks := by
  unfold State.commitTasks
  repeat' with_reducible first | assumption | apply State.formSet_kept | apply State.ageStale_kept | apply State.setSkips_kept

theorem State.commitIve_kept {cq : List Instr} {s : State} (h : Kept cq s) : Kept cq s.commitIve := by
  unfold State.commitIve
  repeat' with_reducible first
    | assumption | apply State.expireTimers_kept | apply State.iveDigestNow_kept | apply State.writeStatus_kept
    | apply State.closeIve_kept

theorem State.evictLagging_kept {cq : List Instr} {s : State} (h : Kept cq s) : Kept cq s.evictLagging := by
  unfold State.evictLagging
  repeat' with_reducible first | assumption | apply State.evict_kept | (refine foldl_kept ?_ (fun s x h => ?_))

theorem execCommitPoint_kept {cq : List Instr} {s : State} (h : Kept cq s) : OKept cq (execCommitPoint s) := by
  unfold execCommitPoint
  repeat' with_reducible first
    | assumption | apply State.podCount_kept | apply State.iveFault_kept | apply State.expireTimers_kept
    | apply State.iveDigestNow_kept
    | apply State.decideExchange_kept | apply State.decideSwap_kept | apply State.clearWithdrawn_kept
    | apply State.decideSupply_kept
    | apply State.endExchange_kept | apply State.sendStatus_kept | apply State.witness_kept | apply State.decideTakeover_kept
    | apply State.commitTasks_kept | apply State.commitIve_kept | apply State.evictLagging_kept | apply okept_next
    | ((refine com_put ?_ ?_) <;> with_unfolding_all (rintro ⟨_, _⟩; first | assumption | exact Store.wf_set _ _ _ _ ‹_›))
    | (apply kept_with; first
        | assumption | apply State.podCount_kept | apply State.iveFault_kept | apply State.expireTimers_kept
        | apply State.iveDigestNow_kept | apply State.decideExchange_kept | apply State.decideSwap_kept
        | apply State.clearWithdrawn_kept | apply State.decideSupply_kept | apply State.endExchange_kept
        | apply State.sendStatus_kept | apply State.witness_kept | apply State.decideTakeover_kept | apply State.commitTasks_kept
        | apply State.commitIve_kept | apply State.evictLagging_kept)
    | (apply kept_upd; first
        | assumption | apply State.podCount_kept | apply State.iveFault_kept | apply State.expireTimers_kept
        | apply State.iveDigestNow_kept | apply State.decideExchange_kept | apply State.decideSwap_kept
        | apply State.clearWithdrawn_kept | apply State.decideSupply_kept | apply State.endExchange_kept
        | apply State.sendStatus_kept | apply State.witness_kept | apply State.decideTakeover_kept | apply State.commitTasks_kept
        | apply State.commitIve_kept | apply State.evictLagging_kept)
    | exact cycOk_refl | exact podOk_refl | exact nvOk_refl | split | dsimp only

theorem State.peaOverrun_kept {cq : List Instr} {s : State} (h : Kept cq s) (p : PeaId) : Kept cq (s.peaOverrun p) := by
  unfold State.peaOverrun
  repeat' with_reducible first
    | assumption | (refine fun (s : State) (h : Kept cq s) => ?_) | apply State.setReg_kept | apply State.setFld_kept
    | apply State.raiseEvt_kept
    | (apply pea_with; first | assumption | refine pea_canonical (q := cq) ?_ _ | exact pea_reset_canonical _)
    | refine pea_canonical (q := cq) ?_ _ | (refine kept_ite (fun _ => ?_) (fun _ => ?_))
    | (intro x; refine kept_mid (q := cq) (x := x) ?_ ?_; subst x; rotate_left; intro hx; rotate_left) | intro x | lift_lets
    | (refine kept_of_eq (by assumption) ?_) | split | dsimp only

theorem State.warnOverrun_kept {cq : List Instr} {s : State} (h : Kept cq s) (slot : Nat) : Kept cq (s.warnOverrun slot) := by
  unfold State.warnOverrun
  repeat' with_reducible first
    | assumption | apply State.addSat_kept | apply State.raiseEvt_kept | apply State.podCount_kept | apply State.raiseRec_kept

theorem execTaskDeadline_kept {cq : List Instr} {s : State} (h : Kept cq s) : OKept cq (execTaskDeadline s) := by
  unfold execTaskDeadline
  repeat' with_reducible first
    | assumption | apply State.setReg_kept | apply State.vital_kept | apply State.peaOverrun_kept | apply State.warnOverrun_kept
    | apply okept_next | ((refine cyc_put ?_); with_unfolding_all (intro h0; first | exact h0 | omega))
    | (apply kept_upd; first
        | assumption | apply State.setReg_kept | apply State.vital_kept | apply State.peaOverrun_kept
        | apply State.warnOverrun_kept | (refine foldl_kept ?_ (fun s x h => ?_)))
    | exact comOk_refl | exact podOk_refl | exact nvOk_refl | split

theorem State.applySetpoint_kept {cq : List Instr} {s : State} (h : Kept cq s) : Kept cq s.applySetpoint := by
  unfold State.applySetpoint
  repeat' with_reducible first
    | assumption | (refine fun (s : State) (h : Kept cq s) => ?_) | apply State.setFld_kept | apply State.podCount_kept
    | (refine kept_ite (fun _ => ?_) (fun _ => ?_)) | exact podOk_refl | (apply podOk_of (q := cq); assumption)
    | (apply pod_with; first | exact podOk_refl | (apply podOk_of (q := cq); assumption))
    | (apply pod_half; exact podOk_refl; omega)
    | (refine podOk_ite ?_ ?_)
    | ((refine pod_put ?_ ?_ ?_ ?_) <;> with_unfolding_all (rintro ⟨_, _, _, _⟩; first
        | assumption | (apply pea_with; assumption) | omega))
    | exact cycOk_refl | (apply cycOk_of (q := cq); assumption)
    | (apply cyc_with; first | exact cycOk_refl | (apply cycOk_of (q := cq); assumption))
    | ((refine cyc_put ?_); with_unfolding_all (intro h0; first | exact h0 | omega))
    | (intro x; refine kept_mid (q := cq) (x := x) ?_ ?_; subst x; rotate_left; intro hx; rotate_left) | intro x
    | (apply kept_with; first
        | assumption | (refine fun (s : State) (h : Kept cq s) => ?_) | apply State.setFld_kept | apply State.podCount_kept
        | (refine kept_ite (fun _ => ?_) (fun _ => ?_)))
    | (apply kept_upd; first
        | assumption | (refine fun (s : State) (h : Kept cq s) => ?_) | apply State.setFld_kept | apply State.podCount_kept
        | (refine kept_ite (fun _ => ?_) (fun _ => ?_)))
    | exact cycOk_refl | exact comOk_refl | exact podOk_refl | exact nvOk_refl | lift_lets
    | (refine kept_of_eq (by assumption) ?_) | split
    | dsimp only

theorem State.beginCycle_kept {cq : List Instr} {s : State} (h : Kept cq s) (n : Word) : Kept cq (s.beginCycle n) := by
  unfold State.beginCycle
  repeat' with_reducible first
    | assumption | (refine fun (s : State) (h : Kept cq s) => ?_) | apply State.applySetpoint_kept | exact cycOk_refl
    | (apply cycOk_of (q := cq); assumption) | (apply cyc_with; first | exact cycOk_refl | (apply cycOk_of (q := cq); assumption))
    | ((refine cyc_put ?_); with_unfolding_all (intro h0; first | exact h0 | omega)) | exact comOk_refl
    | (apply comOk_of (q := cq); assumption) | (apply com_with; first | exact comOk_refl | (apply comOk_of (q := cq); assumption))
    | ((refine com_put ?_ ?_) <;> with_unfolding_all (rintro ⟨_, _⟩; first | assumption | exact Store.wf_set _ _ _ _ ‹_›))
    | (intro x; refine kept_mid (q := cq) (x := x) ?_ ?_; subst x; rotate_left; intro hx; rotate_left) | intro x
    | (apply kept_with; first | assumption | (refine fun (s : State) (h : Kept cq s) => ?_) | apply State.applySetpoint_kept)
    | (apply kept_upd; first | assumption | (refine fun (s : State) (h : Kept cq s) => ?_) | apply State.applySetpoint_kept)
    | exact cycOk_refl | exact comOk_refl | exact podOk_refl | exact nvOk_refl | lift_lets
    | (refine kept_of_eq (by assumption) ?_) | split
    | dsimp only

theorem State.showTokens_kept {cq : List Instr} {s : State} (h : Kept cq s) : Kept cq s.showTokens := by
  unfold State.showTokens
  repeat' with_reducible first
    | assumption | apply State.setReg_kept
    | ((refine pod_put ?_ ?_ ?_ ?_) <;> with_unfolding_all (rintro ⟨_, _, _, _⟩; first
        | assumption | (apply pea_with; assumption) | omega))
    | (apply kept_upd; first | assumption | apply State.setReg_kept) | exact cycOk_refl | exact comOk_refl | exact nvOk_refl

theorem State.finishRequest_kept {cq : List Instr} {s : State} (h : Kept cq s) (t : Released) (code : Nat) :
    Kept cq (s.finishRequest t code) := by
  unfold State.finishRequest
  repeat' with_reducible first
    | assumption | (refine fun (s : State) (h : Kept cq s) => ?_) | apply State.raiseRec_kept | apply State.respond_kept
    | apply State.lateResult_kept | (refine kept_ite (fun _ => ?_) (fun _ => ?_))
    | (intro x; refine kept_mid (q := cq) (x := x) ?_ ?_; subst x; rotate_left; intro hx; rotate_left) | intro x
    | (apply kept_with; first
        | assumption | (refine fun (s : State) (h : Kept cq s) => ?_) | apply State.raiseRec_kept | apply State.respond_kept
        | apply State.lateResult_kept | (refine kept_ite (fun _ => ?_) (fun _ => ?_)))
    | (apply kept_upd; first
        | assumption | (refine fun (s : State) (h : Kept cq s) => ?_) | apply State.raiseRec_kept | apply State.respond_kept
        | apply State.lateResult_kept | (refine kept_ite (fun _ => ?_) (fun _ => ?_)))
    | exact cycOk_refl | exact comOk_refl | exact podOk_refl | exact nvOk_refl | lift_lets
    | (refine kept_of_eq (by assumption) ?_) | split
    | dsimp only

theorem State.passHres_kept {cq : List Instr} {s : State} (h : Kept cq s) (x : Released × Nat) : Kept cq (s.passHres x) := by
  unfold State.passHres
  repeat' with_reducible first
    | assumption | (refine fun (s : State) (h : Kept cq s) => ?_) | apply State.addSat_kept | apply State.raiseMax_kept
    | apply State.raiseEvt_kept | apply State.podCount_kept | apply State.finishRequest_kept
    | (refine kept_ite (fun _ => ?_) (fun _ => ?_)) | exact podOk_refl | (apply podOk_of (q := cq); assumption)
    | (apply pod_with; first | exact podOk_refl | (apply podOk_of (q := cq); assumption))
    | (apply pod_half; exact podOk_refl; omega)
    | (refine podOk_ite ?_ ?_)
    | ((refine pod_put ?_ ?_ ?_ ?_) <;> with_unfolding_all (rintro ⟨_, _, _, _⟩; first
        | assumption | (apply pea_with; assumption) | omega))
    | (intro x; refine kept_mid (q := cq) (x := x) ?_ ?_; subst x; rotate_left; intro hx; rotate_left)
    | (intro x; refine kept_mid (q := cq) (x := x.1) ?_ ?_; subst x; rotate_left; intro hx; rotate_left) | intro x | lift_lets
    | (refine kept_of_eq (by assumption) ?_) | split | dsimp only

theorem State.passResults_kept {cq : List Instr} {s : State} (h : Kept cq s) : Kept cq s.passResults := by
  unfold State.passResults
  repeat' with_reducible first
    | assumption | apply State.passHres_kept
    | ((refine com_put ?_ ?_) <;> with_unfolding_all (rintro ⟨_, _⟩; first | assumption | exact Store.wf_set _ _ _ _ ‹_›))
    | (apply kept_upd; first | assumption | apply State.passHres_kept | (refine foldl_kept ?_ (fun s x h => ?_)))
    | exact cycOk_refl
    | exact podOk_refl | exact nvOk_refl

theorem State.missedGo_kept {cq : List Instr} {s : State} (h : Kept cq s) (n : Word) : Kept cq (s.missedGo n) := by
  unfold State.missedGo
  repeat' with_reducible first | assumption | apply State.setArmed_kept | apply State.planRole_kept | split

theorem State.latchDigests_kept {cq : List Instr} {s : State} (h : Kept cq s) (n : Word) : Kept cq (s.latchDigests n) := by
  unfold State.latchDigests
  repeat' with_reducible first
    | assumption | (refine fun (s : State) (h : Kept cq s) => ?_) | apply State.setTwin_kept | apply State.catchup_kept
    | (refine kept_ite (fun _ => ?_) (fun _ => ?_))
    | (intro x; refine kept_mid (q := cq) (x := x) ?_ ?_; subst x; rotate_left; intro hx; rotate_left) | intro x
    | (apply kept_with; first
        | assumption | (refine fun (s : State) (h : Kept cq s) => ?_) | apply State.setTwin_kept | apply State.catchup_kept
        | (refine kept_ite (fun _ => ?_) (fun _ => ?_)))
    | (apply kept_upd; first
        | assumption | (refine fun (s : State) (h : Kept cq s) => ?_) | apply State.setTwin_kept | apply State.catchup_kept
        | (refine kept_ite (fun _ => ?_) (fun _ => ?_)))
    | exact cycOk_refl | exact comOk_refl | exact podOk_refl | exact nvOk_refl | lift_lets
    | (refine kept_of_eq (by assumption) ?_) | split
    | dsimp only

theorem State.countXfer_kept {cq : List Instr} {s : State} (h : Kept cq s) : Kept cq s.countXfer := by
  unfold State.countXfer
  repeat' with_reducible first | assumption | apply State.addSat_kept | apply State.setTwin_kept | split

theorem State.countStandby_kept {cq : List Instr} {s : State} (h : Kept cq s) : Kept cq s.countStandby := by
  unfold State.countStandby
  repeat' with_reducible first | assumption | apply State.setTwin_kept

theorem State.sendSync_kept {cq : List Instr} {s : State} (h : Kept cq s) (n : Word) : Kept cq (s.sendSync n) := by
  unfold State.sendSync
  repeat' with_reducible first | assumption | apply State.twinSend_kept | split

theorem State.alignCycle_kept {cq : List Instr} {s : State} (h : Kept cq s) : Kept cq s.alignCycle := by
  unfold State.alignCycle
  repeat' with_reducible first
    | assumption | apply State.setFld_kept | apply State.setPort_kept | apply State.setTwin_kept | apply State.noteAlign_kept
    | ((refine foldl_kept_fst ?_ ?_) <;> first | (intro s a x h) | skip)
    | ((refine cyc_put ?_); with_unfolding_all (intro h0; first | exact h0 | omega))
    | (apply kept_upd; first
        | assumption | apply State.setFld_kept | apply State.setPort_kept | apply State.setTwin_kept | apply State.noteAlign_kept
        | (refine foldl_kept ?_ (fun s x h => ?_)))
    | exact comOk_refl | exact podOk_refl | exact nvOk_refl | split

theorem State.twinBoundary_kept {cq : List Instr} {s : State} (h : Kept cq s) (n : Word) : Kept cq (s.twinBoundary n) := by
  unfold State.twinBoundary
  repeat' with_reducible first
    | assumption | apply State.linkCycle_kept | apply State.digestCycleEnd_kept | apply State.roleCycle_kept
    | apply State.missedGo_kept
    | apply State.latchDigests_kept | apply State.countXfer_kept | apply State.countStandby_kept | apply State.sendSync_kept
    | apply State.alignCycle_kept | split

theorem State.decideSleep_kept {cq : List Instr} {s : State} (h : Kept cq s) : Kept cq s.decideSleep := by
  unfold State.decideSleep
  repeat' with_reducible first
    | assumption | (refine fun (s : State) (h : Kept cq s) => ?_) | apply State.setFld_kept | apply State.raiseEvt_kept
    | apply State.raiseRec_kept | apply State.enterShutdown_kept | (refine kept_ite (fun _ => ?_) (fun _ => ?_))
    | (intro x; refine kept_mid (q := cq) (x := x) ?_ ?_; subst x; rotate_left; intro hx; rotate_left) | intro x
    | (apply kept_with; first
        | assumption | (refine fun (s : State) (h : Kept cq s) => ?_) | apply State.setFld_kept | apply State.raiseEvt_kept
        | apply State.raiseRec_kept | apply State.enterShutdown_kept | (refine kept_ite (fun _ => ?_) (fun _ => ?_)))
    | (apply kept_upd; first
        | assumption | (refine fun (s : State) (h : Kept cq s) => ?_) | apply State.setFld_kept | apply State.raiseEvt_kept
        | apply State.raiseRec_kept | apply State.enterShutdown_kept | (refine kept_ite (fun _ => ?_) (fun _ => ?_)))
    | exact cycOk_refl | exact comOk_refl | exact podOk_refl | exact nvOk_refl | lift_lets
    | (refine kept_of_eq (by assumption) ?_) | split
    | dsimp only

theorem State.deferredSafe_kept {cq : List Instr} {s : State} (h : Kept cq s) : Kept cq s.deferredSafe := by
  unfold State.deferredSafe
  repeat' with_reducible first
    | assumption | (refine fun (s : State) (h : Kept cq s) => ?_) | apply State.enterSafe_kept
    | (refine kept_ite (fun _ => ?_) (fun _ => ?_))
    | (intro x; refine kept_mid (q := cq) (x := x) ?_ ?_; subst x; rotate_left; intro hx; rotate_left) | intro x
    | (apply kept_with; first
        | assumption | (refine fun (s : State) (h : Kept cq s) => ?_) | apply State.enterSafe_kept
        | (refine kept_ite (fun _ => ?_) (fun _ => ?_)))
    | (apply kept_upd; first
        | assumption | (refine fun (s : State) (h : Kept cq s) => ?_) | apply State.enterSafe_kept
        | (refine kept_ite (fun _ => ?_) (fun _ => ?_)))
    | exact cycOk_refl | exact comOk_refl | exact podOk_refl | exact nvOk_refl | lift_lets
    | (refine kept_of_eq (by assumption) ?_) | split
    | dsimp only

theorem State.whileRunning_kept {cq : List Instr} {s : State} (h : Kept cq s) (f : State → State)
    (h_f : ∀ s, Kept cq s → Kept cq (f s)) : Kept cq (s.whileRunning f) := by
  unfold State.whileRunning
  repeat' with_reducible first
    | assumption | (refine fun (s : State) (h : Kept cq s) => ?_) | apply h_f | (refine kept_ite (fun _ => ?_) (fun _ => ?_))
    | exact cycOk_refl | (apply cycOk_of (q := cq); assumption)
    | (apply cyc_with; first | exact cycOk_refl | (apply cycOk_of (q := cq); assumption))
    | ((refine cyc_put ?_); with_unfolding_all (intro h0; first | exact h0 | omega)) | (refine kept_of_eq (by assumption) ?_)
    | split
    | dsimp only

theorem State.boundary_kept {cq : List Instr} {s : State} (h : Kept cq s) (n : Word) : Kept cq (s.boundary n) := by
  unfold State.boundary
  repeat' with_reducible first
    | assumption | apply State.boundaryTime_kept | apply State.startRotation_kept | apply State.rejoinCycle_kept
    | apply State.scrubCycle_kept | apply State.activationBoundary_kept | apply State.beginCycle_kept
    | apply State.showTokens_kept
    | apply State.passResults_kept | apply State.twinBoundary_kept | apply State.decideSleep_kept | apply State.deferredSafe_kept
    | apply State.whileRunning_kept | intro x

theorem State.countSkip_kept {cq : List Instr} {s : State} (h : Kept cq s) (n : Word) (i : Nat) :
    Kept cq (State.countSkip n s i) := by
  unfold State.countSkip
  repeat' with_reducible first
    | assumption | (refine fun (s : State) (h : Kept cq s) => ?_) | apply State.setFld_kept | apply State.raiseEvt_kept
    | apply State.podCount_kept | (refine kept_ite (fun _ => ?_) (fun _ => ?_)) | exact podOk_refl
    | (apply podOk_of (q := cq); assumption)
    | (apply pod_with; first | exact podOk_refl | (apply podOk_of (q := cq); assumption))
    | (apply pod_half; exact podOk_refl; omega)
    | (refine podOk_ite ?_ ?_)
    | ((refine pod_put ?_ ?_ ?_ ?_) <;> with_unfolding_all (rintro ⟨_, _, _, _⟩; first
        | assumption | (apply pea_with; assumption) | omega))
    | (intro x; refine kept_mid (q := cq) (x := x) ?_ ?_; subst x; rotate_left; intro hx; rotate_left) | intro x | lift_lets
    | (refine kept_of_eq (by assumption) ?_) | split | dsimp only

theorem State.skipCycle_kept {cq : List Instr} {s : State} (h : Kept cq s) (n : Word) : Kept cq (s.skipCycle n) := by
  unfold State.skipCycle
  repeat' with_reducible first
    | assumption | apply State.setReg_kept | apply State.raiseEvt_kept | apply State.raiseRec_kept | apply State.enterSafe_kept
    | apply State.countSkip_kept
    | (apply kept_upd; first
        | assumption | apply State.setReg_kept | apply State.raiseEvt_kept | apply State.raiseRec_kept
        | apply State.enterSafe_kept | apply State.countSkip_kept | (refine foldl_kept ?_ (fun s x h => ?_)))
    | exact cycOk_refl | exact comOk_refl | exact podOk_refl | exact nvOk_refl | split | dsimp only

theorem State.afterRv_kept {cq : List Instr} {s : State} (h : Kept cq s) (a : Nat) (old : Word) : Kept cq (s.afterRv a old) := by
  unfold State.afterRv
  repeat' with_reducible first
    | assumption | apply State.setClock_kept | apply State.haltRing_kept | apply State.unhaltRing_kept
    | (apply kept_upd; first
        | assumption | apply State.setClock_kept | apply State.haltRing_kept | apply State.unhaltRing_kept
        | (refine foldl_kept ?_ (fun s x h => ?_)) | (refine kept_ite (fun _ => ?_) (fun _ => ?_)))
    | exact cycOk_refl | exact comOk_refl | exact podOk_refl | exact nvOk_refl

theorem State.rvWrite_kept {cq : List Instr} {s : State} (h : Kept cq s) (a mask value : Nat) :
    Kept cq (s.rvWrite a mask value).1 := by
  unfold State.rvWrite
  repeat' with_reducible first
    | assumption | (refine fun (s : State) (h : Kept cq s) => ?_) | apply State.setReg_kept | apply State.afterRv_kept
    | (refine kept_ite (fun _ => ?_) (fun _ => ?_)) | (refine kept_ite_fst (fun _ => ?_) (fun _ => ?_))
    | (intro x; refine kept_mid (q := cq) (x := x) ?_ ?_; subst x; rotate_left; intro hx; rotate_left)
    | (intro x; refine kept_mid (q := cq) (x := x.1) ?_ ?_; subst x; rotate_left; intro hx; rotate_left) | intro x | lift_lets
    | (refine kept_of_eq (by assumption) ?_) | split | dsimp only

theorem State.decideInImage_kept {cq : List Instr} {s : State} (h : Kept cq s) (r : ReqRec) : Kept cq (s.decideInImage r) := by
  unfold State.decideInImage
  repeat' with_reducible first
    | assumption | (refine fun (s : State) (h : Kept cq s) => ?_) | apply State.setFld_kept | apply State.respond_kept
    | apply State.decideForce_kept | apply State.rvWrite_kept | (refine kept_ite (fun _ => ?_) (fun _ => ?_))
    | (intro x; refine kept_mid (q := cq) (x := x) ?_ ?_; subst x; rotate_left; intro hx; rotate_left) | intro x | lift_lets
    | (refine kept_of_eq (by assumption) ?_) | split | dsimp only

theorem State.takeImageAt_kept {cq : List Instr} {s : State} (h : Kept cq s) (late : Bool) (bad : List PeaId) :
    Kept cq (s.takeImageAt late bad) := by
  unfold State.takeImageAt
  repeat' with_reducible first
    | assumption | apply State.late_kept | apply State.iveTakesImage_kept | apply State.takeCycleImage_kept
    | apply State.decideInImage_kept | (refine foldl_kept ?_ (fun s x h => ?_)) | split

theorem State.leaveUnverified_kept {cq : List Instr} {s : State} (h : Kept cq s) (ready joining : List PeaId) (p : PeaId) :
    Kept cq (s.leaveUnverified ready joining p) := by
  unfold State.leaveUnverified
  repeat' with_reducible first
    | assumption | apply State.setFld_kept | apply State.setPeaState_kept | apply State.showPod_kept | apply State.afterEvict_kept
    | apply State.endRejoin_kept
    | (apply pea_with; first | assumption | refine pea_canonical (q := cq) ?_ _ | exact pea_reset_canonical _)
    | ((refine pod_put ?_ ?_ ?_ ?_) <;> with_unfolding_all (rintro ⟨_, _, _, _⟩; first
        | assumption | (apply pea_with; assumption) | omega))
    | intro x
    | (apply kept_with; first
        | assumption | apply State.setFld_kept | apply State.setPeaState_kept | apply State.showPod_kept
        | apply State.afterEvict_kept | apply State.endRejoin_kept | (refine State.setPea_kept ?_ _ _ ?_)
        | (refine kept_ite (fun _ => ?_) (fun _ => ?_)))
    | (apply kept_upd; first
        | assumption | apply State.setFld_kept | apply State.setPeaState_kept | apply State.showPod_kept
        | apply State.afterEvict_kept | apply State.endRejoin_kept | (refine State.setPea_kept ?_ _ _ ?_)
        | (refine kept_ite (fun _ => ?_) (fun _ => ?_)))
    | exact cycOk_refl | exact comOk_refl | exact nvOk_refl

theorem State.exchangeImage_kept {cq : List Instr} {s : State} (h : Kept cq s) : Kept cq s.exchangeImage := by
  unfold State.exchangeImage
  extract_lets old w0 s1 w1 w2 s2
  have h1 : Kept cq s1 := by
    unfold s1
    repeat' with_reducible first
      | assumption | (refine fun (s : State) (h : Kept cq s) => ?_) | apply State.iveTakesImage_kept
      | (refine kept_ite (fun _ => ?_) (fun _ => ?_)) | exact cycOk_refl | (apply cycOk_of (q := cq); assumption)
      | (apply cyc_with; first | exact cycOk_refl | (apply cycOk_of (q := cq); assumption))
      | ((refine cyc_put ?_); with_unfolding_all (intro h0; first | exact h0 | omega))
      | (intro x; refine kept_mid (q := cq) (x := x) ?_ ?_; subst x; rotate_left; intro hx; rotate_left) | intro x
      | (apply kept_with; first
          | assumption | (refine fun (s : State) (h : Kept cq s) => ?_) | apply State.iveTakesImage_kept
          | (refine kept_ite (fun _ => ?_) (fun _ => ?_)))
      | (apply kept_upd; first
          | assumption | (refine fun (s : State) (h : Kept cq s) => ?_) | apply State.iveTakesImage_kept
          | (refine kept_ite (fun _ => ?_) (fun _ => ?_)))
      | exact cycOk_refl | exact comOk_refl | exact podOk_refl | exact nvOk_refl | lift_lets
      | (refine kept_of_eq (by assumption) ?_)
      | split | dsimp only
  have h2 : Kept cq s2 := by
    with_reducible apply kept_upd
    · exact h1
    all_goals exact fun h => h
  exact State.iveTakesImage_kept h2

theorem State.exchangeAt_kept {cq : List Instr} {s : State} (h : Kept cq s) (old new : Program) :
    Kept cq (s.exchangeAt old new) := by
  unfold State.exchangeAt
  repeat' with_reducible first
    | assumption | apply State.setReg_kept | apply State.exchangeSwitch_kept | apply State.whileRunning_kept
    | apply State.leaveUnverified_kept | apply State.exchangeImage_kept | (refine foldl_kept ?_ (fun s x h => ?_))
    | (apply pea_with; first | assumption | refine pea_canonical (q := cq) ?_ _ | exact pea_reset_canonical _)
    | refine pea_canonical (q := cq) ?_ _ | (apply nv_with; first | exact nvOk_refl | (apply nvOk_of (q := cq); assumption))
    | (apply pod_with; first | exact podOk_refl | (apply podOk_of (q := cq); assumption))
    | (apply pod_half; exact podOk_refl; omega)
    | (apply kept_upd; first
        | assumption | apply State.setReg_kept | apply State.exchangeSwitch_kept | apply State.whileRunning_kept
        | apply State.leaveUnverified_kept | apply State.exchangeImage_kept | (refine foldl_kept ?_ (fun s x h => ?_))
        | (refine State.setPea_kept ?_ _ _ ?_))
    | exact cycOk_refl | exact comOk_refl

theorem State.showLinks_kept {cq : List Instr} {s : State} (h : Kept cq s) (dark : List (Fin 4)) :
    Kept cq (s.showLinks dark) := by
  unfold State.showLinks
  repeat' with_reducible first | assumption | apply State.setFld_kept | (refine foldl_kept ?_ (fun s x h => ?_))

theorem execVitalCycleBoundary_kept {cq : List Instr} {s : State} (h : Kept cq s) (b : BoundarySight) (bad : List PeaId) :
    OKept cq (execVitalCycleBoundary b bad s) := by
  unfold execVitalCycleBoundary
  repeat' with_reducible first
    | assumption | apply State.late_kept | apply State.releaseCycle_kept | apply State.whileRunning_kept
    | apply State.boundary_kept
    | apply State.skipCycle_kept | apply State.takeImageAt_kept | apply State.showLinks_kept | apply okept_next | intro x | split
    | dsimp only

theorem execExchangeCycle_kept {cq : List Instr} {s : State} (h : Kept cq s) : OKept cq (execExchangeCycle s) := by
  unfold execExchangeCycle
  repeat' with_reducible first
    | assumption | (refine fun (s : State) (h : Kept cq s) => ?_) | apply State.whileRunning_kept | apply State.boundary_kept
    | apply State.exchangeAt_kept | apply okept_next | (refine okept_ite (fun _ => ?_) (fun _ => ?_))
    | (refine kept_ite (fun _ => ?_) (fun _ => ?_)) | exact cycOk_refl | (apply cycOk_of (q := cq); assumption)
    | (apply cyc_with; first | exact cycOk_refl | (apply cycOk_of (q := cq); assumption))
    | ((refine cyc_put ?_); with_unfolding_all (intro h0; first | exact h0 | omega))
    | (intro x; refine kept_mid (q := cq) (x := x) ?_ ?_; subst x; rotate_left; intro hx; rotate_left) | intro x
    | (apply kept_with; first
        | assumption | (refine fun (s : State) (h : Kept cq s) => ?_) | apply State.whileRunning_kept | apply State.boundary_kept
        | apply State.exchangeAt_kept | apply okept_next | (refine okept_ite (fun _ => ?_) (fun _ => ?_))
        | (refine kept_ite (fun _ => ?_) (fun _ => ?_)))
    | (apply kept_upd; first
        | assumption | (refine fun (s : State) (h : Kept cq s) => ?_) | apply State.whileRunning_kept | apply State.boundary_kept
        | apply State.exchangeAt_kept | apply okept_next | (refine okept_ite (fun _ => ?_) (fun _ => ?_))
        | (refine kept_ite (fun _ => ?_) (fun _ => ?_)))
    | exact cycOk_refl | exact comOk_refl | exact podOk_refl | exact nvOk_refl | lift_lets
    | (refine kept_of_eq (by assumption) ?_) | split
    | dsimp only

theorem State.emit_kept {cq : List Instr} {s : State} (h : Kept cq s) (o : OutMsg) : Kept cq (s.emit o) := by
  unfold State.emit
  repeat' with_reducible first
    | assumption | (refine fun (s : State) (h : Kept cq s) => ?_)
    | (intro x; refine kept_mid (q := cq) (x := x) ?_ ?_; subst x; rotate_left; intro hx; rotate_left) | intro x
    | (apply kept_with; first | assumption | (refine fun (s : State) (h : Kept cq s) => ?_))
    | (apply kept_upd; first | assumption | (refine fun (s : State) (h : Kept cq s) => ?_)) | exact cycOk_refl | exact comOk_refl
    | exact podOk_refl | exact nvOk_refl | lift_lets | (refine kept_of_eq (by assumption) ?_) | split | dsimp only

theorem State.ignore_kept {cq : List Instr} {s : State} (h : Kept cq s) (x : Fin 2) : Kept cq (s.ignore x) := by
  unfold State.ignore
  repeat' with_reducible first | assumption | apply State.dropOhp_kept | split

theorem State.linkGoesUp_kept {cq : List Instr} {s : State} (h : Kept cq s) (x : Fin 2) : Kept cq (s.linkGoesUp x) := by
  unfold State.linkGoesUp
  repeat' with_reducible first
    | assumption | (refine fun (s : State) (h : Kept cq s) => ?_) | apply State.setFld_kept | apply State.raiseEvt_kept
    | apply State.emit_kept | (refine kept_ite (fun _ => ?_) (fun _ => ?_))
    | (intro x; refine kept_mid (q := cq) (x := x) ?_ ?_; subst x; rotate_left; intro hx; rotate_left) | intro x | lift_lets
    | (refine kept_of_eq (by assumption) ?_) | split | dsimp only

theorem State.linkGoesDown_kept {cq : List Instr} {s : State} (h : Kept cq s) (x : Fin 2) : Kept cq (s.linkGoesDown x) := by
  unfold State.linkGoesDown
  repeat' with_reducible first
    | assumption | (refine fun (s : State) (h : Kept cq s) => ?_) | apply State.setReg_kept | apply State.raiseEvt_kept
    | (refine kept_ite (fun _ => ?_) (fun _ => ?_))
    | (intro x; refine kept_mid (q := cq) (x := x) ?_ ?_; subst x; rotate_left; intro hx; rotate_left) | intro x
    | (apply kept_with; first
        | assumption | (refine fun (s : State) (h : Kept cq s) => ?_) | apply State.setReg_kept | apply State.raiseEvt_kept
        | (refine kept_ite (fun _ => ?_) (fun _ => ?_)))
    | (apply kept_upd; first
        | assumption | (refine fun (s : State) (h : Kept cq s) => ?_) | apply State.setReg_kept | apply State.raiseEvt_kept
        | (refine kept_ite (fun _ => ?_) (fun _ => ?_)))
    | exact cycOk_refl | exact comOk_refl | exact podOk_refl | exact nvOk_refl | lift_lets
    | (refine kept_of_eq (by assumption) ?_) | split
    | dsimp only

theorem execHostLinkChange_kept {cq : List Instr} {s : State} (h : Kept cq s) (x : Fin 2) (up fdx : Bool) :
    OKept cq (execHostLinkChange x up fdx s) := by
  unfold execHostLinkChange
  repeat' with_reducible first
    | assumption | (refine fun (s : State) (h : Kept cq s) => ?_) | apply State.raiseEvt_kept | apply State.linkGoesUp_kept
    | apply State.linkGoesDown_kept | apply okept_next | (refine okept_ite (fun _ => ?_) (fun _ => ?_))
    | (refine kept_ite (fun _ => ?_) (fun _ => ?_)) | (refine kept_of_eq (by assumption) ?_) | split | dsimp only

theorem execArpRequest_kept {cq : List Instr} {s : State} (h : Kept cq s) (x : Fin 2) (target : Word) :
    OKept cq (execArpRequest x target s) := by
  unfold execArpRequest
  repeat' with_reducible first
    | assumption | (refine fun (s : State) (h : Kept cq s) => ?_) | apply State.emit_kept | apply State.ignore_kept
    | apply okept_next
    | (refine okept_ite (fun _ => ?_) (fun _ => ?_)) | (refine kept_ite (fun _ => ?_) (fun _ => ?_))
    | (refine kept_of_eq (by assumption) ?_) | split | dsimp only

theorem execIcmpEchoRequest_kept {cq : List Instr} {s : State} (h : Kept cq s) (x : Fin 2) (dst src : IpAddr) (data : List Byte) :
    OKept cq (execIcmpEchoRequest x dst src data s) := by
  unfold execIcmpEchoRequest
  repeat' with_reducible first
    | assumption | (refine fun (s : State) (h : Kept cq s) => ?_) | apply State.emit_kept | apply State.ignore_kept
    | apply okept_next
    | (refine okept_ite (fun _ => ?_) (fun _ => ?_)) | (refine kept_ite (fun _ => ?_) (fun _ => ?_))
    | (intro x; refine kept_mid (q := cq) (x := x) ?_ ?_; subst x; rotate_left; intro hx; rotate_left)
    | (intro x; refine kept_mid (q := cq) (x := x.1) ?_ ?_; subst x; rotate_left; intro hx; rotate_left) | intro x
    | (apply kept_with; first
        | assumption | (refine fun (s : State) (h : Kept cq s) => ?_) | apply State.emit_kept | apply State.ignore_kept
        | apply okept_next | (refine okept_ite (fun _ => ?_) (fun _ => ?_)) | (refine kept_ite (fun _ => ?_) (fun _ => ?_)))
    | (apply kept_upd; first
        | assumption | (refine fun (s : State) (h : Kept cq s) => ?_) | apply State.emit_kept | apply State.ignore_kept
        | apply okept_next | (refine okept_ite (fun _ => ?_) (fun _ => ?_)) | (refine kept_ite (fun _ => ?_) (fun _ => ?_)))
    | exact cycOk_refl | exact comOk_refl | exact podOk_refl | exact nvOk_refl | lift_lets
    | (refine kept_of_eq (by assumption) ?_) | split
    | dsimp only

theorem execNeighbourSolicitation_kept {cq : List Instr} {s : State} (h : Kept cq s) (x : Fin 2) (target : BitVec 128) :
    OKept cq (execNeighbourSolicitation x target s) := by
  unfold execNeighbourSolicitation
  repeat' with_reducible first
    | assumption | (refine fun (s : State) (h : Kept cq s) => ?_) | apply State.emit_kept | apply State.ignore_kept
    | apply okept_next
    | (refine okept_ite (fun _ => ?_) (fun _ => ?_)) | (refine kept_ite (fun _ => ?_) (fun _ => ?_))
    | (refine kept_of_eq (by assumption) ?_) | split | dsimp only

theorem execMldQuery_kept {cq : List Instr} {s : State} (h : Kept cq s) (x : Fin 2) : OKept cq (execMldQuery x s) := by
  unfold execMldQuery
  repeat' with_reducible first | assumption | apply State.emit_kept | apply State.ignore_kept | apply okept_next | split

theorem execDuplicateAddressDetection_kept {cq : List Instr} {s : State} (h : Kept cq s) (x : Fin 2) (linkLocal duplicate : Bool)
    : OKept cq (execDuplicateAddressDetection x linkLocal duplicate s) := by
  unfold execDuplicateAddressDetection
  repeat' with_reducible first
    | assumption | (refine fun (s : State) (h : Kept cq s) => ?_) | apply State.setFld_kept | apply State.raiseEvt_kept
    | apply okept_next
    | (refine okept_ite (fun _ => ?_) (fun _ => ?_)) | (refine kept_ite (fun _ => ?_) (fun _ => ?_))
    | (intro x; refine kept_mid (q := cq) (x := x) ?_ ?_; subst x; rotate_left; intro hx; rotate_left) | intro x
    | (apply kept_with; first
        | assumption | (refine fun (s : State) (h : Kept cq s) => ?_) | apply State.setFld_kept | apply State.raiseEvt_kept
        | apply okept_next | (refine okept_ite (fun _ => ?_) (fun _ => ?_)) | (refine kept_ite (fun _ => ?_) (fun _ => ?_)))
    | (apply kept_upd; first
        | assumption | (refine fun (s : State) (h : Kept cq s) => ?_) | apply State.setFld_kept | apply State.raiseEvt_kept
        | apply okept_next | (refine okept_ite (fun _ => ?_) (fun _ => ?_)) | (refine kept_ite (fun _ => ?_) (fun _ => ?_)))
    | exact cycOk_refl | exact comOk_refl | exact podOk_refl | exact nvOk_refl | lift_lets
    | (refine kept_of_eq (by assumption) ?_) | split
    | dsimp only

theorem execIgnoredFrame_kept {cq : List Instr} {s : State} (h : Kept cq s) (x : Fin 2) (f : Ignored) :
    OKept cq (execIgnoredFrame x f s) := by
  unfold execIgnoredFrame
  repeat' with_reducible first
    | assumption | (refine fun (s : State) (h : Kept cq s) => ?_) | apply State.receive_kept | apply State.ignore_kept
    | apply kept_id
    | apply okept_next | (refine okept_ite (fun _ => ?_) (fun _ => ?_)) | (refine kept_ite (fun _ => ?_) (fun _ => ?_))
    | (intro x; refine kept_mid (q := cq) (x := x) ?_ ?_; subst x; rotate_left; intro hx; rotate_left) | intro x
    | (apply kept_with; first
        | assumption | (refine fun (s : State) (h : Kept cq s) => ?_) | apply State.receive_kept | apply State.ignore_kept
        | apply kept_id | apply okept_next | (refine okept_ite (fun _ => ?_) (fun _ => ?_))
        | (refine kept_ite (fun _ => ?_) (fun _ => ?_)))
    | (apply kept_upd; first
        | assumption | (refine fun (s : State) (h : Kept cq s) => ?_) | apply State.receive_kept | apply State.ignore_kept
        | apply kept_id | apply okept_next | (refine okept_ite (fun _ => ?_) (fun _ => ?_))
        | (refine kept_ite (fun _ => ?_) (fun _ => ?_)))
    | exact cycOk_refl | exact comOk_refl | exact podOk_refl | exact nvOk_refl | lift_lets
    | (refine kept_of_eq (by assumption) ?_) | split
    | dsimp only

end Sys2Proof.Machine
end

