-- ==== Sys2Proof/Laws/KeepsRows.lean ====
section
/-! SUPPORT. The invariant is kept by the rows of the invariant engine, the ring and the instructions, and the tick: one lemma
    for each definition,
in the order of the model. -/

namespace Sys2Proof.Machine

theorem execIveLock_kept {cq : List Instr} {s : State} (h : Kept cq s) (h : IveCheck) : OKept cq (execIveLock h s) := by
  unfold execIveLock
  repeat' with_reducible first
    | assumption | (refine fun (s : State) (h : Kept cq s) => ?_) | apply State.setIve_kept | apply State.showHold_kept
    | apply State.checkTime_kept | apply State.iveAccept_kept | apply State.iveRefuse_kept
    | (refine State.iveDecide_kept ?_ _ _ (fun t s h => ?_)) | apply okept_next | (refine okept_ite (fun _ => ?_) (fun _ => ?_))
    | (refine kept_ite (fun _ => ?_) (fun _ => ?_))
    | (intro x; refine kept_mid (q := cq) (x := x) ?_ ?_; subst x; rotate_left; intro hx; rotate_left) | intro x | lift_lets
    | (refine kept_of_eq (by assumption) ?_) | split | dsimp only

theorem execIvePoint_kept {cq : List Instr} {s : State} (h : Kept cq s) (h : IveCheck) : OKept cq (execIvePoint h s) := by
  unfold execIvePoint
  repeat' with_reducible first
    | assumption | (refine fun (s : State) (h : Kept cq s) => ?_) | apply State.setIve_kept | apply State.checkTime_kept
    | apply State.iveAccept_kept | apply State.iveRefuse_kept | (refine State.iveDecide_kept ?_ _ _ (fun t s h => ?_))
    | apply okept_next
    | (refine okept_ite (fun _ => ?_) (fun _ => ?_)) | (refine kept_ite (fun _ => ?_) (fun _ => ?_)) | exact comOk_refl
    | (apply comOk_of (q := cq); assumption) | (apply com_with; first | exact comOk_refl | (apply comOk_of (q := cq); assumption))
    | ((refine com_put ?_ ?_) <;> with_unfolding_all (rintro ⟨_, _⟩; first | assumption | exact Store.wf_set _ _ _ _ ‹_›))
    | (intro x; refine kept_mid (q := cq) (x := x) ?_ ?_; subst x; rotate_left; intro hx; rotate_left) | intro x
    | (apply kept_with; first
        | assumption | (refine fun (s : State) (h : Kept cq s) => ?_) | apply State.setIve_kept | apply State.checkTime_kept
        | apply State.iveAccept_kept | apply State.iveRefuse_kept | (refine State.iveDecide_kept ?_ _ _ (fun t s h => ?_))
        | apply okept_next | (refine okept_ite (fun _ => ?_) (fun _ => ?_)) | (refine kept_ite (fun _ => ?_) (fun _ => ?_)))
    | (apply kept_upd; first
        | assumption | (refine fun (s : State) (h : Kept cq s) => ?_) | apply State.setIve_kept | apply State.checkTime_kept
        | apply State.iveAccept_kept | apply State.iveRefuse_kept | (refine State.iveDecide_kept ?_ _ _ (fun t s h => ?_))
        | apply okept_next | (refine okept_ite (fun _ => ?_) (fun _ => ?_)) | (refine kept_ite (fun _ => ?_) (fun _ => ?_)))
    | exact cycOk_refl | exact comOk_refl | exact podOk_refl | exact nvOk_refl | lift_lets
    | (refine kept_of_eq (by assumption) ?_) | split
    | dsimp only

theorem execIveSignal_kept {cq : List Instr} {s : State} (h : Kept cq s) (h : IveCheck) : OKept cq (execIveSignal h s) := by
  unfold execIveSignal
  repeat' with_reducible first
    | assumption | (refine fun (s : State) (h : Kept cq s) => ?_) | apply State.checkTime_kept | apply State.iveAccept_kept
    | apply State.iveRefuse_kept | (refine State.iveDecide_kept ?_ _ _ (fun t s h => ?_)) | apply okept_next
    | (refine okept_ite (fun _ => ?_) (fun _ => ?_)) | (refine kept_ite (fun _ => ?_) (fun _ => ?_))
    | (intro x; refine kept_mid (q := cq) (x := x) ?_ ?_; subst x; rotate_left; intro hx; rotate_left) | intro x | lift_lets
    | (refine kept_of_eq (by assumption) ?_) | split | dsimp only

theorem execIveLightCheck_kept {cq : List Instr} {s : State} (h : Kept cq s) (h : IveCheck) :
    OKept cq (execIveLightCheck h s) := by
  unfold execIveLightCheck
  repeat' with_reducible first
    | assumption | (refine fun (s : State) (h : Kept cq s) => ?_) | apply State.setIve_kept | apply State.checkTime_kept
    | apply State.iveAccept_kept | (refine State.iveDecide_kept ?_ _ _ (fun t s h => ?_)) | apply okept_next
    | (refine okept_ite (fun _ => ?_) (fun _ => ?_)) | (refine kept_ite (fun _ => ?_) (fun _ => ?_)) | exact comOk_refl
    | (apply comOk_of (q := cq); assumption) | (apply com_with; first | exact comOk_refl | (apply comOk_of (q := cq); assumption))
    | ((refine com_put ?_ ?_) <;> with_unfolding_all (rintro ⟨_, _⟩; first | assumption | exact Store.wf_set _ _ _ _ ‹_›))
    | (intro x; refine kept_mid (q := cq) (x := x) ?_ ?_; subst x; rotate_left; intro hx; rotate_left) | intro x
    | (apply kept_with; first
        | assumption | (refine fun (s : State) (h : Kept cq s) => ?_) | apply State.setIve_kept | apply State.checkTime_kept
        | apply State.iveAccept_kept | (refine State.iveDecide_kept ?_ _ _ (fun t s h => ?_)) | apply okept_next
        | (refine okept_ite (fun _ => ?_) (fun _ => ?_)) | (refine kept_ite (fun _ => ?_) (fun _ => ?_)))
    | (apply kept_upd; first
        | assumption | (refine fun (s : State) (h : Kept cq s) => ?_) | apply State.setIve_kept | apply State.checkTime_kept
        | apply State.iveAccept_kept | (refine State.iveDecide_kept ?_ _ _ (fun t s h => ?_)) | apply okept_next
        | (refine okept_ite (fun _ => ?_) (fun _ => ?_)) | (refine kept_ite (fun _ => ?_) (fun _ => ?_)))
    | exact cycOk_refl | exact comOk_refl | exact podOk_refl | exact nvOk_refl | lift_lets
    | (refine kept_of_eq (by assumption) ?_) | split
    | dsimp only

theorem iveRelease_kept {cq : List Instr} {s : State} (h : Kept cq s) (modes : Nat → Bool) (f : IveCheck)
    (w : Released → Nat → Nat) {body : Released → Nat → State → Nat × State} (hb : ∀ t r s, Kept cq s → Kept cq (body t r s).2) :
    Kept cq (iveRelease modes f s w body) := by
  unfold iveRelease
  refine State.iveDecide_kept h _ _ fun t s h => ?_
  extract_lets r code s1
  have h1 : Kept cq s1 := State.checkTime_kept h _ _ _
  refine kept_ite (fun _ => State.iveRefuse_kept h1 _ _) fun _ => ?_
  have h2 := hb t r s1 h1
  generalize body t r s1 = z at h2 ⊢
  obtain ⟨c, s2⟩ := z
  exact kept_ite (fun _ => State.iveRefuse_kept h1 _ _) fun _ => State.iveAccept_kept (State.showHold_kept h2) _

theorem execIveReleaseNormal_kept {cq : List Instr} {s : State} (h : Kept cq s) (h : IveCheck) :
    OKept cq (execIveReleaseNormal h s) := by
  unfold execIveReleaseNormal
  repeat' with_reducible first
    | assumption | (refine fun (s : State) (h : Kept cq s) => ?_) | apply State.setIve_kept
    | (apply pea_with; first | assumption | refine pea_canonical (q := cq) ?_ _ | exact pea_reset_canonical _)
    | refine pea_canonical (q := cq) ?_ _ | (refine iveRelease_kept ?_ _ _ _ (fun t r s h => ?_)) | apply okept_next
    | (refine okept_ite (fun _ => ?_) (fun _ => ?_)) | (refine kept_ite (fun _ => ?_) (fun _ => ?_)) | exact cycOk_refl
    | (apply cycOk_of (q := cq); assumption) | (apply cyc_with; first | exact cycOk_refl | (apply cycOk_of (q := cq); assumption))
    | ((refine cyc_put ?_); with_unfolding_all (intro h0; first | exact h0 | omega))
    | (intro x; refine kept_mid (q := cq) (x := x) ?_ ?_; subst x; rotate_left; intro hx; rotate_left) | intro x | lift_lets
    | (refine kept_of_eq (by assumption) ?_) | split | dsimp only

theorem execIveReleaseCancel_kept {cq : List Instr} {s : State} (h : Kept cq s) (h : IveCheck) :
    OKept cq (execIveReleaseCancel h s) := by
  unfold execIveReleaseCancel
  repeat' with_reducible first
    | assumption | (refine fun (s : State) (h : Kept cq s) => ?_) | apply State.raiseEvt_kept | apply State.setIve_kept
    | exact pea_reset_canonical _
    | (apply pea_with; first | assumption | refine pea_canonical (q := cq) ?_ _ | exact pea_reset_canonical _)
    | refine pea_canonical (q := cq) ?_ _ | (refine iveRelease_kept ?_ _ _ _ (fun t r s h => ?_)) | apply okept_next
    | (refine okept_ite (fun _ => ?_) (fun _ => ?_)) | (refine kept_ite (fun _ => ?_) (fun _ => ?_)) | exact cycOk_refl
    | (apply cycOk_of (q := cq); assumption) | (apply cyc_with; first | exact cycOk_refl | (apply cycOk_of (q := cq); assumption))
    | ((refine cyc_put ?_); with_unfolding_all (intro h0; first | exact h0 | omega)) | (refine kept_of_eq (by assumption) ?_)
    | split
    | dsimp only

theorem execIveReleaseEmergency_kept {cq : List Instr} {s : State} (h : Kept cq s) (h : IveCheck) :
    OKept cq (execIveReleaseEmergency h s) := by
  unfold execIveReleaseEmergency
  repeat' with_reducible first
    | assumption | (refine fun (s : State) (h : Kept cq s) => ?_) | apply State.raiseEvt_kept | apply State.raiseRec_kept
    | apply State.setIve_kept | exact pea_reset_canonical _
    | (apply pea_with; first | assumption | refine pea_canonical (q := cq) ?_ _ | exact pea_reset_canonical _)
    | refine pea_canonical (q := cq) ?_ _ | (refine iveRelease_kept ?_ _ _ _ (fun t r s h => ?_)) | apply okept_next
    | (refine okept_ite (fun _ => ?_) (fun _ => ?_)) | (refine kept_ite (fun _ => ?_) (fun _ => ?_)) | exact cycOk_refl
    | (apply cycOk_of (q := cq); assumption) | (apply cyc_with; first | exact cycOk_refl | (apply cycOk_of (q := cq); assumption))
    | ((refine cyc_put ?_); with_unfolding_all (intro h0; first | exact h0 | omega))
    | (intro x; refine kept_mid (q := cq) (x := x) ?_ ?_; subst x; rotate_left; intro hx; rotate_left) | intro x | lift_lets
    | (refine kept_of_eq (by assumption) ?_) | split | dsimp only

theorem execIveTimerExpiry_kept {cq : List Instr} {s : State} (h : Kept cq s) : OKept cq (execIveTimerExpiry s) := by
  unfold execIveTimerExpiry
  repeat' with_reducible first
    | assumption | (refine fun (s : State) (h : Kept cq s) => ?_) | apply State.expireTimers_kept | apply okept_next
    | (refine okept_ite (fun _ => ?_) (fun _ => ?_)) | (refine kept_of_eq (by assumption) ?_) | split | dsimp only

theorem execIveScrub_kept {cq : List Instr} {s : State} (h : Kept cq s) (f : IveFinding) : OKept cq (execIveScrub f s) := by
  unfold execIveScrub
  repeat' with_reducible first
    | assumption | (refine fun (s : State) (h : Kept cq s) => ?_) | apply State.addSat_kept | apply State.raiseEvt_kept
    | apply State.iveFault_kept
    | (apply pea_with; first | assumption | refine pea_canonical (q := cq) ?_ _ | exact pea_reset_canonical _)
    | refine pea_canonical (q := cq) ?_ _ | apply okept_next | (refine okept_ite (fun _ => ?_) (fun _ => ?_))
    | (refine kept_ite (fun _ => ?_) (fun _ => ?_))
    | (intro x; refine kept_mid (q := cq) (x := x) ?_ ?_; subst x; rotate_left; intro hx; rotate_left) | intro x
    | (apply kept_with; first
        | assumption | (refine fun (s : State) (h : Kept cq s) => ?_) | apply State.addSat_kept | apply State.raiseEvt_kept
        | apply State.iveFault_kept
        | (apply pea_with; first | assumption | refine pea_canonical (q := cq) ?_ _ | exact pea_reset_canonical _)
        | refine pea_canonical (q := cq) ?_ _ | apply okept_next | (refine okept_ite (fun _ => ?_) (fun _ => ?_))
        | (refine kept_ite (fun _ => ?_) (fun _ => ?_)))
    | (apply kept_upd; first
        | assumption | (refine fun (s : State) (h : Kept cq s) => ?_) | apply State.addSat_kept | apply State.raiseEvt_kept
        | apply State.iveFault_kept
        | (apply pea_with; first | assumption | refine pea_canonical (q := cq) ?_ _ | exact pea_reset_canonical _)
        | refine pea_canonical (q := cq) ?_ _ | apply okept_next | (refine okept_ite (fun _ => ?_) (fun _ => ?_))
        | (refine kept_ite (fun _ => ?_) (fun _ => ?_)))
    | exact cycOk_refl | exact comOk_refl | exact podOk_refl | exact nvOk_refl | lift_lets
    | (refine kept_of_eq (by assumption) ?_) | split
    | dsimp only

theorem State.settleRole_kept {cq : List Instr} {s : State} (h : Kept cq s) : Kept cq s.settleRole := by
  unfold State.settleRole
  repeat' with_reducible first | assumption | apply State.planRole_kept | split

theorem State.portCycle_kept {cq : List Instr} {s : State} (h : Kept cq s) (r : Nat) : Kept cq (s.portCycle r) := by
  unfold State.portCycle
  repeat' with_reducible first | assumption | apply State.setPort_kept

theorem State.portLaunch_kept {cq : List Instr} {s : State} (h : Kept cq s) (r : Nat) : Kept cq (s.portLaunch r) := by
  unfold State.portLaunch
  repeat' with_reducible first | assumption | apply State.launch_kept | split

theorem State.countClasses_kept {cq : List Instr} {s : State} (h : Kept cq s) (r : Nat) (cs : List WinClass) :
    Kept cq (s.countClasses r cs) := by
  unfold State.countClasses
  repeat' with_reducible first | assumption | apply State.setFld_kept | apply State.addSat_kept | apply State.podCount_kept

theorem State.takeWindows_kept {cq : List Instr} {s : State} (h : Kept cq s) (r : Nat) (f : RingFrame) (cs : List WinClass) :
    Kept cq (s.takeWindows r f cs) := by
  unfold State.takeWindows
  repeat' with_reducible first | assumption | apply State.takeWindow_kept | (refine foldl_kept ?_ (fun s x h => ?_)) | split

theorem State.returnedFull_kept {cq : List Instr} {s : State} (h : Kept cq s) (r : Nat) (f : RingFrame) :
    Kept cq (s.returnedFull r f) := by
  unfold State.returnedFull
  repeat' with_reducible first
    | assumption | apply State.seeClaim_kept | apply State.takeUnitWindow_kept | apply State.containStep_kept
    | apply State.contain_kept
    | apply State.attributeDamage_kept | apply State.countClasses_kept | apply State.takeWindows_kept
    | (apply kept_upd; first
        | assumption | apply State.seeClaim_kept | apply State.takeUnitWindow_kept | apply State.containStep_kept
        | apply State.contain_kept | apply State.attributeDamage_kept | apply State.countClasses_kept
        | apply State.takeWindows_kept | (refine foldl_kept ?_ (fun s x h => ?_)) | (refine kept_ite (fun _ => ?_) (fun _ => ?_)))
    | exact cycOk_refl | exact comOk_refl | exact podOk_refl | exact nvOk_refl | split

theorem execRingCycleStart_kept {cq : List Instr} {s : State} (h : Kept cq s) : OKept cq (execRingCycleStart s) := by
  unfold execRingCycleStart
  lift_lets
  intro c0 c s1 t0 s2 launch
  have h1 : Kept cq s1 := by
    with_reducible apply kept_upd
    · exact h
    · exact cycOk_ite (fun h => h) fun h => h
    all_goals exact fun h => h
  have hl : ∀ s r, Kept cq s → Kept cq (launch s r) := fun s r h => kept_ite (fun _ => h) fun _ => State.portLaunch_kept h _
  exact okept_next (foldl_kept (State.setTwin_kept h1 _) fun s r h => hl _ _ (State.portCycle_kept h _))

theorem execCommandSectionCompose_kept {cq : List Instr} {s : State} (h : Kept cq s) :
    OKept cq (execCommandSectionCompose s) := by
  unfold execCommandSectionCompose
  repeat' with_reducible first
    | assumption | apply State.setReg_kept | apply State.setPort_kept | apply State.settleRole_kept | apply okept_next
    | (apply kept_upd; first
        | assumption | apply State.setReg_kept | apply State.setPort_kept | apply State.settleRole_kept
        | (refine foldl_kept ?_ (fun s x h => ?_)) | (refine kept_ite (fun _ => ?_) (fun _ => ?_)))
    | exact cycOk_refl | exact comOk_refl | exact podOk_refl | exact nvOk_refl

theorem execFrameReturn_kept {cq : List Instr} {s : State} (h : Kept cq s) (r : Fin 4) (x : RingRx) :
    OKept cq (execFrameReturn r x s) := by
  unfold execFrameReturn
  repeat' with_reducible first
    | assumption | apply State.setFld_kept | apply State.setPort_kept | apply State.raiseMax_kept | apply State.podCount_kept
    | apply State.heardValid_kept | apply State.noteDrift_kept | apply State.returnedFull_kept | apply okept_next | split
    | dsimp only

theorem execColdFrame_kept {cq : List Instr} {s : State} (h : Kept cq s) (r : Fin 4) (f : RingRx) :
    OKept cq (execColdFrame r f s) := by
  unfold execColdFrame
  repeat' with_reducible first
    | assumption | (refine fun (s : State) (h : Kept cq s) => ?_) | apply State.ringRx_kept | apply State.yieldTo_kept
    | apply okept_next
    | (refine okept_ite (fun _ => ?_) (fun _ => ?_)) | (refine kept_of_eq (by assumption) ?_) | split | dsimp only

theorem execSurveyFrame_kept {cq : List Instr} {s : State} (h : Kept cq s) (r : Fin 4) (f : RingRx) :
    OKept cq (execSurveyFrame r f s) := by
  unfold execSurveyFrame
  repeat' with_reducible first
    | assumption | (refine fun (s : State) (h : Kept cq s) => ?_) | apply State.ringRx_kept | apply State.takeUnitWindow_kept
    | apply okept_next | (refine okept_ite (fun _ => ?_) (fun _ => ?_)) | (refine kept_of_eq (by assumption) ?_) | split
    | dsimp only

theorem execRunFrame_kept {cq : List Instr} {s : State} (h : Kept cq s) (r : Fin 4) (f : RingRx) :
    OKept cq (execRunFrame r f s) := by
  unfold execRunFrame
  repeat' with_reducible first
    | assumption | apply State.ringRx_kept | apply State.yieldTo_kept | apply State.takeUnitWindow_kept
    | apply State.countClasses_kept
    | apply State.takeWindows_kept | apply okept_next | intro x | split | dsimp only

theorem execStopFrame_kept {cq : List Instr} {s : State} (h : Kept cq s) (r : Fin 4) (f : RingRx) :
    OKept cq (execStopFrame r f s) := by
  unfold execStopFrame
  repeat' with_reducible first
    | assumption | (refine fun (s : State) (h : Kept cq s) => ?_) | apply State.ringRx_kept | apply kept_id | apply okept_next
    | (refine okept_ite (fun _ => ?_) (fun _ => ?_)) | (refine kept_of_eq (by assumption) ?_) | split | dsimp only

theorem execBypassOrder_kept {cq : List Instr} {s : State} (h : Kept cq s) (o : OrderRx) : OKept cq (execBypassOrder o s) := by
  unfold execBypassOrder
  repeat' with_reducible first
    | assumption | (refine fun (s : State) (h : Kept cq s) => ?_) | apply State.obeyBypass_kept | apply State.obeyCode_kept
    | apply okept_next

theorem execCutNextOrder_kept {cq : List Instr} {s : State} (h : Kept cq s) (o : OrderRx) : OKept cq (execCutNextOrder o s) := by
  unfold execCutNextOrder
  repeat' with_reducible first
    | assumption | (refine fun (s : State) (h : Kept cq s) => ?_) | apply State.obeyCutNext_kept | apply State.obeyCode_kept
    | apply okept_next

theorem execJoinOrder_kept {cq : List Instr} {s : State} (h : Kept cq s) (o : OrderRx) : OKept cq (execJoinOrder o s) := by
  unfold execJoinOrder
  repeat' with_reducible first
    | assumption | (refine fun (s : State) (h : Kept cq s) => ?_) | apply State.obeyJoin_kept | apply State.obeyCode_kept
    | apply okept_next

theorem execCutSignalDetected_kept {cq : List Instr} {s : State} (h : Kept cq s) (r : Fin 4) :
    OKept cq (execCutSignalDetected r s) := by
  unfold execCutSignalDetected
  repeat' with_reducible first | assumption | apply State.exclude_kept | apply okept_next

theorem execRelayOperated_kept {cq : List Instr} {s : State} (h : Kept cq s) (r : Fin 4) : OKept cq (execRelayOperated r s) := by
  unfold execRelayOperated
  repeat' with_reducible first
    | assumption | apply State.setFld_kept | apply State.setPort_kept | apply State.enterListen_kept | apply okept_next | split

theorem execListenTimeout_kept {cq : List Instr} {s : State} (h : Kept cq s) (r : Fin 4) : OKept cq (execListenTimeout r s) := by
  unfold execListenTimeout
  repeat' with_reducible first
    | assumption | (refine fun (s : State) (h : Kept cq s) => ?_) | apply State.setRingRole_kept | apply okept_next
    | (refine okept_ite (fun _ => ?_) (fun _ => ?_)) | (refine kept_ite (fun _ => ?_) (fun _ => ?_))
    | (refine kept_of_eq (by assumption) ?_) | split | dsimp only

theorem execPassTimeout_kept {cq : List Instr} {s : State} (h : Kept cq s) (r : Fin 4) : OKept cq (execPassTimeout r s) := by
  unfold execPassTimeout
  repeat' with_reducible first | assumption | apply State.enterListen_kept | apply okept_next | split

theorem execBackoffEnd_kept {cq : List Instr} {s : State} (h : Kept cq s) (r : Fin 4) : OKept cq (execBackoffEnd r s) := by
  unfold execBackoffEnd
  repeat' with_reducible first | assumption | apply State.enterListen_kept | apply okept_next | split

theorem execColdToSurvey_kept {cq : List Instr} {s : State} (h : Kept cq s) (r : Fin 4) : OKept cq (execColdToSurvey r s) := by
  unfold execColdToSurvey
  repeat' with_reducible first
    | assumption | (refine fun (s : State) (h : Kept cq s) => ?_) | apply State.setRingRole_kept | apply okept_next
    | (refine okept_ite (fun _ => ?_) (fun _ => ?_)) | (refine kept_ite (fun _ => ?_) (fun _ => ?_))
    | (intro x; refine kept_mid (q := cq) (x := x) ?_ ?_; subst x; rotate_left; intro hx; rotate_left) | intro x | lift_lets
    | (refine kept_of_eq (by assumption) ?_) | split | dsimp only

theorem execSurveyEnd_kept {cq : List Instr} {s : State} (h : Kept cq s) (r : Fin 4) : OKept cq (execSurveyEnd r s) := by
  unfold execSurveyEnd
  repeat' with_reducible first
    | assumption | apply State.setReg_kept | apply State.raiseEvt_kept | apply State.setRingRole_kept | apply State.addOrder_kept
    | (refine foldl_kept ?_ (fun s x h => ?_)) | apply okept_next | split | dsimp only

theorem execStopSequenceEnd_kept {cq : List Instr} {s : State} (h : Kept cq s) (r : Fin 4) :
    OKept cq (execStopSequenceEnd r s) := by
  unfold execStopSequenceEnd
  repeat' with_reducible first
    | assumption | (refine fun (s : State) (h : Kept cq s) => ?_) | apply State.setPort_kept | apply State.setRingRole_kept
    | apply State.enterListen_kept | apply okept_next | (refine okept_ite (fun _ => ?_) (fun _ => ?_))
    | (refine kept_ite (fun _ => ?_) (fun _ => ?_))
    | (intro x; refine kept_mid (q := cq) (x := x) ?_ ?_; subst x; rotate_left; intro hx; rotate_left) | intro x
    | (apply kept_with; first
        | assumption | (refine fun (s : State) (h : Kept cq s) => ?_) | apply State.setPort_kept | apply State.setRingRole_kept
        | apply State.enterListen_kept | apply okept_next | (refine okept_ite (fun _ => ?_) (fun _ => ?_))
        | (refine kept_ite (fun _ => ?_) (fun _ => ?_)))
    | (apply kept_upd; first
        | assumption | (refine fun (s : State) (h : Kept cq s) => ?_) | apply State.setPort_kept | apply State.setRingRole_kept
        | apply State.enterListen_kept | apply okept_next | (refine okept_ite (fun _ => ?_) (fun _ => ?_))
        | (refine kept_ite (fun _ => ?_) (fun _ => ?_)))
    | exact cycOk_refl | exact comOk_refl | exact podOk_refl | exact nvOk_refl | lift_lets
    | (refine kept_of_eq (by assumption) ?_) | split
    | dsimp only

theorem execHalt_kept {cq : List Instr} {s : State} (h : Kept cq s) (r : Fin 4) : OKept cq (execHalt r s) := by
  unfold execHalt
  repeat' with_reducible first
    | assumption | (refine fun (s : State) (h : Kept cq s) => ?_) | apply State.setFld_kept | apply State.haltRing_kept
    | apply okept_next
    | (refine okept_ite (fun _ => ?_) (fun _ => ?_)) | (refine kept_of_eq (by assumption) ?_) | split | dsimp only

theorem execReadmit_kept {cq : List Instr} {s : State} (h : Kept cq s) (r : Fin 4) (pos : BitVec 10) :
    OKept cq (execReadmit r pos s) := by
  unfold execReadmit
  repeat' with_reducible first
    | assumption | (refine fun (s : State) (h : Kept cq s) => ?_) | apply State.setFld_kept | apply okept_next
    | (refine okept_ite (fun _ => ?_) (fun _ => ?_)) | (refine kept_of_eq (by assumption) ?_) | split | dsimp only

theorem execRingHandback_kept {cq : List Instr} {s : State} (h : Kept cq s) (r : Fin 4) : OKept cq (execRingHandback r s) := by
  unfold execRingHandback
  repeat' with_reducible first
    | assumption | (refine fun (s : State) (h : Kept cq s) => ?_) | apply State.stopRing_kept
    | (apply pea_with; first | assumption | refine pea_canonical (q := cq) ?_ _ | exact pea_reset_canonical _)
    | refine pea_canonical (q := cq) ?_ _ | apply okept_next | (refine okept_ite (fun _ => ?_) (fun _ => ?_))
    | (refine kept_ite (fun _ => ?_) (fun _ => ?_))
    | (intro x; refine kept_mid (q := cq) (x := x) ?_ ?_; subst x; rotate_left; intro hx; rotate_left) | intro x | lift_lets
    | (refine kept_of_eq (by assumption) ?_) | split | dsimp only

theorem ubcBin_kept {cq : List Instr} {s : State} (h : Kept cq s) (p : PeaId) (opcode ops : Nat) (w : BitVec 24)
    (f : Word → Word → Word) : OKept cq (ubcBin p opcode ops w f s) := by
  unfold ubcBin
  repeat' with_reducible first
    | assumption | (refine fun (s : State) (h : Kept cq s) => ?_) | apply okept_next
    | (refine okept_ite (fun _ => ?_) (fun _ => ?_))
    | (refine runInstr_kept ?_ _ _ _ _ (fun x s h => ?_)) | (refine ubcRead_u ?_ _ _ _ (fun v s h => ?_))
    | (refine ubcReg_u ?_ _ _ _ (fun v s h => ?_)) | (refine ubcWrite_u ?_ _ _ _ _ (fun s h => ?_))
    | (refine ubcPut_u ?_ _ _ _ _ (fun s h => ?_)) | apply ubcDone_u | apply ubcTrap_u | apply ukept_done | apply ukept_trap
    | apply ukept_halt | apply ubcCheck_u | (refine ubcVital_u ?_ _ _ _ (fun b s h => ?_)) | (refine ubcSym_u ?_ _ (fun y => ?_))
    | apply ubcBranch_u | (refine ubcTimer_u ?_ _ _ _ (fun y k hk => ?_) (fun y a w0 w1 s h => ?_)) | apply ubcClass_u
    | (refine ubcClassBool_u ?_ _ _ (fun b => ?_)) | (refine ukept_ite (fun _ => ?_) (fun _ => ?_)) | apply ubcEmit_u
    | (refine kept_of_eq (by assumption) ?_) | split | dsimp only

theorem ubcVBin_kept {cq : List Instr} {s : State} (h : Kept cq s) (p : PeaId) (opcode : Nat) (w : BitVec 24)
    (f : Bool → Bool → Bool) : OKept cq (ubcVBin p opcode w f s) := by
  unfold ubcVBin
  repeat' with_reducible first
    | assumption | (refine fun (s : State) (h : Kept cq s) => ?_) | apply State.vital_kept | apply okept_next
    | (refine okept_ite (fun _ => ?_) (fun _ => ?_)) | (refine runInstr_kept ?_ _ _ _ _ (fun x s h => ?_))
    | (refine ubcRead_u ?_ _ _ _ (fun v s h => ?_)) | (refine ubcReg_u ?_ _ _ _ (fun v s h => ?_))
    | (refine ubcWrite_u ?_ _ _ _ _ (fun s h => ?_)) | (refine ubcPut_u ?_ _ _ _ _ (fun s h => ?_)) | apply ubcDone_u
    | apply ubcTrap_u
    | apply ukept_done | apply ukept_trap | apply ukept_halt | apply ubcCheck_u | (refine ubcVital_u ?_ _ _ _ (fun b s h => ?_))
    | (refine ubcSym_u ?_ _ (fun y => ?_)) | apply ubcBranch_u
    | (refine ubcTimer_u ?_ _ _ _ (fun y k hk => ?_) (fun y a w0 w1 s h => ?_))
    | apply ubcClass_u | (refine ubcClassBool_u ?_ _ _ (fun b => ?_)) | (refine ukept_ite (fun _ => ?_) (fun _ => ?_))
    | apply ubcEmit_u
    | (refine kept_of_eq (by assumption) ?_) | split | dsimp only

theorem execAdd_kept {cq : List Instr} {s : State} (h : Kept cq s) (p : PeaId) (w : BitVec 24) : OKept cq (execAdd p w s) := by
  unfold execAdd
  repeat' with_reducible first | assumption | apply ubcBin_kept

theorem execSub_kept {cq : List Instr} {s : State} (h : Kept cq s) (p : PeaId) (w : BitVec 24) : OKept cq (execSub p w s) := by
  unfold execSub
  repeat' with_reducible first | assumption | apply ubcBin_kept

theorem execMul_kept {cq : List Instr} {s : State} (h : Kept cq s) (p : PeaId) (w : BitVec 24) : OKept cq (execMul p w s) := by
  unfold execMul
  repeat' with_reducible first | assumption | apply ubcBin_kept

theorem execDiv_kept {cq : List Instr} {s : State} (h : Kept cq s) (p : PeaId) (w : BitVec 24) : OKept cq (execDiv p w s) := by
  unfold execDiv
  repeat' with_reducible first
    | assumption | (refine fun (s : State) (h : Kept cq s) => ?_) | apply okept_next
    | (refine okept_ite (fun _ => ?_) (fun _ => ?_))
    | (refine runInstr_kept ?_ _ _ _ _ (fun x s h => ?_)) | (refine ubcRead_u ?_ _ _ _ (fun v s h => ?_))
    | (refine ubcReg_u ?_ _ _ _ (fun v s h => ?_)) | (refine ubcWrite_u ?_ _ _ _ _ (fun s h => ?_))
    | (refine ubcPut_u ?_ _ _ _ _ (fun s h => ?_)) | apply ubcDone_u | apply ubcTrap_u | apply ukept_done | apply ukept_trap
    | apply ukept_halt | apply ubcCheck_u | (refine ubcVital_u ?_ _ _ _ (fun b s h => ?_)) | (refine ubcSym_u ?_ _ (fun y => ?_))
    | apply ubcBranch_u | (refine ubcTimer_u ?_ _ _ _ (fun y k hk => ?_) (fun y a w0 w1 s h => ?_)) | apply ubcClass_u
    | (refine ubcClassBool_u ?_ _ _ (fun b => ?_)) | (refine ukept_ite (fun _ => ?_) (fun _ => ?_)) | apply ubcEmit_u
    | (refine kept_of_eq (by assumption) ?_) | split | dsimp only

theorem execMin_kept {cq : List Instr} {s : State} (h : Kept cq s) (p : PeaId) (w : BitVec 24) : OKept cq (execMin p w s) := by
  unfold execMin
  repeat' with_reducible first | assumption | apply ubcBin_kept

theorem execMax_kept {cq : List Instr} {s : State} (h : Kept cq s) (p : PeaId) (w : BitVec 24) : OKept cq (execMax p w s) := by
  unfold execMax
  repeat' with_reducible first | assumption | apply ubcBin_kept

theorem execNeg_kept {cq : List Instr} {s : State} (h : Kept cq s) (p : PeaId) (w : BitVec 24) : OKept cq (execNeg p w s) := by
  unfold execNeg
  repeat' with_reducible first
    | assumption | (refine fun (s : State) (h : Kept cq s) => ?_) | apply okept_next
    | (refine okept_ite (fun _ => ?_) (fun _ => ?_))
    | (refine runInstr_kept ?_ _ _ _ _ (fun x s h => ?_)) | (refine ubcRead_u ?_ _ _ _ (fun v s h => ?_))
    | (refine ubcReg_u ?_ _ _ _ (fun v s h => ?_)) | (refine ubcWrite_u ?_ _ _ _ _ (fun s h => ?_))
    | (refine ubcPut_u ?_ _ _ _ _ (fun s h => ?_)) | apply ubcDone_u | apply ubcTrap_u | apply ukept_done | apply ukept_trap
    | apply ukept_halt | apply ubcCheck_u | (refine ubcVital_u ?_ _ _ _ (fun b s h => ?_)) | (refine ubcSym_u ?_ _ (fun y => ?_))
    | apply ubcBranch_u | (refine ubcTimer_u ?_ _ _ _ (fun y k hk => ?_) (fun y a w0 w1 s h => ?_)) | apply ubcClass_u
    | (refine ubcClassBool_u ?_ _ _ (fun b => ?_)) | (refine ukept_ite (fun _ => ?_) (fun _ => ?_)) | apply ubcEmit_u
    | (refine kept_of_eq (by assumption) ?_) | split | dsimp only

theorem execAddi_kept {cq : List Instr} {s : State} (h : Kept cq s) (p : PeaId) (w : BitVec 24) : OKept cq (execAddi p w s) := by
  unfold execAddi
  repeat' with_reducible first
    | assumption | (refine fun (s : State) (h : Kept cq s) => ?_) | apply okept_next
    | (refine okept_ite (fun _ => ?_) (fun _ => ?_))
    | (refine runInstr_kept ?_ _ _ _ _ (fun x s h => ?_)) | (refine ubcRead_u ?_ _ _ _ (fun v s h => ?_))
    | (refine ubcReg_u ?_ _ _ _ (fun v s h => ?_)) | (refine ubcWrite_u ?_ _ _ _ _ (fun s h => ?_))
    | (refine ubcPut_u ?_ _ _ _ _ (fun s h => ?_)) | apply ubcDone_u | apply ubcTrap_u | apply ukept_done | apply ukept_trap
    | apply ukept_halt | apply ubcCheck_u | (refine ubcVital_u ?_ _ _ _ (fun b s h => ?_)) | (refine ubcSym_u ?_ _ (fun y => ?_))
    | apply ubcBranch_u | (refine ubcTimer_u ?_ _ _ _ (fun y k hk => ?_) (fun y a w0 w1 s h => ?_)) | apply ubcClass_u
    | (refine ubcClassBool_u ?_ _ _ (fun b => ?_)) | (refine ukept_ite (fun _ => ?_) (fun _ => ?_)) | apply ubcEmit_u
    | (refine kept_of_eq (by assumption) ?_) | split | dsimp only

theorem execAndOp_kept {cq : List Instr} {s : State} (h : Kept cq s) (p : PeaId) (w : BitVec 24) :
    OKept cq (execAndOp p w s) := by
  unfold execAndOp
  repeat' with_reducible first | assumption | apply ubcBin_kept

theorem execOrOp_kept {cq : List Instr} {s : State} (h : Kept cq s) (p : PeaId) (w : BitVec 24) : OKept cq (execOrOp p w s) := by
  unfold execOrOp
  repeat' with_reducible first | assumption | apply ubcBin_kept

theorem execXorOp_kept {cq : List Instr} {s : State} (h : Kept cq s) (p : PeaId) (w : BitVec 24) :
    OKept cq (execXorOp p w s) := by
  unfold execXorOp
  repeat' with_reducible first | assumption | apply ubcBin_kept

theorem execShl_kept {cq : List Instr} {s : State} (h : Kept cq s) (p : PeaId) (w : BitVec 24) : OKept cq (execShl p w s) := by
  unfold execShl
  repeat' with_reducible first | assumption | apply ubcBin_kept

theorem execShr_kept {cq : List Instr} {s : State} (h : Kept cq s) (p : PeaId) (w : BitVec 24) : OKept cq (execShr p w s) := by
  unfold execShr
  repeat' with_reducible first | assumption | apply ubcBin_kept

theorem execCeq_kept {cq : List Instr} {s : State} (h : Kept cq s) (p : PeaId) (w : BitVec 24) : OKept cq (execCeq p w s) := by
  unfold execCeq
  repeat' with_reducible first | assumption | apply ubcBin_kept

theorem execClt_kept {cq : List Instr} {s : State} (h : Kept cq s) (p : PeaId) (w : BitVec 24) : OKept cq (execClt p w s) := by
  unfold execClt
  repeat' with_reducible first | assumption | apply ubcBin_kept

theorem ubcVCmp_kept {cq : List Instr} {s : State} (h : Kept cq s) (p : PeaId) (opcode : Nat) (w : BitVec 24)
    (f : Word → Word → Bool) (g : Word → Word → Bool) : OKept cq (ubcVCmp p opcode w f g s) := by
  unfold ubcVCmp
  repeat' with_reducible first
    | assumption | (refine fun (s : State) (h : Kept cq s) => ?_) | apply State.vital_kept | apply okept_next
    | (refine okept_ite (fun _ => ?_) (fun _ => ?_)) | (refine runInstr_kept ?_ _ _ _ _ (fun x s h => ?_))
    | (refine ubcRead_u ?_ _ _ _ (fun v s h => ?_)) | (refine ubcReg_u ?_ _ _ _ (fun v s h => ?_))
    | (refine ubcWrite_u ?_ _ _ _ _ (fun s h => ?_)) | (refine ubcPut_u ?_ _ _ _ _ (fun s h => ?_)) | apply ubcDone_u
    | apply ubcTrap_u
    | apply ukept_done | apply ukept_trap | apply ukept_halt | apply ubcCheck_u | (refine ubcVital_u ?_ _ _ _ (fun b s h => ?_))
    | (refine ubcSym_u ?_ _ (fun y => ?_)) | apply ubcBranch_u
    | (refine ubcTimer_u ?_ _ _ _ (fun y k hk => ?_) (fun y a w0 w1 s h => ?_))
    | apply ubcClass_u | (refine ubcClassBool_u ?_ _ _ (fun b => ?_)) | (refine ukept_ite (fun _ => ?_) (fun _ => ?_))
    | apply ubcEmit_u
    | (refine kept_of_eq (by assumption) ?_) | split | dsimp only

theorem execVceq_kept {cq : List Instr} {s : State} (h : Kept cq s) (p : PeaId) (w : BitVec 24) : OKept cq (execVceq p w s) := by
  unfold execVceq
  repeat' with_reducible first | assumption | apply ubcVCmp_kept

theorem execVclt_kept {cq : List Instr} {s : State} (h : Kept cq s) (p : PeaId) (w : BitVec 24) : OKept cq (execVclt p w s) := by
  unfold execVclt
  repeat' with_reducible first | assumption | apply ubcVCmp_kept

theorem execVand_kept {cq : List Instr} {s : State} (h : Kept cq s) (p : PeaId) (w : BitVec 24) : OKept cq (execVand p w s) := by
  unfold execVand
  repeat' with_reducible first | assumption | apply ubcVBin_kept

theorem execVor_kept {cq : List Instr} {s : State} (h : Kept cq s) (p : PeaId) (w : BitVec 24) : OKept cq (execVor p w s) := by
  unfold execVor
  repeat' with_reducible first | assumption | apply ubcVBin_kept

theorem execVnot_kept {cq : List Instr} {s : State} (h : Kept cq s) (p : PeaId) (w : BitVec 24) : OKept cq (execVnot p w s) := by
  unfold execVnot
  repeat' with_reducible first
    | assumption | (refine fun (s : State) (h : Kept cq s) => ?_) | apply State.vital_kept | apply okept_next
    | (refine okept_ite (fun _ => ?_) (fun _ => ?_)) | (refine runInstr_kept ?_ _ _ _ _ (fun x s h => ?_))
    | (refine ubcRead_u ?_ _ _ _ (fun v s h => ?_)) | (refine ubcReg_u ?_ _ _ _ (fun v s h => ?_))
    | (refine ubcWrite_u ?_ _ _ _ _ (fun s h => ?_)) | (refine ubcPut_u ?_ _ _ _ _ (fun s h => ?_)) | apply ubcDone_u
    | apply ubcTrap_u
    | apply ukept_done | apply ukept_trap | apply ukept_halt | apply ubcCheck_u | (refine ubcVital_u ?_ _ _ _ (fun b s h => ?_))
    | (refine ubcSym_u ?_ _ (fun y => ?_)) | apply ubcBranch_u
    | (refine ubcTimer_u ?_ _ _ _ (fun y k hk => ?_) (fun y a w0 w1 s h => ?_))
    | apply ubcClass_u | (refine ubcClassBool_u ?_ _ _ (fun b => ?_)) | (refine ukept_ite (fun _ => ?_) (fun _ => ?_))
    | apply ubcEmit_u
    | (refine kept_of_eq (by assumption) ?_) | split | dsimp only

theorem execVxor_kept {cq : List Instr} {s : State} (h : Kept cq s) (p : PeaId) (w : BitVec 24) : OKept cq (execVxor p w s) := by
  unfold execVxor
  repeat' with_reducible first | assumption | apply ubcVBin_kept

theorem execVtonb_kept {cq : List Instr} {s : State} (h : Kept cq s) (p : PeaId) (w : BitVec 24) :
    OKept cq (execVtonb p w s) := by
  unfold execVtonb
  repeat' with_reducible first
    | assumption | (refine fun (s : State) (h : Kept cq s) => ?_) | apply okept_next
    | (refine okept_ite (fun _ => ?_) (fun _ => ?_))
    | (refine kept_ite (fun _ => ?_) (fun _ => ?_)) | (refine runInstr_kept ?_ _ _ _ _ (fun x s h => ?_))
    | (refine ubcRead_u ?_ _ _ _ (fun v s h => ?_)) | (refine ubcReg_u ?_ _ _ _ (fun v s h => ?_))
    | (refine ubcWrite_u ?_ _ _ _ _ (fun s h => ?_)) | (refine ubcPut_u ?_ _ _ _ _ (fun s h => ?_)) | apply ubcDone_u
    | apply ubcTrap_u
    | apply ukept_done | apply ukept_trap | apply ukept_halt | apply ubcCheck_u | (refine ubcVital_u ?_ _ _ _ (fun b s h => ?_))
    | (refine ubcSym_u ?_ _ (fun y => ?_)) | apply ubcBranch_u
    | (refine ubcTimer_u ?_ _ _ _ (fun y k hk => ?_) (fun y a w0 w1 s h => ?_))
    | apply ubcClass_u | (refine ubcClassBool_u ?_ _ _ (fun b => ?_)) | (refine ukept_ite (fun _ => ?_) (fun _ => ?_))
    | apply ubcEmit_u
    | (refine kept_of_eq (by assumption) ?_) | split | dsimp only

theorem execVassert_kept {cq : List Instr} {s : State} (h : Kept cq s) (p : PeaId) (w : BitVec 24) :
    OKept cq (execVassert p w s) := by
  unfold execVassert
  repeat' with_reducible first
    | assumption | (refine fun (s : State) (h : Kept cq s) => ?_) | apply okept_next
    | (refine okept_ite (fun _ => ?_) (fun _ => ?_))
    | (refine runInstr_kept ?_ _ _ _ _ (fun x s h => ?_)) | (refine ubcRead_u ?_ _ _ _ (fun v s h => ?_))
    | (refine ubcReg_u ?_ _ _ _ (fun v s h => ?_)) | (refine ubcWrite_u ?_ _ _ _ _ (fun s h => ?_))
    | (refine ubcPut_u ?_ _ _ _ _ (fun s h => ?_)) | apply ubcDone_u | apply ubcTrap_u | apply ukept_done | apply ukept_trap
    | apply ukept_halt | apply ubcCheck_u | (refine ubcVital_u ?_ _ _ _ (fun b s h => ?_)) | (refine ubcSym_u ?_ _ (fun y => ?_))
    | apply ubcBranch_u | (refine ubcTimer_u ?_ _ _ _ (fun y k hk => ?_) (fun y a w0 w1 s h => ?_)) | apply ubcClass_u
    | (refine ubcClassBool_u ?_ _ _ (fun b => ?_)) | (refine ukept_ite (fun _ => ?_) (fun _ => ?_)) | apply ubcEmit_u
    | (refine kept_of_eq (by assumption) ?_) | split | dsimp only

theorem execMov_kept {cq : List Instr} {s : State} (h : Kept cq s) (p : PeaId) (w : BitVec 24) : OKept cq (execMov p w s) := by
  unfold execMov
  repeat' with_reducible first
    | assumption | (refine fun (s : State) (h : Kept cq s) => ?_) | apply okept_next
    | (refine okept_ite (fun _ => ?_) (fun _ => ?_))
    | (refine runInstr_kept ?_ _ _ _ _ (fun x s h => ?_)) | (refine ubcRead_u ?_ _ _ _ (fun v s h => ?_))
    | (refine ubcReg_u ?_ _ _ _ (fun v s h => ?_)) | (refine ubcWrite_u ?_ _ _ _ _ (fun s h => ?_))
    | (refine ubcPut_u ?_ _ _ _ _ (fun s h => ?_)) | apply ubcDone_u | apply ubcTrap_u | apply ukept_done | apply ukept_trap
    | apply ukept_halt | apply ubcCheck_u | (refine ubcVital_u ?_ _ _ _ (fun b s h => ?_)) | (refine ubcSym_u ?_ _ (fun y => ?_))
    | apply ubcBranch_u | (refine ubcTimer_u ?_ _ _ _ (fun y k hk => ?_) (fun y a w0 w1 s h => ?_)) | apply ubcClass_u
    | (refine ubcClassBool_u ?_ _ _ (fun b => ?_)) | (refine ukept_ite (fun _ => ?_) (fun _ => ?_)) | apply ubcEmit_u
    | (refine kept_of_eq (by assumption) ?_) | split | dsimp only

theorem execLdi_kept {cq : List Instr} {s : State} (h : Kept cq s) (p : PeaId) (w : BitVec 24) : OKept cq (execLdi p w s) := by
  unfold execLdi
  repeat' with_reducible first
    | assumption | (refine fun (s : State) (h : Kept cq s) => ?_) | apply okept_next
    | (refine okept_ite (fun _ => ?_) (fun _ => ?_))
    | (refine runInstr_kept ?_ _ _ _ _ (fun x s h => ?_)) | (refine ubcRead_u ?_ _ _ _ (fun v s h => ?_))
    | (refine ubcReg_u ?_ _ _ _ (fun v s h => ?_)) | (refine ubcWrite_u ?_ _ _ _ _ (fun s h => ?_))
    | (refine ubcPut_u ?_ _ _ _ _ (fun s h => ?_)) | apply ubcDone_u | apply ubcTrap_u | apply ukept_done | apply ukept_trap
    | apply ukept_halt | apply ubcCheck_u | (refine ubcVital_u ?_ _ _ _ (fun b s h => ?_)) | (refine ubcSym_u ?_ _ (fun y => ?_))
    | apply ubcBranch_u | (refine ubcTimer_u ?_ _ _ _ (fun y k hk => ?_) (fun y a w0 w1 s h => ?_)) | apply ubcClass_u
    | (refine ubcClassBool_u ?_ _ _ (fun b => ?_)) | (refine ukept_ite (fun _ => ?_) (fun _ => ?_)) | apply ubcEmit_u
    | (refine kept_of_eq (by assumption) ?_) | split | dsimp only

theorem execLdih_kept {cq : List Instr} {s : State} (h : Kept cq s) (p : PeaId) (w : BitVec 24) : OKept cq (execLdih p w s) := by
  unfold execLdih
  repeat' with_reducible first
    | assumption | (refine fun (s : State) (h : Kept cq s) => ?_) | apply okept_next
    | (refine okept_ite (fun _ => ?_) (fun _ => ?_))
    | (refine runInstr_kept ?_ _ _ _ _ (fun x s h => ?_)) | (refine ubcRead_u ?_ _ _ _ (fun v s h => ?_))
    | (refine ubcReg_u ?_ _ _ _ (fun v s h => ?_)) | (refine ubcWrite_u ?_ _ _ _ _ (fun s h => ?_))
    | (refine ubcPut_u ?_ _ _ _ _ (fun s h => ?_)) | apply ubcDone_u | apply ubcTrap_u | apply ukept_done | apply ukept_trap
    | apply ukept_halt | apply ubcCheck_u | (refine ubcVital_u ?_ _ _ _ (fun b s h => ?_)) | (refine ubcSym_u ?_ _ (fun y => ?_))
    | apply ubcBranch_u | (refine ubcTimer_u ?_ _ _ _ (fun y k hk => ?_) (fun y a w0 w1 s h => ?_)) | apply ubcClass_u
    | (refine ubcClassBool_u ?_ _ _ (fun b => ?_)) | (refine ukept_ite (fun _ => ?_) (fun _ => ?_)) | apply ubcEmit_u
    | (refine kept_of_eq (by assumption) ?_) | split | dsimp only

theorem execVconst_kept {cq : List Instr} {s : State} (h : Kept cq s) (p : PeaId) (w : BitVec 24) :
    OKept cq (execVconst p w s) := by
  unfold execVconst
  repeat' with_reducible first
    | assumption | (refine fun (s : State) (h : Kept cq s) => ?_) | apply okept_next
    | (refine okept_ite (fun _ => ?_) (fun _ => ?_))
    | (refine runInstr_kept ?_ _ _ _ _ (fun x s h => ?_)) | (refine ubcRead_u ?_ _ _ _ (fun v s h => ?_))
    | (refine ubcReg_u ?_ _ _ _ (fun v s h => ?_)) | (refine ubcWrite_u ?_ _ _ _ _ (fun s h => ?_))
    | (refine ubcPut_u ?_ _ _ _ _ (fun s h => ?_)) | apply ubcDone_u | apply ubcTrap_u | apply ukept_done | apply ukept_trap
    | apply ukept_halt | apply ubcCheck_u | (refine ubcVital_u ?_ _ _ _ (fun b s h => ?_)) | (refine ubcSym_u ?_ _ (fun y => ?_))
    | apply ubcBranch_u | (refine ubcTimer_u ?_ _ _ _ (fun y k hk => ?_) (fun y a w0 w1 s h => ?_)) | apply ubcClass_u
    | (refine ubcClassBool_u ?_ _ _ (fun b => ?_)) | (refine ukept_ite (fun _ => ?_) (fun _ => ?_)) | apply ubcEmit_u
    | (refine kept_of_eq (by assumption) ?_) | split | dsimp only

theorem execLd_kept {cq : List Instr} {s : State} (h : Kept cq s) (p : PeaId) (w : BitVec 24) : OKept cq (execLd p w s) := by
  unfold execLd
  repeat' with_reducible first
    | assumption | (refine fun (s : State) (h : Kept cq s) => ?_) | apply State.peaCount_kept
    | (apply pea_with; first | assumption | refine pea_canonical (q := cq) ?_ _ | exact pea_reset_canonical _)
    | refine pea_canonical (q := cq) ?_ _ | apply okept_next | (refine okept_ite (fun _ => ?_) (fun _ => ?_))
    | (refine kept_ite (fun _ => ?_) (fun _ => ?_)) | (refine runInstr_kept ?_ _ _ _ _ (fun x s h => ?_))
    | (refine ubcRead_u ?_ _ _ _ (fun v s h => ?_)) | (refine ubcReg_u ?_ _ _ _ (fun v s h => ?_))
    | (refine ubcWrite_u ?_ _ _ _ _ (fun s h => ?_)) | (refine ubcPut_u ?_ _ _ _ _ (fun s h => ?_)) | apply ubcDone_u
    | apply ubcTrap_u
    | apply ukept_done | apply ukept_trap | apply ukept_halt | apply ubcCheck_u | (refine ubcVital_u ?_ _ _ _ (fun b s h => ?_))
    | (refine ubcSym_u ?_ _ (fun y => ?_)) | apply ubcBranch_u
    | (refine ubcTimer_u ?_ _ _ _ (fun y k hk => ?_) (fun y a w0 w1 s h => ?_))
    | apply ubcClass_u | (refine ubcClassBool_u ?_ _ _ (fun b => ?_)) | (refine ukept_ite (fun _ => ?_) (fun _ => ?_))
    | apply ubcEmit_u
    | (intro x; refine kept_mid (q := cq) (x := x) ?_ ?_; subst x; rotate_left; intro hx; rotate_left) | intro x
    | (apply kept_with; first
        | assumption | (refine fun (s : State) (h : Kept cq s) => ?_) | apply State.peaCount_kept
        | (apply pea_with; first | assumption | refine pea_canonical (q := cq) ?_ _ | exact pea_reset_canonical _)
        | refine pea_canonical (q := cq) ?_ _ | apply okept_next | (refine okept_ite (fun _ => ?_) (fun _ => ?_))
        | (refine kept_ite (fun _ => ?_) (fun _ => ?_)) | (refine runInstr_kept ?_ _ _ _ _ (fun x s h => ?_))
        | (refine ubcRead_u ?_ _ _ _ (fun v s h => ?_)) | (refine ubcReg_u ?_ _ _ _ (fun v s h => ?_))
        | (refine ubcWrite_u ?_ _ _ _ _ (fun s h => ?_)) | (refine ubcPut_u ?_ _ _ _ _ (fun s h => ?_)) | apply ubcDone_u
        | apply ubcTrap_u | apply ukept_done | apply ukept_trap | apply ukept_halt | apply ubcCheck_u
        | (refine ubcVital_u ?_ _ _ _ (fun b s h => ?_)) | (refine ubcSym_u ?_ _ (fun y => ?_)) | apply ubcBranch_u
        | (refine ubcTimer_u ?_ _ _ _ (fun y k hk => ?_) (fun y a w0 w1 s h => ?_)) | apply ubcClass_u
        | (refine ubcClassBool_u ?_ _ _ (fun b => ?_)) | (refine ukept_ite (fun _ => ?_) (fun _ => ?_)) | apply ubcEmit_u)
    | (apply kept_upd; first
        | assumption | (refine fun (s : State) (h : Kept cq s) => ?_) | apply State.peaCount_kept
        | (apply pea_with; first | assumption | refine pea_canonical (q := cq) ?_ _ | exact pea_reset_canonical _)
        | refine pea_canonical (q := cq) ?_ _ | apply okept_next | (refine okept_ite (fun _ => ?_) (fun _ => ?_))
        | (refine kept_ite (fun _ => ?_) (fun _ => ?_)) | (refine runInstr_kept ?_ _ _ _ _ (fun x s h => ?_))
        | (refine ubcRead_u ?_ _ _ _ (fun v s h => ?_)) | (refine ubcReg_u ?_ _ _ _ (fun v s h => ?_))
        | (refine ubcWrite_u ?_ _ _ _ _ (fun s h => ?_)) | (refine ubcPut_u ?_ _ _ _ _ (fun s h => ?_)) | apply ubcDone_u
        | apply ubcTrap_u | apply ukept_done | apply ukept_trap | apply ukept_halt | apply ubcCheck_u
        | (refine ubcVital_u ?_ _ _ _ (fun b s h => ?_)) | (refine ubcSym_u ?_ _ (fun y => ?_)) | apply ubcBranch_u
        | (refine ubcTimer_u ?_ _ _ _ (fun y k hk => ?_) (fun y a w0 w1 s h => ?_)) | apply ubcClass_u
        | (refine ubcClassBool_u ?_ _ _ (fun b => ?_)) | (refine ukept_ite (fun _ => ?_) (fun _ => ?_)) | apply ubcEmit_u)
    | exact cycOk_refl | exact comOk_refl | exact podOk_refl | exact nvOk_refl | lift_lets
    | (refine kept_of_eq (by assumption) ?_) | split
    | dsimp only

theorem execSt_kept {cq : List Instr} {s : State} (h : Kept cq s) (p : PeaId) (w : BitVec 24) : OKept cq (execSt p w s) := by
  unfold execSt
  repeat' with_reducible first
    | assumption | (refine fun (s : State) (h : Kept cq s) => ?_) | apply State.peaCount_kept
    | (apply pea_with; first | assumption | refine pea_canonical (q := cq) ?_ _ | exact pea_reset_canonical _)
    | refine pea_canonical (q := cq) ?_ _ | apply kept_id | apply okept_next | (refine okept_ite (fun _ => ?_) (fun _ => ?_))
    | (refine kept_ite (fun _ => ?_) (fun _ => ?_)) | (refine runInstr_kept ?_ _ _ _ _ (fun x s h => ?_))
    | (refine ubcRead_u ?_ _ _ _ (fun v s h => ?_)) | (refine ubcReg_u ?_ _ _ _ (fun v s h => ?_))
    | (refine ubcWrite_u ?_ _ _ _ _ (fun s h => ?_)) | (refine ubcPut_u ?_ _ _ _ _ (fun s h => ?_)) | apply ubcDone_u
    | apply ubcTrap_u
    | apply ukept_done | apply ukept_trap | apply ukept_halt | apply ubcCheck_u | (refine ubcVital_u ?_ _ _ _ (fun b s h => ?_))
    | (refine ubcSym_u ?_ _ (fun y => ?_)) | apply ubcBranch_u
    | (refine ubcTimer_u ?_ _ _ _ (fun y k hk => ?_) (fun y a w0 w1 s h => ?_))
    | apply ubcClass_u | (refine ubcClassBool_u ?_ _ _ (fun b => ?_)) | (refine ukept_ite (fun _ => ?_) (fun _ => ?_))
    | apply ubcEmit_u
    | (intro x; refine kept_mid (q := cq) (x := x) ?_ ?_; subst x; rotate_left; intro hx; rotate_left) | intro x | lift_lets
    | (refine kept_of_eq (by assumption) ?_) | split | dsimp only

theorem execSymh_kept {cq : List Instr} {s : State} (h : Kept cq s) (p : PeaId) (w : BitVec 24) : OKept cq (execSymh p w s) := by
  unfold execSymh
  repeat' with_reducible first
    | assumption | (refine fun (s : State) (h : Kept cq s) => ?_) | apply okept_next
    | (refine okept_ite (fun _ => ?_) (fun _ => ?_))
    | (refine runInstr_kept ?_ _ _ _ _ (fun x s h => ?_)) | (refine ubcRead_u ?_ _ _ _ (fun v s h => ?_))
    | (refine ubcReg_u ?_ _ _ _ (fun v s h => ?_)) | (refine ubcWrite_u ?_ _ _ _ _ (fun s h => ?_))
    | (refine ubcPut_u ?_ _ _ _ _ (fun s h => ?_)) | apply ubcDone_u | apply ubcTrap_u | apply ukept_done | apply ukept_trap
    | apply ukept_halt | apply ubcCheck_u | (refine ubcVital_u ?_ _ _ _ (fun b s h => ?_)) | (refine ubcSym_u ?_ _ (fun y => ?_))
    | apply ubcBranch_u | (refine ubcTimer_u ?_ _ _ _ (fun y k hk => ?_) (fun y a w0 w1 s h => ?_)) | apply ubcClass_u
    | (refine ubcClassBool_u ?_ _ _ (fun b => ?_)) | (refine ukept_ite (fun _ => ?_) (fun _ => ?_)) | apply ubcEmit_u
    | (refine kept_of_eq (by assumption) ?_) | split | dsimp only

theorem execLdx_kept {cq : List Instr} {s : State} (h : Kept cq s) (p : PeaId) (w : BitVec 24) : OKept cq (execLdx p w s) := by
  unfold execLdx
  repeat' with_reducible first
    | assumption | (refine fun (s : State) (h : Kept cq s) => ?_) | apply State.peaCount_kept
    | (apply pea_with; first | assumption | refine pea_canonical (q := cq) ?_ _ | exact pea_reset_canonical _)
    | refine pea_canonical (q := cq) ?_ _ | apply okept_next | (refine okept_ite (fun _ => ?_) (fun _ => ?_))
    | (refine runInstr_kept ?_ _ _ _ _ (fun x s h => ?_)) | (refine ubcRead_u ?_ _ _ _ (fun v s h => ?_))
    | (refine ubcReg_u ?_ _ _ _ (fun v s h => ?_)) | (refine ubcWrite_u ?_ _ _ _ _ (fun s h => ?_))
    | (refine ubcPut_u ?_ _ _ _ _ (fun s h => ?_)) | apply ubcDone_u | apply ubcTrap_u | apply ukept_done | apply ukept_trap
    | apply ukept_halt | apply ubcCheck_u | (refine ubcVital_u ?_ _ _ _ (fun b s h => ?_)) | (refine ubcSym_u ?_ _ (fun y => ?_))
    | apply ubcBranch_u | (refine ubcTimer_u ?_ _ _ _ (fun y k hk => ?_) (fun y a w0 w1 s h => ?_)) | apply ubcClass_u
    | (refine ubcClassBool_u ?_ _ _ (fun b => ?_)) | (refine ukept_ite (fun _ => ?_) (fun _ => ?_)) | apply ubcEmit_u
    | (refine kept_of_eq (by assumption) ?_) | split | dsimp only

theorem execStx_kept {cq : List Instr} {s : State} (h : Kept cq s) (p : PeaId) (w : BitVec 24) : OKept cq (execStx p w s) := by
  unfold execStx
  repeat' with_reducible first
    | assumption | (refine fun (s : State) (h : Kept cq s) => ?_) | apply State.peaCount_kept
    | (apply pea_with; first | assumption | refine pea_canonical (q := cq) ?_ _ | exact pea_reset_canonical _)
    | refine pea_canonical (q := cq) ?_ _ | apply kept_id | apply okept_next | (refine okept_ite (fun _ => ?_) (fun _ => ?_))
    | (refine kept_ite (fun _ => ?_) (fun _ => ?_)) | (refine runInstr_kept ?_ _ _ _ _ (fun x s h => ?_))
    | (refine ubcRead_u ?_ _ _ _ (fun v s h => ?_)) | (refine ubcReg_u ?_ _ _ _ (fun v s h => ?_))
    | (refine ubcWrite_u ?_ _ _ _ _ (fun s h => ?_)) | (refine ubcPut_u ?_ _ _ _ _ (fun s h => ?_)) | apply ubcDone_u
    | apply ubcTrap_u
    | apply ukept_done | apply ukept_trap | apply ukept_halt | apply ubcCheck_u | (refine ubcVital_u ?_ _ _ _ (fun b s h => ?_))
    | (refine ubcSym_u ?_ _ (fun y => ?_)) | apply ubcBranch_u
    | (refine ubcTimer_u ?_ _ _ _ (fun y k hk => ?_) (fun y a w0 w1 s h => ?_))
    | apply ubcClass_u | (refine ubcClassBool_u ?_ _ _ (fun b => ?_)) | (refine ukept_ite (fun _ => ?_) (fun _ => ?_))
    | apply ubcEmit_u
    | (intro x; refine kept_mid (q := cq) (x := x) ?_ ?_; subst x; rotate_left; intro hx; rotate_left) | intro x | lift_lets
    | (refine kept_of_eq (by assumption) ?_) | split | dsimp only

theorem State.tickPea_kept {cq : List Instr} {s : State} (h : Kept cq s) (p : PeaId) : Kept cq (s.tickPea p) := by
  unfold State.tickPea
  repeat' with_reducible first
    | assumption | (refine fun (s : State) (h : Kept cq s) => ?_) | apply State.setFld_kept
    | (apply pea_with; first | assumption | refine pea_canonical (q := cq) ?_ _ | exact pea_reset_canonical _)
    | refine pea_canonical (q := cq) ?_ _ | (refine kept_ite (fun _ => ?_) (fun _ => ?_))
    | (intro x; refine kept_mid (q := cq) (x := x) ?_ ?_; subst x; rotate_left; intro hx; rotate_left) | intro x | lift_lets
    | (refine kept_of_eq (by assumption) ?_) | split | dsimp only

theorem State.tickLevels_kept {cq : List Instr} {s : State} (h : Kept cq s) (p : PeaId) : Kept cq (s.tickLevels p) := by
  unfold State.tickLevels
  repeat' with_reducible first
    | assumption | apply State.cntAdd_kept | (refine foldl_kept ?_ (fun s x h => ?_)) | split | dsimp only

theorem State.trimTime_kept {cq : List Instr} {s : State} (h : Kept cq s) : Kept cq s.trimTime := by
  unfold State.trimTime
  repeat' with_reducible first
    | assumption | apply State.setClock_kept | (apply kept_upd; first | assumption | apply State.setClock_kept) | exact cycOk_refl
    | exact comOk_refl | exact podOk_refl | exact nvOk_refl

theorem State.tickTime_kept {cq : List Instr} {s : State} (h : Kept cq s) : Kept cq s.tickTime := by
  unfold State.tickTime
  repeat' with_reducible first
    | assumption | apply State.slewBy_kept | apply State.trimTime_kept
    | (apply kept_upd; first
        | assumption | apply State.slewBy_kept | apply State.trimTime_kept | (refine kept_ite (fun _ => ?_) (fun _ => ?_)))
    | exact cycOk_refl | exact comOk_refl | exact podOk_refl | exact nvOk_refl

theorem State.tick_kept {cq : List Instr} {s : State} (h : Kept cq s) : Kept cq s.tick := by
  unfold State.tick
  repeat' with_reducible first
    | assumption | apply State.setFld_kept | apply State.tickPea_kept | apply State.tickLevels_kept | apply State.tickTime_kept
    | (refine foldl_kept ?_ (fun s x h => ?_))

end Sys2Proof.Machine
end

