-- ==== Sys2Proof/Laws/Ubc.lean ====
section
/-! SUPPORT. The laws of UBC instructions: what the sampling leaves alone, reading and writing working registers and memory words, and
how an instruction ends. -/

namespace Sys2Proof.Machine

open State

theorem logged_refl (s : State) : logged s s := ⟨rfl, fun _ _ => rfl⟩
theorem logged_trans {s t u : State} (h : logged s t) (k : logged t u) : logged s u := by
  refine ⟨?_, fun a ha => (k.2 a ha).trans (h.2 a ha)⟩
  rw [k.1]; simp only; rw [h.1]
theorem logged_of_noted {s t : State} (h : noted s t) : logged s t := by
  refine ⟨?_, h.2⟩
  rw [h.1]
theorem logged_of_pmon (s : State) (x : PmonState) : logged s { s with pmon := x } := ⟨rfl, fun _ _ => rfl⟩

theorem sampleTry_logged (s : State) (p : PeaId) (x : Release) (op : Nat) : logged s (sampleTry s p x op) := by
  unfold sampleTry
  extract_lets n l w0 t1 f z w1 t2
  split
  · exact logged_refl _
  · have h1 : logged s t1 := logged_of_pmon _ _
    split
    · exact h1
    · have h2 : logged t1 t2 := logged_of_pmon t1 _
      exact logged_trans h1 (logged_trans h2 (logged_of_noted (setFld_noted _ _ _ (by decide))))

theorem logged_pea {s t : State} (h : logged s t) (p : PeaId) : t.pea p = s.pea p := by
  rw [h.1]; cases p <;> rfl
theorem logged_prog {s t : State} (h : logged s t) : t.prog = s.prog := by
  rw [h.1]
theorem pea_setPea (s : State) (p : PeaId) (y : Pea) : (s.setPea p y).pea p = y := by cases p <;> rfl
theorem logged_setPea {s t : State} (h : logged s t) (p : PeaId) (y : Pea) : logged (s.setPea p y) (t.setPea p y) := by
  refine ⟨?_, fun a ha => ?_⟩
  · have := h.1
    cases p <;> (simp only [State.setPea]; rw [this])
  · have := h.2 a ha
    cases p <;> exact this

theorem readWord_clean (s : State) (p : PeaId) (m : MemKind) (w : Nat) (h : (s.pea p).upsets = []) (hw : w < 2 ^ memBits m) :
    s.readWord p m w = (s, some (peaGet p (s.pea p) m w)) := by
  unfold State.readWord
  simp [h, wrongBits, Nat.mod_eq_of_lt hw]

theorem ubcReg_clean (s : State) (p : PeaId) (x : Release) (r : Nat) (k : Word → UbcK) (h : (s.pea p).upsets = [])
    (hx : x.slot < 32) (hr : r < 64) : ubcReg p x r k s = k (s.workReg p x r) s := by
  unfold ubcReg ubcRead
  rw [readWord_clean s p .ctx _ h (by simp only [memBits]; omega)]
  rfl

/-- The fetch of a pea in RUN without an upset bit changes nothing. -/
theorem fetchWord_clean (s : State) (p : PeaId) (x : Release) (h : (s.pea p).upsets = []) (hr : s.peaState p = 3)
    (hh : s.pod.half ≤ 1) : fetchWord s p x = (s, true) := by
  unfold fetchWord
  have ha : s.pod.half * 2 ^ 20 + x.pc % 2 ^ 20 < 2 ^ memBits .mram := by
    have := Nat.mod_lt x.pc (Nat.two_pow_pos 20)
    simp only [memBits]
    omega
  simp only [readWord_clean s p .mram _ h ha, leavePipe, hr]
  rfl

theorem runInstr_of (s : State) (p : PeaId) (x : Release) (op n : Nat) (body : Release → UbcK) (h : s.Runs p x n)
    (s' : State) (t : Option Nat) (hb : body x (sampleTry s p x op) = .done s' t) :
    runInstr p op n true body s = .next (finishInstr s' p x n t) := by
  unfold runInstr
  have hm : maxOps (sampleTry s p x op) x.slot = maxOps s x.slot := by
    unfold maxOps State.taskDef; rw [logged_prog (sampleTry_logged s p x op)]
  have hmay : mayRun s p 1 = true := by simp [mayRun, h.run]
  have hfit : ¬ maxOps s x.slot < x.ops + n := by have := h.fits; omega
  rw [h.cur]
  simp only [hmay, fetchWord_clean s p x h.clean h.run h.half, hm, hb, hfit, not_true_eq_false, ↓reduceIte]

theorem peaNum_lt (p : PeaId) : peaNum p < 3 := by cases p <;> decide

theorem finishInstr_of (s : State) (p : PeaId) (x : Release) (n : Nat) (t : Option Nat) (hc : (s.pea p).cur = some x)
    (hl : t ≠ none ∨ s.notLast x) :
    logged (s.setPea p ((s.pea p).goesOn x n (t.getD (x.pc + 1)))) (finishInstr s p x n t) := by
  unfold finishInstr
  simp only [hc]
  rw [if_neg (by
    rintro ⟨h0, h⟩
    rcases hl with h1 | ⟨d, hd, hp⟩
    · exact h1 h0
    · rw [hd] at h; exact hp h.symm)]
  refine logged_trans ?_ (logged_of_noted (peaCount_noted _ _ _ _ (peaNum_lt p)))
  refine logged_trans ?_ (logged_of_noted (peaCount_noted _ _ _ _ (peaNum_lt p)))
  exact logged_of_pmon _ _

theorem setPea_setPea (s : State) (p : PeaId) (x y : Pea) : (s.setPea p x).setPea p y = s.setPea p y := by cases p <;> rfl

theorem writeWord_ctx (s : State) (p : PeaId) (w : Nat) (v : Word) :
    s.writeWord p .ctx w v = s.setPea p (peaPut p (s.pea p) .ctx w v) := by
  unfold State.writeWord peaStore
  cases s.prog <;> rfl

theorem peaPut_cur (p : PeaId) (x : Pea) (m : MemKind) (w : Nat) (v : Word) : (peaPut p x m w v).cur = x.cur := by
  cases m <;> rfl

theorem setPea_taskDef (s : State) (p : PeaId) (y : Pea) (i : Nat) : (s.setPea p y).taskDef i = s.taskDef i := by
  cases p <;> rfl

theorem logged_taskDef {s t : State} (h : logged s t) (i : Nat) : t.taskDef i = s.taskDef i := by
  unfold State.taskDef; rw [logged_prog h]

theorem logged_symbol {s t : State} (h : logged s t) (i : Nat) : t.symbol i = s.symbol i := by
  unfold State.symbol; rw [logged_prog h]

theorem logged_symAddr {s t : State} (h : logged s t) (y : Symbol) (b i : Nat) : t.symAddr y b i = s.symAddr y b i := by
  unfold State.symAddr
  rw [logged_prog h]
  have : t.pod = s.pod := by rw [h.1]
  rw [this]

/-- An instruction whose effect on the pea leaves it as `y`. -/
theorem done_logged {s u : State} {p : PeaId} {y : Pea} (h : logged (s.setPea p y) u) (x : Release) (n : Nat) (t : Option Nat)
    (hc : y.cur = some x) (hl : t ≠ none ∨ s.notLast x) :
    logged (s.setPea p (y.goesOn x n (t.getD (x.pc + 1)))) (finishInstr u p x n t) := by
  have hp := logged_pea h p
  rw [pea_setPea] at hp
  have hf := finishInstr_of u p x n t (by rw [hp, hc]) (by
    rcases hl with h1 | ⟨e, he, hne⟩
    · exact Or.inl h1
    · exact Or.inr ⟨e, by rw [logged_taskDef h, setPea_taskDef, he], hne⟩)
  refine logged_trans ?_ hf
  have := logged_setPea h p (y.goesOn x n (t.getD (x.pc + 1)))
  rw [setPea_setPea] at this
  rw [hp]
  exact this

/-- A register write. -/
theorem put_logged {s u : State} (h : logged s u) (p : PeaId) (w : Nat) (v : Word) :
    logged (s.setPea p (peaPut p (s.pea p) .ctx w v)) (u.writeWord p .ctx w v) := by
  rw [writeWord_ctx, logged_pea h p]
  exact logged_setPea h p _

/-- A write of any memory. -/
theorem write_logged {s u : State} (h : logged s u) (p : PeaId) (m : MemKind) (w : Nat) (v : Word) :
    logged (s.setPea p (peaStore s.prog p (s.pea p) m w v)) (u.writeWord p m w v) := by
  unfold State.writeWord
  rw [logged_pea h p, logged_prog h]
  exact logged_setPea h p _

/-- An instruction whose body ends with the pea as `y`. -/
theorem run_of {s : State} {p : PeaId} {x : Release} {op n : Nat} {enc : Bool} {body : Release → UbcK} (y : Pea) (t : Option Nat)
    (h : s.Runs p x n) (he : enc = true)
    (hb : ∃ u, body x (sampleTry s p x op) = .done u t ∧ logged (s.setPea p y) u) (hc : y.cur = some x) (hl : t ≠ none ∨ s.notLast x) :
    ∃ t', runInstr p op n enc body s = .next t' ∧ logged (s.setPea p (y.goesOn x n (t.getD (x.pc + 1)))) t' := by
  obtain ⟨u, e, hu⟩ := hb
  subst he
  exact ⟨_, runInstr_of s p x op n body h u t e, done_logged hu x n t hc hl⟩

theorem opQ_lt (w : BitVec 24) : opQ w < 64 := by unfold opQ bitsOf; omega
theorem opA_lt (w : BitVec 24) : opA w < 64 := by unfold opA bitsOf; omega
theorem opB_lt (w : BitVec 24) : opB w < 64 := by unfold opB bitsOf; omega
theorem opD_lt (w : BitVec 24) : opD w < 64 := by unfold opD bitsOf; omega

theorem logged_workReg {s u : State} (h : logged s u) (p : PeaId) (x : Release) (r : Nat) : u.workReg p x r = s.workReg p x r := by
  unfold State.workReg; rw [logged_pea h p]

theorem ubcBin_of (s : State) (p : PeaId) (x : Release) (op n : Nat) (w : BitVec 24) (f : Word → Word → Word) (h : s.Runs p x n)
    (hl : s.notLast x) (hw : zero w 5 0 = true) : ∃ t, ubcBin p op n w f s = .next t ∧
      logged (s.setPea p ((peaPut p (s.pea p) .ctx (x.slot * 64 + opD w)
        (f (s.workReg p x (opA w)) (s.workReg p x (opB w)))).goesOn x n (x.pc + 1))) t := by
  have hg := sampleTry_logged s p x op
  have hc := h.clean
  rw [← logged_pea hg p] at hc
  unfold ubcBin
  rw [hw, runInstr_of s p x op n _ h _ none (by
    rw [ubcReg_clean _ p x _ _ hc h.slot (opA_lt w), ubcReg_clean _ p x _ _ hc h.slot (opB_lt w), logged_workReg hg, logged_workReg hg]
    rfl)]
  exact ⟨_, rfl, done_logged (put_logged hg p _ _) x n none (by rw [peaPut_cur, h.cur]) (Or.inr hl)⟩

end Sys2Proof.Machine
end

