-- ==== Sys2Proof/Tests/Slice0.lean ====
section
/-! SUPPORT. The model's own tests: for every statement with hypotheses a state and operands that meet them (the theorems `witness_…`, one
conjunct for each clause that has hypotheses of its own), small single-step results worked out by hand from the spec's tables (`test_…`),
and for each check of well-formedness a command that it refuses (`smoke_…`). -/

namespace Sys2Proof.Tests
open Sys2Proof.Machine

-- One theorem at a time: each kernel evaluation would else take a thread of its own.
set_option Elab.async false

/-! ### Helpers -/

/-- The state after a command. -/
def after (c : Instr) (s : State) : State := stateOf (exec c s) s

/-- A state with these fields set. -/
def withFlds (s : State) (l : List (Field × Nat)) : State := l.foldl (fun t e => t.setFld e.1 e.2) s

/-- A state with these registers set. -/
def withRegs (s : State) (l : List (Nat × Word)) : State := l.foldl (fun t e => t.setReg e.1 e.2) s

/-- A module in operating state `n`, not in OFF's reset. -/
def mode (n : Nat) (l : List (Field × Nat)) : State :=
  withFlds { State.reset with boot := { State.reset.boot with off := false, running := true } } ((Fld.SYS_STAT_STATE, n) :: l)

/-! ### UBC -/

/-- A program with one task, a few symbols and a few objects. -/
def prog0 : Program :=
  { imgId := 1, base := 0, compat := 0, famlvl := 0, seg := 0,
    symbolTable := [⟨1, 0x34000000, 0⟩, ⟨2, 0x36000004, 4⟩, ⟨3, 0x54000008, 5⟩, ⟨4, 0x6400000C, 0⟩],
    tasks := [⟨0, 0, 0, 99, 1000, 8, [], [], []⟩], objects := [8, 8, 8, 8, 0, 0], objectNumbers := [], bindings := [],
    code := [(0, 0x7C000000)], declared := [(0, 64)], scratchDeclared := [], bank0 := 0, bank1 := 0, bankWords := 0, imageLayout := [],
    initial := [], ive := [], regs := [], regsQ := [], orders := [], windowTable := 0, sessions := [], channelRecord := [] }

/-- The release of that task at word 10, in cycle 9. -/
def rel0 : Release := ⟨0, 9, 10, 0, 0, 5, 0, false, 0⟩

/-- Pea `x` runs it, with these working registers; the task is vital. -/
def runs (l : List (Nat × Word)) : State :=
  withFlds { State.reset with
    prog := some prog0
    pod := { Pod.reset with a := l.foldl (fun x e => peaPut .a x .ctx e.1 e.2) { Pea.reset with cur := some rel0, dr := [] } } }
    [(Fld.PEA_x_STAT_STATE 0, 3), (Fld.PEA_x_STAT_IN_SERVICE 0, 1), (Fld.TASK_CFGs_VITAL 0, 1)]

theorem runs_intro {s : State} {p : PeaId} {x : Release} {n : Nat} (h : (s.pea p).cur = some x ∧ s.peaState p = 3 ∧ s.pod.half ≤ 1 ∧
    x.slot < 32 ∧ (s.pea p).upsets = [] ∧ x.ops + n ≤ maxOps s x.slot) : s.Runs p x n := ⟨h.1, h.2.1, h.2.2.1, h.2.2.2.1, h.2.2.2.2.1, h.2.2.2.2.2⟩

/-- d = 1, a = 2, b = 3. -/
def wr : BitVec 24 := 0x0420C0
/-- q = 1 and a symbol. -/
def wq (id : Nat) : BitVec 24 := BitVec.ofNat 24 (2 ^ 20 + id)
/-- d = 1 and an immediate. -/
def wi (imm : Nat) : BitVec 24 := BitVec.ofNat 24 (2 ^ 18 + imm)

/-- Working register `r` of pea a's task after a command on these registers. -/
def result (c : PeaId → BitVec 24 → Instr) (w : BitVec 24) (l : List (Nat × Word)) (r : Nat) : Word :=
  (after (c .a w) (runs l)).workReg .a rel0 r

theorem witness_runs : (runs []).Runs .a rel0 8 ∧ (runs []).Runs .a rel0 1 ∧ (runs []).notLast rel0 :=
  ⟨runs_intro (by decide +kernel), runs_intro (by decide +kernel), _, rfl, by decide +kernel⟩

theorem witness_ArithmeticInstructions : (zero wr 5 0 = true) ∧ (zero 0x042000 11 0 = true) ∧ (zero (wi 2) 17 16 = true) ∧
    (opImm (wi 1) = 1 ∧ opImm (wi 2) = 2) ∧ (opSym (wq 1) < 0xFFF00 ∧ ((runs []).symbol (opSym (wq 1))).isSome) ∧
    (runs [(2, 7), (3, 0x80000000)]).workReg .a rel0 (opB wr) ≠ 0 ∧ (runs []).workReg .a rel0 (opB wr) = 0 := by decide +kernel

theorem witness_VitalInstructions : (runs [(2, 2), (3, 1)]).workReg .a rel0 (opA wr) = vital true ∧
    (runs [(2, 2), (3, 1)]).workReg .a rel0 (opB wr) = vital false ∧ zero 0x042000 11 0 = true ∧
    (zero 0x002000 23 18 = true ∧ zero 0x002000 11 0 = true) := by decide +kernel

theorem witness_UbcTraps : vital? ((runs [(2, 3)]).workReg .a rel0 (opA wr)) = none ∧
    (runs [(2, 1)]).workReg .a rel0 (opA 0x002000) = vital false ∧ zero 0x00007F 23 7 = true ∧
    definedOpcode ((0 : Word).toNat / 2 ^ 24) = false ∧ definedOpcode ((0x7F000000 : Word).toNat / 2 ^ 24) = false ∧
    (runs []).inService .a = true := by decide +kernel

/-- A release that has used up its operations. -/
theorem witness_UbcTraps_maximum : let x : Release := { rel0 with ops := 1000 }
    let s : State := { runs [] with pod := { (runs []).pod with a := { (runs []).pod.a with cur := some x } } }
    s.Runs .a x 0 ∧ maxOps s x.slot < x.ops + 1 := ⟨runs_intro (by decide +kernel), by decide +kernel⟩

theorem witness_LoadInstructions : (runs []).symbol (opSym (wq 1)) = some ⟨1, 3, 1, false, false, 0, 0, 0, 0, 0⟩ ∧
    systemSymbol rel0 (opSym (wq 0xFFF00)) = some 5 ∧ systemSymbol rel0 (opSym (wq 0xFFF03)) = some 0 ∧
    (let s := runs [(2, 2), (3, 3)]
     s.symbol (s.workReg .a rel0 (opA wr)).toNat = some ⟨2, 3, 1, true, false, 4, 0, 0, 4, 0⟩ ∧
       (s.workReg .a rel0 (opB wr)).msb = false ∧ (s.workReg .a rel0 (opB wr)).toNat < 4) := by decide +kernel

theorem witness_StoreInstructions : (let y : Symbol := ⟨1, 3, 1, false, false, 0, 0, 0, 0, 0⟩
    boolOk y.ty 0x8000 = true ∧ vboolOk y.ty 0x8000 = true ∧ storeAllowed ((runs []).taskVital 0) y = true ∧
    (runs []).forceEntry 1 0 = none ∧
    (withFlds (runs []) [(Fld.FORCE_SYMe_VALID 63, 1), (Fld.FORCE_SYMe_SYM 63, 1)]).forceEntry 1 0 = some 63) ∧
    (let y : Symbol := ⟨2, 3, 1, true, false, 4, 0, 0, 4, 0⟩
    storeAllowed ((runs []).taskVital 0) y = true ∧ (runs []).forceEntry 2 3 = none ∧
    (withFlds (runs []) [(Fld.FORCE_SYMe_VALID 0, 1), (Fld.FORCE_SYMe_SYM 0, 2), (Fld.FORCE_ELEMe_ELEM 0, 3)]).forceEntry 2 3 = some 0) := by
  decide +kernel

/-- Targets at both ends of the task's code range. -/
theorem witness_BranchInstructions : targetOk (runs []) rel0 0x04FFF5 = true ∧ (branchTarget 10 0x04FFF5) = 0 ∧
    targetOk (runs []) rel0 (wi 88) = true ∧ zero (wi 88) 17 16 = true ∧ zero 0x000058 23 16 = true ∧
    (runs [(1, 2)]).workReg .a rel0 (opD (wi 88)) = vital true ∧ (zero 0 23 0 = true ∧
    inCode (runs [(63, 99)]) 0 ((runs [(63, 99)]).workReg .a rel0 63).toNat = true) := by decide +kernel

/-- The state in which word `a` of data SRAM holds `v`, and working register 1 holds `q`. -/
def holds (a : Nat) (v q : Word) : State := { runs [(1, q)] with pod := { (runs [(1, q)]).pod with a := peaPut .a (runs [(1, q)]).pod.a .sram a v } }

theorem witness_TimerAndEdgeInstructions : (let s := holds 8 0x3C000000 0xFFFFFF
    s.symbol (opSym (wq 3)) = some ⟨3, 5, 1, false, false, 8, 0, 0, 5, 0⟩ ∧ timerOk (peaGet .a (s.pea .a) .sram 8) (peaGet .a (s.pea .a) .sram 9) =
      true ∧ (s.workReg .a rel0 (opQ (wq 3))).toNat < 2 ^ 24 ∧ zero 0x000003 23 20 = true) ∧
    (let s := holds 12 0x80000001 0
    s.symbol (opSym (wq 4)) = some ⟨4, 6, 1, false, false, 12, 0, 0, 0, 0⟩ ∧ s.workReg .a rel0 (opQ (wq 4)) = classBool 1 false ∧
      w32 (bitsOf 1 0 (peaGet .a (s.pea .a) .sram 12).toNat) = classBool 1 true) := by decide +kernel

theorem witness_timer_and_edge_run : (holds 8 0x3C000000 0xFFFFFF).Runs .a rel0 2 ∧ (holds 12 0x80000001 0).Runs .a rel0 3 :=
  ⟨runs_intro (by decide +kernel), runs_intro (by decide +kernel)⟩

/-- A legal token of each kind, and one release waits. -/
theorem witness_EmitAndEnd : tokenLegal (runs []) 0 0x60000000 0 = true ∧ tokenLegal (runs []) 1 0x20070200 0xFFFF0000 = true ∧
    tokenLegal (runs []) 2 0x40003F00 0x00070000 = true ∧ tokenLegal (runs []) 3 0x00070100 9 = true ∧
    tokenLegal (runs []) 4 0x00000200 1 = true ∧ tokenLegal (runs []) 5 0x0000FFFF 0xFFFFFFFF = true ∧
    (runs []).taskDef 0 = some ⟨0, 0, 0, 99, 1000, 8, [], [], []⟩ ∧ (runs []).taskVital 0 = true ∧
    (let s : State := { runs [] with pod := { (runs []).pod with a := { (runs []).pod.a with queue := [{ rel0 with slot := 31 }] } } }
     (s.pea .a).queue = [{ rel0 with slot := 31 }] ∧ s.inService .a = true ∧ (s.pea .a).dr.length < 23) := by decide +kernel

theorem test_add_saturates : result .add wr [(2, 0x7FFFFFFF), (3, 1)] 1 = 0x7FFFFFFF := by decide +kernel
theorem test_sub_saturates : result .sub wr [(2, 0x80000000), (3, 1)] 1 = 0x80000000 := by decide +kernel
theorem test_mul : result .mul wr [(2, 0xFFFFFFFD), (3, 7)] 1 = 0xFFFFFFEB := by decide +kernel
theorem test_div_truncates : result .div wr [(2, 0xFFFFFFF9), (3, 2)] 1 = 0xFFFFFFFD := by decide +kernel
theorem test_min_is_signed : result .min wr [(2, 5), (3, 0xFFFFFFFF)] 1 = 0xFFFFFFFF := by decide +kernel
theorem test_max_is_signed : result .max wr [(2, 5), (3, 0xFFFFFFFF)] 1 = 5 := by decide +kernel
theorem test_neg_saturates : result .neg 0x042000 [(2, 0x80000000)] 1 = 0x7FFFFFFF := by decide +kernel
theorem test_addi_sign_extends : result .addi (wi 0xFFFF) [(1, 5)] 1 = 4 := by decide +kernel
theorem test_and : result .andOp wr [(2, 0xF0F0), (3, 0xFF00)] 1 = 0xF000 := by decide +kernel
theorem test_or : result .orOp wr [(2, 0xF0F0), (3, 0xFF00)] 1 = 0xFFF0 := by decide +kernel
theorem test_xor : result .xorOp wr [(2, 0xF0F0), (3, 0xFF00)] 1 = 0x0FF0 := by decide +kernel
theorem test_shl_beyond_width : result .shl wr [(2, 1), (3, 32)] 1 = 0 ∧ result .shl wr [(2, 1), (3, 31)] 1 = 0x80000000 := by decide +kernel
theorem test_shr_is_logical : result .shr wr [(2, 0x80000000), (3, 31)] 1 = 1 := by decide +kernel
theorem test_ceq : result .ceq wr [(2, 4), (3, 4)] 1 = 1 := by decide +kernel
theorem test_clt_is_signed : result .clt wr [(2, 0xFFFFFFFF), (3, 0)] 1 = 1 := by decide +kernel
theorem test_vceq : result .vceq wr [(2, 4), (3, 5)] 1 = 1 := by decide +kernel
theorem test_vclt : result .vclt wr [(2, 4), (3, 5)] 1 = 2 := by decide +kernel
theorem test_vand : result .vand wr [(2, 2), (3, 1)] 1 = 1 := by decide +kernel
theorem test_vor : result .vor wr [(2, 2), (3, 1)] 1 = 2 := by decide +kernel
theorem test_vnot : result .vnot 0x042000 [(2, 2)] 1 = 1 := by decide +kernel
theorem test_vxor : result .vxor wr [(2, 2), (3, 2)] 1 = 1 := by decide +kernel
theorem test_vtonb : result .vtonb 0x042000 [(2, 2)] 1 = 1 := by decide +kernel
theorem test_mov : result .mov 0x042000 [(2, 9)] 1 = 9 := by decide +kernel
theorem test_ldi_sign_extends : result .ldi (wi 0x8000) [] 1 = 0xFFFF8000 := by decide +kernel
theorem test_ldih_keeps_low : result .ldih (wi 0x1234) [(1, 0xAAAA5678)] 1 = 0x12345678 := by decide +kernel
theorem test_vconst : result .vconst (wi 2) [] 1 = 2 := by decide +kernel
theorem test_ld_sign_extends : (after (.ld .a (wq 1)) (holds 0 0x0000FFFE 0)).workReg .a rel0 1 = 0xFFFFFFFE := by decide +kernel
theorem test_ld_system_symbol : result .ld (wq 0xFFF00) [] 1 = 5 := by decide +kernel
theorem test_symh : result .symh (wq 2) [] 1 = 2 := by decide +kernel
theorem test_ldx_packed : (after (.ldx .a wr) { runs [(2, 2), (3, 3)] with pod := { (runs [(2, 2), (3, 3)]).pod with
    a := peaPut .a (runs [(2, 2), (3, 3)]).pod.a .sram 5 0x7FFF0000 } }).workReg .a rel0 1 = 0x7FFF := by decide +kernel
theorem test_stx_leaves_neighbour : peaGet .a ((after (.stx .a wr) { runs [(1, 0x10000), (2, 2), (3, 3)] with
    pod := { (runs [(1, 0x10000), (2, 2), (3, 3)]).pod with a := peaPut .a (runs [(1, 0x10000), (2, 2), (3, 3)]).pod.a .sram 5 0x1234 } }).pea .a)
    .sram 5 = 0x7FFF1234 := by decide +kernel
/-- The sign extension in the stored word is the model's choice (log entry 64). -/
theorem test_st_saturates : peaGet .a ((after (.st .a (wq 1)) (runs [(1, 0xFFFF0000)])).pea .a) .sram 0 = 0xFFFF8000 := by decide +kernel
theorem test_br : ((after (.br .a 0x00FFF5) (runs [])).pea .a).cur.map (·.pc) = some 0 := by decide +kernel
theorem test_bt_not_taken : ((after (.bt .a (wi 5)) (runs [(1, 1)])).pea .a).cur.map (·.pc) = some 11 := by decide +kernel
theorem test_bf_taken : ((after (.bf .a (wi 5)) (runs [(1, 1)])).pea .a).cur.map (·.pc) = some 16 := by decide +kernel
theorem test_bnz : ((after (.bnz .a (wi 5)) (runs [(1, 7)])).pea .a).cur.map (·.pc) = some 16 := by decide +kernel
theorem test_bz : ((after (.bz .a (wi 5)) (runs [(1, 7)])).pea .a).cur.map (·.pc) = some 11 := by decide +kernel
theorem test_call_links : result .call 0x000005 [] 63 = 11 := by decide +kernel
theorem test_ret : ((after (.ret .a 0) (runs [(63, 42)])).pea .a).cur.map (·.pc) = some 42 := by decide +kernel
theorem test_loop_ends : ((after (.loop .a (wi 5)) (runs [(1, 1)])).pea .a).cur.map (·.pc) = some 11 := by decide +kernel
theorem test_tstart_default : (let x := (after (.tstart .a (wq 3)) (holds 8 0x3C000000 0)).pea .a
    peaGet .a x .sram 8 = 0x69000000 ∧ peaGet .a x .sram 9 = 5) := by decide +kernel
theorem test_tstop_keeps_count : peaGet .a ((after (.tstop .a 0x000003) (holds 8 0x69000011 0)).pea .a) .sram 8 = 0x3C000011 := by decide +kernel
theorem test_tread : (after (.tread .a (wq 3)) (holds 8 0x69000011 0)).workReg .a rel0 1 = 0x11 := by decide +kernel
theorem test_texp : (after (.texp .a (wq 3)) (holds 8 0x96000011 0)).workReg .a rel0 1 = 1 := by decide +kernel
theorem test_edge_rises : (after (.edge .a (wq 4)) (holds 12 0x80000000 1)).workReg .a rel0 1 = 1 := by decide +kernel
theorem test_edge_first_sample : (after (.edge .a (wq 4)) (holds 12 0 1)).workReg .a rel0 1 = 0 := by decide +kernel
theorem test_emit_tag : ((after (.emitCmd .a 0x042000) (runs [(1, 0x60010000), (2, 3)])).pea .a).dr.map (·.tag) = [0x00024000] := by decide +kernel
theorem test_emit_illegal_traps : (after (.emitPoint .a 0x042000) (runs [(1, 0x60010000), (2, 3)])).inService .a = false := by decide +kernel
theorem test_end_tag : ((after (.endOp .a 0) (runs [])).pea .a).dr.map (·.tag) = [0x06024000] := by decide +kernel
theorem test_trap_code : (after (.trap .a 0x000001) (runs [])).inService .a = false := by decide +kernel
theorem test_vassert_false_traps : (after (.vassert .a 0x002000) (runs [(2, 1)])).inService .a = false := by decide +kernel
theorem test_undefined_opcode : (after (.undefinedOpcode .a 0x7F000000) (runs [])).reg (Reg.PEA_x_TRAPPC 0) = 10 := by decide +kernel

/-! ### The step, the cycle and exchange -/

theorem witness_StepRunsFront : ({ State.reset with pending := [.commitPoint,
    .rotReq] } : State).pending = .commitPoint :: [.rotReq] := rfl

theorem witness_IdleStepIsATick : State.reset.pending = [] ∧ State.reset.rateTrim = 0 ∧ State.reset.clock.trim = 0 ∧
    State.reset.reg Reg.TIME_SLEW = 0 ∧ ((State.reset.setReg Reg.TIME_SLEW 0x7FFFFFFF).reg Reg.TIME_SLEW).msb = false := by decide +kernel

/-- The invariant holds after reset, whose step completes; every pea's memory reads 0 there. -/
theorem witness_StepKeepsInv : State.reset.Inv ∧ ∃ t, step State.reset = .next t :=
  ⟨⟨by decide +kernel, by decide +kernel, by decide +kernel, by decide +kernel, by decide +kernel, by decide +kernel, by decide +kernel,
    by unfold NonVol.canonical; decide +kernel,
    by unfold Pea.canonical; decide +kernel, by unfold Pea.canonical; decide +kernel, by unfold Pea.canonical; decide +kernel,
      fun _ => Nat.zero_le _, by decide +kernel, by decide +kernel⟩, _, rfl⟩

theorem witness_PeaMemoryReads : (2 ^ 21 - 1) < 2 ^ memBits .mram ∧ (2 ^ 11 - 1) < 2 ^ memBits .ctx := by decide +kernel

/-- Cycle 9 runs in RUN_ACTIVE with three peas in service. -/
def cycling (l : List (Field × Nat)) : State :=
  let s := mode 5 ([(Fld.PEA_x_STAT_IN_SERVICE 0, 1), (Fld.PEA_x_STAT_IN_SERVICE 1, 1), (Fld.PEA_x_STAT_IN_SERVICE 2, 1),
    (Fld.PROG_CYCLE_K, 5), (Fld.PROG_CYCLE_TV_MS, 10)] ++ l)
  { s with cyc := { s.cyc with running := true, n := 9 }, prog := some prog0, ticks := 1000, now := 5000000000 }

/-- Pea a is busy with a release of task 31 at the deadline. -/
def busy : State :=
  let s := cycling []
  { s with pod := { s.pod with a := { s.pod.a with cur := some { rel0 with slot := 31 } } } }

theorem witness_CycleEvents : (cycling []).cyc.running = true ∧ (cycling []).exchangeDue (cycling []).nextCycle = false ∧
    (cycling []).opState = 5 ∧ (cycling []).twin.takeover = none ∧
    busy.boot.running = true ∧ PeaId.a ∈ busy.serving ∧ (busy.pea .a).cur.isSome ∧
    31 ∈ ((List.range 32).filter fun i => busy.serving.any fun p => (busy.unfinished p).contains i) := by decide +kernel

/-- The state digests of the halves of the IVE differ. -/
def apart : State := { cycling [] with ive := { (cycling []).ive with apart := true } }

theorem witness_CommitSet : (cycling []).com.formed = false ∧ (cycling []).boot.running = true ∧ (cycling []).inExchange = false ∧
    (∀ p, ((cycling []).pea p).lagging = false) ∧ (cycling []).opState = 5 ∧ (cycling []).boot.holdup = none ∧
    ({ cycling [] with com := { (cycling []).com with formed := true } } : State).com.formed = true ∧ apart.ive.apart = true :=
  ⟨rfl, rfl, by decide +kernel, fun p => by cases p <;> rfl, by decide +kernel, rfl, rfl, rfl⟩

theorem test_digest_difference_stops : (after .commitPoint apart).fld Fld.IVE_KFAULT_CAUSE = 6 ∧
    (after .commitPoint apart).fld Fld.OUT_SAFE_CAUSE = 2 := by decide +kernel

/-- The last ring cycle of five, and the one before it; a window that conflicts, one that is later, none at the last age and one below. -/
theorem witness_ImageClose : ({ cycling [] with cyc := { (cycling []).cyc with i := 4 } } : State).lastRing = true ∧
    ({ cycling [] with cyc := { (cycling []).cyc with i := 3 } } : State).lastRing = false ∧ (cycling []).isTwin = false ∧
    later8 0x00 0xFF = true ∧ later8 0x7F 0x00 = true ∧ 3 < 3 + 1 := by decide +kernel

/-- The margin of a pea that became idle with margin `n` ticks of the task window. -/
def withMargin (n : Nat) (l : List (Field × Nat)) : State :=
  let s := (cycling l).setReg (Reg.PEA_x_MARGIN 0) (w32 n)
  let s := (s.setReg (Reg.PEA_x_MARGIN 1) (w32 245000)).setReg (Reg.PEA_x_MARGIN 2) (w32 245000)
  { s with pod := { s.pod with a := { s.pod.a with doneTick := some 1 }, b := { s.pod.b with doneTick := some 1 },
                               c := { s.pod.c with doneTick := some 1 } } }

theorem witness_SetpointLoop : (let s := withMargin 0 [(Fld.PWR_DVSPARAM_FLOOR, 10), (Fld.PWR_DVSPARAM_TGT, 20), (Fld.PWR_DVSPARAM_BAND, 5)]
    s.limitingPea = some .a ∧ s.flag Fld.PWR_DVSCTRL_MODE = false ∧
      min (s.peaMargin .a * 100 / s.taskWindow) 100 < s.fld Fld.PWR_DVSPARAM_FLOOR) ∧
    (let s := withMargin 24500 [(Fld.PWR_DVSPARAM_FLOOR, 10), (Fld.PWR_DVSPARAM_TGT, 20), (Fld.PWR_DVSPARAM_BAND, 5)]
    s.limitingPea = some .a ∧ s.cyc.overran = false ∧ min (s.peaMargin .a * 100 / s.taskWindow) 100 = 10) ∧
    (let s := withMargin 49000 [(Fld.PWR_DVSPARAM_FLOOR, 10), (Fld.PWR_DVSPARAM_TGT, 20), (Fld.PWR_DVSPARAM_BAND, 5)]
    s.limitingPea = some .a ∧ min (s.peaMargin .a * 100 / s.taskWindow) 100 = 20) ∧
    (let s := withMargin 63700 [(Fld.PWR_DVSPARAM_FLOOR, 10), (Fld.PWR_DVSPARAM_TGT, 20), (Fld.PWR_DVSPARAM_BAND, 5),
      (Fld.PWR_DVSPARAM_DOWN_HOLD, 1)]
    s.limitingPea = some .a ∧ min (s.peaMargin .a * 100 / s.taskWindow) 100 = 26 ∧ s.fld Fld.PWR_DVSPARAM_DOWN_HOLD ≤ s.cyc.dvsHold + 1) := by
  decide +kernel

/-- A staged image, and an arming for cycle 10. -/
def arming : Armed := ⟨10, 1, false, false, 0, 0, true, false, false, false, 0⟩
def exchanging (a : Armed) : State := { cycling [] with xch := { State.reset.xch with staged := some prog0, armed := some a } }

/-- An exchange due at the next boundary, for which every pea in service has verified. -/
def switching : State :=
  let s := exchanging { arming with waiting := false, go := true }
  { s with xch := { s.xch with ready := [.a, .b, .c] } }

theorem witness_ExchangeSwitches : switching.cyc.running = true ∧ switching.exchangeDue switching.nextCycle = true ∧
    switching.xch.staged = some prog0 ∧ switching.opState = 5 ∧ switching.isTwin = false ∧ switching.boot.safe9 = false ∧
    switching.boot.sleep = none ∧ switching.upd.sched = none ∧ switching.pod.rejoin = none ∧ switching.pod.rotPending = false ∧
    (∀ p, switching.inService p = true ∨ switching.peaState p = 7 → p ∈ switching.xch.ready) :=
  ⟨by decide +kernel, by decide +kernel, rfl, by decide +kernel, by decide +kernel, rfl, rfl, rfl, rfl, rfl, fun p _ => by cases p <;> decide +kernel⟩

/-- The switch does take place there. -/
theorem test_exchange_runs_new_half : (after .exchangeCycle switching).pod.half = 1 := by
  decide +kernel

theorem witness_ExchangeEvents : (withFlds (exchanging arming) [(Fld.PEA_x_STAT_STATE 1, 2)]).peaState .b ≠ 0 ∧
    (withFlds (exchanging arming) [(Fld.PEA_x_STAT_STATE 1, 2)]).peaState .b ≠ 6 ∧ arming.waiting = true ∧ arming.byPartner = false ∧
    arming.since + 25000000 ≤ ({ exchanging arming with ticks := 25000000 } : State).ticks ∧
    (exchanging arming).halfVerified .b prog0 1 = true ∧
    (exchanging arming).halfVerified .b { prog0 with regs := [(Reg.PROG_CHECK, 1)] } 1 = false ∧
    (exchanging { arming with alone := true }).xch.armed.map (·.alone) = some true ∧
    (let s : State := { cycling [] with xch := { State.reset.xch with old := some prog0, migrating := [.c] } }
    PeaId.c ∈ s.xch.migrating ∧ s.inService .c = true) := by decide +kernel

/-! ### The invariant engine -/

/-- A table of one route from signal 0 over section 0, with overlap section 1, point 0 in section 0, and aspect 1. -/
def table1 : List Word :=
  [0x49564531, 0, 0, 1, 0x00010001, 0x00010002, 0, 0, 14, 15, 40, 41, 42, 47, 0x0000000B,
   0x4000FFFF, 0x00010100, 0, 0x000A0005, 3, 0, 0, 0, 0x60000000, 0x01000000, 0x60010000] ++ List.replicate 14 0 ++
  [1, 0x60000000, 0, 0, 0, 0, 0]

/-- The IVE has that table and these states, and a token waits. -/
def interlocked (x : Released) (r : RouteSt) (sec : SectionSt) (st : Store Nat) : State :=
  let s := cycling []
  { s with com := { s.com with iveIn := [x] }
           ive := { s.ive with tables := table1, routes := if r = freeRoute then [] else [(0, r)], status := st,
                               sections := if sec = freeSection then [] else [(0x6000, sec)] } }

/-- Everything CLEAR and the signal proven. -/
def allClear : Store Nat := [(0x4000, 5), (0x6000, 5), (0x6001, 5)]

def lockTok : Released := ⟨0x03000000, 0x00000000, 77⟩
def pointTok : Released := ⟨0x01000000, 0x20000100, 0xFFFF0000⟩
def signalTok : Released := ⟨0x02000000, 0x40000100, 0x00000000⟩
def releaseTok (arg : Nat) : Released := ⟨0x04000000, w32 (arg * 256), 1⟩

theorem witness_IveAccepts : (let s := interlocked lockTok freeRoute freeSection allClear
    s.com.iveIn = [lockTok] ∧ s.pod.kfault = false ∧ s.com.buffer.length < 16384 ∧ tagKind lockTok.tag = 3 ∧
      s.ive.lockCode (tokObj lockTok) (tokArg lockTok) = 0) ∧
    (let s := interlocked pointTok freeRoute freeSection allClear
    tagKind pointTok.tag = 1 ∧ s.lightToken pointTok = false ∧ s.ive.pointCode (tokObj pointTok) (tokArg pointTok) (tokRoute pointTok) = 0 ∧
      s.lightToken { pointTok with p0 := 0x20000000 } = true) ∧
    (let s := interlocked signalTok ⟨2, 0, 77, false, true, none⟩ ⟨some 0, [], false⟩ allClear
    tagKind signalTok.tag = 2 ∧ s.lightToken signalTok = false ∧
      s.ive.signalCode (tokObj signalTok) (tokArg signalTok) (tokRoute signalTok) = 0) ∧
    (let s := interlocked (releaseTok 0) ⟨3, 0, 77, true, true, none⟩ ⟨some 0, [], true⟩ allClear
    s.ive.releaseCode 0 (s.proceedWaits (rEntry s.ive.tables 0)) = 0 ∧ tokArg (releaseTok 0) = 0 ∧ s.ive.normalCode 0 0 = 0) ∧
    (let s := interlocked (releaseTok 1) ⟨2, 0, 77, true, true, none⟩ ⟨some 0, [], false⟩ []
    s.ive.releaseCode 0 (s.proceedWaits (rEntry s.ive.tables 0)) = 0 ∧ tokArg (releaseTok 1) = 1 ∧ (s.ive.route 0).state = 2 ∧
      s.ive.cancelFree 0 = false) ∧
    (let s := interlocked (releaseTok 2) ⟨2, 0, 77, true, true, none⟩ ⟨some 0, [], false⟩ allClear
    s.ive.releaseCode 0 (s.proceedWaits (rEntry s.ive.tables 0)) = 0 ∧ tokArg (releaseTok 2) = 2 ∧ (releaseTok 2).p1 ≠ 0) := by decide +kernel

theorem witness_IveRefuses : (let s := interlocked lockTok ⟨2, 0, 77, false, true, none⟩ freeSection allClear
    s.ive.lockCode (tokObj lockTok) (tokArg lockTok) = 2) ∧
    (let s := interlocked pointTok freeRoute freeSection []
    s.lightToken pointTok = false ∧ s.ive.pointCode (tokObj pointTok) (tokArg pointTok) (tokRoute pointTok) = 0x11) ∧
    (let s := interlocked signalTok freeRoute freeSection allClear
    s.lightToken signalTok = false ∧ s.ive.signalCode (tokObj signalTok) (tokArg signalTok) (tokRoute signalTok) = 8) ∧
    (let s := interlocked (releaseTok 1) ⟨3, 0, 77, true, true, none⟩ freeSection []
    s.ive.releaseCode 0 (s.proceedWaits (rEntry s.ive.tables 0)) = 0 ∧ (s.ive.route 0).state ≠ 2) ∧
    (tokArg (releaseTok 3) ≠ 0 ∧ tokArg (releaseTok 3) ≠ 1 ∧ tokArg (releaseTok 3) ≠ 2) ∧
    ({ releaseTok 2 with p1 := 0 } : Released).p1 = 0 ∧
    (let s := interlocked (releaseTok 1) freeRoute freeSection allClear
    s.ive.releaseCode 0 (s.proceedWaits (rEntry s.ive.tables 0)) ≠ 0) := by decide +kernel

/-- A preset of 9 s at cycles of 50 ms counts 181 cycles. -/
theorem witness_IveTimersAndScrub : 0 < 50 ∧ Ive.presetCycles 90 50 = 181 ∧ (cycling []).ive.expired = false ∧
    ({ cycling [] with ive := { Ive.reset with expired := true } } : State).ive.expired = true ∧
    (withFlds (cycling []) [(Fld.IVE_CTRL_SCRUB_EN, 1)]).flag Fld.IVE_CTRL_SCRUB_EN = true := by decide +kernel

theorem test_lock_takes_holds : (let v := (after (.iveLock (.agree 0 false)) (interlocked lockTok freeRoute freeSection allClear)).ive
    (v.section_ 0x6000).path = some 0 ∧ (v.section_ 0x6001).overlaps = [0] ∧ (v.route 0).state = 2) := by decide +kernel
theorem test_lock_refused_when_occupied_by_another : (after (.iveLock (.agree 0 false))
    (interlocked lockTok freeRoute ⟨some 5, [], false⟩ allClear)).reg Reg.IVE_LASTREQ = 77 := by decide +kernel
theorem test_point_commands : ((after (.ivePoint (.agree 0 false)) (interlocked pointTok freeRoute freeSection allClear)).ive.point
    0x2000).commanded = 1 := by
  decide +kernel
theorem test_signal_enters_buffer : (after (.iveSignal (.agree 0 false))
    (interlocked signalTok ⟨2, 0, 77, false, true, none⟩ ⟨some 0, [], false⟩ allClear)).com.buffer = [signalTok] := by decide +kernel
theorem test_cancel_starts_timer : ((after (.iveReleaseCancel (.agree 0 false))
    (interlocked (releaseTok 1) ⟨2, 0, 77, true, true, none⟩ ⟨some 0, [], false⟩ [])).ive.route 0).state = 4 := by decide +kernel
theorem test_emergency_preset : ((after (.iveReleaseEmergency (.agree 0 false))
    (interlocked (releaseTok 2) ⟨2, 0, 77, true, true, none⟩ ⟨some 0, [], false⟩ allClear)).ive.route 0).timer = some (9, 110) := by decide +kernel
theorem test_normal_frees_section : ((after (.iveReleaseNormal (.agree 0 false))
    (interlocked (releaseTok 0) ⟨3, 0, 77, true, true, none⟩ ⟨some 0, [], true⟩ allClear)).ive.section_ 0x6000).path = none := by decide +kernel
theorem test_light_check_buffers : (after (.iveLightCheck (.agree 0 false))
    (interlocked { pointTok with p0 := 0x20000000 } freeRoute freeSection [])).com.buffer.length = 1 := by decide +kernel
theorem test_timer_expiry_frees : (after .iveTimerExpiry
    (interlocked lockTok ⟨4, 0, 77, true, true, some (3, 10)⟩ ⟨some 0, [], false⟩ [])).ive.route 0 = freeRoute := by decide +kernel
theorem test_ive_difference_stops : (after (.iveLock .differ) (interlocked lockTok freeRoute freeSection allClear)).fld Fld.OUT_SAFE_CAUSE = 2 := by
  decide +kernel
theorem test_deadline_marks_slot : (after .taskDeadline busy).reg Reg.TASK_OVRVEC = 0x80000000 := by decide +kernel
theorem test_commit_forms_once : (after .commitPoint (cycling [])).com.formed = true := by decide +kernel
theorem test_boundary_counts : (after (.vitalCycleBoundary ⟨false, []⟩ []) (cycling [])).cyc.n = 10 := by decide +kernel


theorem test_links_shown : (let s := after (.vitalCycleBoundary ⟨false, [2]⟩ []) (cycling [])
    s.cyc.running = true ∧ s.fld (Fld.RNG_x_STAT_LINK 1) = 1 ∧ s.fld (Fld.RNG_x_STAT_LINK 2) = 0) := by decide +kernel
theorem test_digests_come_apart : (after (.iveLock (.agree 0 true)) (interlocked lockTok freeRoute freeSection allClear)).ive.apart = true := by
    decide +kernel
/-! ### Voters, pod and kernel -/

/-- A token of release 0 in cycle 9 that pea `p` sends with its check word, of kind `k`. -/
def tokenOf (p : PeaId) (k : Nat) : Token :=
  let tag := makeTag 0 k 9 0
  ⟨tag, 0x60000000, 5, tokenCheck p tag 0x60000000 5⟩

/-- What of it is compared. -/
def told (k : Nat) : Released := ⟨makeTag 0 k 9 0, 0x60000000, 5⟩

/-- A pod in `m` (1 triplex, 2 duplex) whose pea a has the token `x` in its delay register; these positions are open. -/
def voting (m : Nat) (x : Token) (ps : List Position) : State :=
  let s := cycling [(Fld.POD_STAT_MODE, m)]
  { s with pod := { s.pod with a := { s.pod.a with dr := [x] }, positions := ps } }

theorem witness_TokenCopies : (let s := voting 1 (tokenOf .a 1) []
    s.inService .a = true ∧ (tokenOf .a 1).check = tokenCheck .a (tokenOf .a 1).tag (tokenOf .a 1).p0 (tokenOf .a 1).p1 ∧
      s.mayOpen 0 = true ∧ tagKind (tokenOf .a 1).tag ≠ 7 ∧ s.closedToken 0 = none ∧ s.pod.a.lagging = false ∧ s.pod.b.lagging = false ∧
      s.pod.c.lagging = false) ∧
    (let s := voting 1 (tokenOf .a 4) [⟨0, [⟨.b, told 4⟩], .one, none, 990⟩]
    (s.pod.positions.find? fun q => q.index = 0 && q.st != .closed) = some ⟨0, [⟨.b, told 4⟩], .one, none, 990⟩ ∧
      s.fld Fld.POD_STAT_MODE = 1 ∧ s.pod.nextPass = 0 ∧ tagKind (tokenOf .a 4).tag = 4 ∧
      (otherPeas .a).all (s.takesPart ⟨0, [⟨.b, told 4⟩], .one, none, 990⟩) = true) ∧
    (let s := voting 2 (tokenOf .a 1) [⟨0, [⟨.b, told 2⟩], .one, none, 990⟩]
    told 2 ≠ told 1 ∧ s.opState = 5 ∧ s.fld Fld.POD_STAT_MODE = 2) ∧
    ({ tokenOf .a 1 with check := 0 } : Token).check ≠ tokenCheck .a (tokenOf .a 1).tag (tokenOf .a 1).p0 (tokenOf .a 1).p1 := by
  decide +kernel

theorem test_two_equal_copies_release : (after (.tokenCopyArrival .a 0 false)
    (voting 1 (tokenOf .a 4) [⟨0, [⟨.b, told 4⟩], .one, none, 990⟩])).com.iveIn = [told 4] := by decide +kernel
theorem test_duplex_difference_stops : (after (.tokenCopyArrival .a 0 false)
    (voting 2 (tokenOf .a 1) [⟨0, [⟨.b, told 2⟩], .one, none, 990⟩])).fld Fld.OUT_SAFE_CAUSE = 1 := by decide +kernel

theorem witness_VoterTimersAndScrub : (let s := voting 1 (tokenOf .a 1) [⟨0, [⟨.b, told 1⟩, ⟨.c, told 1⟩], .voted, some (told 1), 990⟩]
    s.pod.positions.find? (fun z => z.index = 0 && z.st = .voted) = some ⟨0, [⟨.b, told 1⟩, ⟨.c, told 1⟩], .voted, some (told 1), 990⟩ ∧
      PeaId.a ∈ s.serving ∧ s.fld Fld.POD_STAT_MODE = 1 ∧ (s.pea .a).arrived ≤ 0 ∧ s.serving = [.a, .b, .c]) ∧
    (let s := withFlds (cycling []) [(Fld.PEA_x_STAT_STATE 0, 4)]
    s.peaState .a = 4 ∧ (s.pea .a).dr.length ≤ 16) ∧
    (let s := withFlds (cycling []) [(Fld.PEA_x_STAT_STATE 2, 2), (Fld.PEA_x_CTRL_SCRUB_EN 2, 1)]
    s.inService .c = true ∧ s.peaState .c = 2 ∧ (s.pea .c).scrubDone = false ∧ s.flag (Fld.PEA_x_CTRL_SCRUB_EN 2) = true ∧
      (s.pea .c).scrubAt.getD 0 0 + 1024 < 2 ^ 21) := by decide +kernel

/-- All copies there; pea a's is missing, for the third cycle; the last slice of program memory with the image's check and with another. -/
theorem witness_VoterTimersAndScrub_more : (∀ p ∈ [PeaId.a, .b, .c], ∃ c ∈ [(⟨.a, told 1⟩ : Copy), ⟨.b, told 1⟩, ⟨.c, told 1⟩], c.pea = p) ∧
    (let q : Position := ⟨0, [⟨.b, told 1⟩, ⟨.c, told 1⟩], .voted, some (told 1), 990⟩
    (voting 1 (tokenOf .a 1) [q]).takesPart q .a = true ∧ ¬ ∃ c ∈ q.copies, c.pea = .a) ∧
    (([(7, 4999999999), (8, 5000000000)] : List (Word × Nat)).filter fun l => (cycling []).now < l.2 + 3600000000000).length + 1 = 3 ∧
    (voting 2 (tokenOf .a 1) []).fld Fld.POD_STAT_MODE ≠ 1 ∧
    (let s := { cycling [] with pod := { (cycling []).pod with c := { (cycling []).pod.c with scrubAt := [2 ^ 21 - 1024, 0, 0, 0] } } }
    2 ^ 21 ≤ (s.pea .c).scrubAt.getD 0 0 + 1024 ∧ s.programCheck .c = s.imageCheck ∧
      (s.setReg Reg.PROG_CHECK 1).programCheck .c ≠ (s.setReg Reg.PROG_CHECK 1).imageCheck) := by decide +kernel

theorem test_held_release : (after (.heldRelease .a) (withFlds (cycling []) [(Fld.PEA_x_STAT_STATE 0, 4)])).peaState .a = 3 := by decide +kernel
theorem test_skew_lags : ((after (.skewTimerExpiry ⟨0, false⟩)
    (voting 1 (tokenOf .a 1) [⟨0, [⟨.b, told 1⟩, ⟨.c, told 1⟩], .voted, some (told 1), 990⟩])).pea .a).lagging = true := by decide +kernel

theorem witness_KernelFaults : (cycling []).opState = 5 ∧ (mode 2 []).opState = 2 ∧ 1048629 ≤ 1048629 ∧ 1048523 ≤ 1048523 ∧
    ((voting 1 (tokenOf .a 1) [⟨0, [⟨.b, told 1⟩, ⟨.c, told 2⟩], .split, none, 990⟩]).pod.positions.find?
      fun q => q.index = 0 && q.st = .split).isSome ∧
    (withFlds (cycling []) [(Fld.IVE_CTRL_SCRUB_EN, 1)]).flag Fld.IVE_CTRL_SCRUB_EN = true := by decide +kernel

theorem witness_MonitorsPass : (mode 7 []).monitored = true ∧ (mode 2 []).monitored = true ∧ 1048523 < 1048524 ∧ 1048628 < 1048629 ∧
    (withFlds (cycling []) [(Fld.PEA_x_STAT_STATE 1, 2)]).peaState .b ≠ 0 ∧ (cycling []).inService .b = true := by decide +kernel

theorem test_timebase_limit : (after (.timebaseWindowEnd 1048628) (cycling [])).fld Fld.TIME_TBCHK_FAULT = 0 ∧
    (after (.timebaseWindowEnd 1048629) (cycling [])).fld Fld.OUT_SAFE_CAUSE = 4 := by decide +kernel
theorem test_stall_takes_one_pea : (let t := after (.stallTimeout (.pea .b 3)) (withFlds (cycling []) [(Fld.PEA_x_STAT_STATE 1, 2)])
    t.inService .b = false ∧ t.inService .a = true) := by decide +kernel

/-- Two entries within a day make the third one lock out. -/
theorem witness_SafeEntryForm : (cycling []).opState = 5 ∧
    3 ≤ 1 + (([1, 2] : List Nat).filter fun x => (cycling []).now < x + 86400000000000).length ∧
    ¬ 3 ≤ 1 + (([] : List Nat).filter fun x => (cycling []).now < x + 86400000000000).length := by decide +kernel

theorem test_third_entry_locks : (State.enterSafe { cycling [] with nv := { NonVol.blank with safeTimes := [1, 2] } } 1 0 false).opState = 8 := by
  decide +kernel

/-- Pea a in this phase of its way back. -/
def evicted (ph : EvictPhase) (l : List (Field × Nat)) : State :=
  let s := cycling ((Fld.PEA_x_STAT_IN_SERVICE 0, 0) :: l)
  { s with pod := { s.pod with a := { s.pod.a with phase := ph } } }

/-- A re-seed of two blocks waits while every pea is idle; a re-join of pea a has a block left. -/
def copying : State :=
  let s := cycling [(Fld.PEA_x_STAT_STATE 0, 2), (Fld.PEA_x_STAT_STATE 1, 2), (Fld.PEA_x_STAT_STATE 2, 2)]
  { s with pod := { s.pod with reseed := some ⟨.c, .a, [0, 1024]⟩ } }
def rejoining (r : Rejoin) : State :=
  let s := evicted .idle [(Fld.PEA_x_STAT_STATE 0, 7), (Fld.PEA_x_STAT_STATE 1, 2), (Fld.PEA_x_STAT_STATE 2, 2)]
  { s with pod := { s.pod with rejoin := some r } }

theorem witness_EvictedPea : ((evicted .path []).pea .a).phase = .path ∧ ((evicted .test [(Fld.PEA_x_STAT_STATE 0, 6)]).pea .a).phase = .test ∧
    (evicted .test [(Fld.PEA_x_STAT_STATE 0, 6)]).peaState .a = 6 ∧ ((evicted .test [(Fld.PEA_x_STAT_STATE 0, 6)]).pea .a).behind = false ∧
    (evicted .test []).programCheck .a = (evicted .test []).imageCheck ∧
    ((evicted .test []).setReg Reg.PROG_CHECK 1).programCheck .a ≠ ((evicted .test []).setReg Reg.PROG_CHECK 1).imageCheck ∧
    (evicted .test []).pod.a.testAt + 37500000 ≤ ({ evicted .test [] with ticks := 37500000 } : State).ticks ∧
    later (9 + 100) 109 = false ∧ (rejoining ⟨.a, [], true, 9, false, false, false⟩).pod.rejoin =
      some ⟨.a, [], true, 9, false, false, false⟩ ∧
    (copying.pod.reseed = some ⟨.c, .a, [0, 1024]⟩ ∧ copying.allIdle = true ∧ 2 ≤ copying.copyRoom 0 ∧ copying.inService .c = true ∧
      copying.inService .a = true) ∧
    (let s := rejoining ⟨.a, [0, 1], false, 0, false, false, false⟩
    s.serving = [.b, .c] ∧ s.peaState .b = 2 ∧ (s.pea .b).upsets = []) := by decide +kernel

theorem test_path_retest_leads_to_test : (after (.pathRetestEnd .a true) (evicted .path [])).peaState .a = 6 := by decide +kernel
theorem test_self_test_leads_to_rejoin : (after (.peaSelfTestEnd .a true []) (evicted .test [(Fld.PEA_x_STAT_STATE 0, 6)])).peaState .a = 7 := by
  decide +kernel
theorem test_self_test_timeout : (after (.peaSelfTestTimeout .a)
    { evicted .test [(Fld.PEA_x_STAT_STATE 0, 6)] with ticks := 37500000 }).peaState .a = 5 := by decide +kernel

theorem witness_RotationTests : (let s := cycling [(Fld.POD_STAT_MODE, 1)]
    s.prog.isSome = true ∧ s.pod.rotPending = false ∧ s.pod.rotDeferred = false) ∧
    ({ (cycling []) with pod := { (cycling []).pod with rotDeferred := true } } : State).pod.rotDeferred = true ∧
    (cycling [(Fld.POD_STAT_MODE, 1), (Fld.POD_ROTCTRL_ROT_EN, 0)]).flag Fld.POD_ROTCTRL_ROT_EN = false ∧
    (cycling [(Fld.POD_STAT_MODE, 2), (Fld.POD_ROTCTRL_ROT_EN, 1)]).rotationBlocked = true ∧
    (cycling [(Fld.POD_STAT_MODE, 1), (Fld.POD_ROTCTRL_ROT_EN, 1)]).rotationBlocked = false ∧
    (cycling [(Fld.POD_STAT_MODE, 1), (Fld.POD_ROTCTRL_ROT_EN, 1)]).flag Fld.POD_ROTCTRL_ROT_EN = true := by decide +kernel

theorem test_rotation_request : (after .rotReq (cycling [(Fld.POD_STAT_MODE, 1), (Fld.POD_ROTCTRL_ROT_EN, 1)])).pod.rotPending = true := by
  decide +kernel

/-! ### The Snirin ring -/

/-- A frame of `type` on ring 0 of cycle 45, from claim 7 and serial 9, with these orders; a SURVEY or RUN frame has the unit window of a
single unit. -/
def frameWith (type : Byte) (ord0 ord1 : Nat) : RingFrame :=
  let n : Byte := if type = 2 ∨ type = 3 then 1 else 0
  ⟨sealed 0 0 0 45 ([type, 0, 0, 0] ++ leBytes 4 45 ++ leBytes 4 7 ++ leBytes 4 9 ++ [5, 0, n, 0] ++ List.replicate 4 0 ++ leBytes 2 ord0 ++
    leBytes 2 ord1), List.replicate n.toNat (List.replicate 32 0), trailer 1 0xFFFF, true⟩

/-- Such a frame without orders. -/
def frame (type : Byte) : RingFrame := frameWith type 0 0

/-- Port 0 in `role`. -/
def ringAt (role : Nat) (p : Port) (l : List (Field × Nat)) : State :=
  { cycling ([(Fld.RNG_x_STAT_ROLE 0, role)] ++ l) with rings := [(0, p)] }

/-- The outputs have energy: the heartbeats alternate. -/
def lively (l : List (Field × Nat)) : State := { cycling l with pod := { (cycling l).pod with hbGood := true } }

theorem witness_RingCycle : (lively []).energy = true ∧ (mode 4 []).energy = false ∧
    (withFlds (cycling []) [(Fld.TWIN_STAT_RESTRICT, 1)]).flag Fld.TWIN_STAT_RESTRICT = true ∧
    (ringAt 7 { freshPort with frames := 3 } [(Fld.RNG_x_STAT_INSERTED 0, 1)]).masters 0 = true ∧
    (ringAt 7 { freshPort with frames := 3 } [(Fld.RNG_x_STAT_INSERTED 0, 1)]).inserted 0 = true ∧
    (ringAt 1 freshPort []).masters 0 = false ∧ (cycling []).boot.holdup = none ∧
    ({ cycling [] with boot := { (cycling []).boot with holdup := some 1 } } : State).boot.holdup.isSome = true := by decide +kernel

theorem test_enable_byte_odd : ((lively []).commandSection 0 0 3).getD 4 0 = 0xA5 := by decide +kernel

/-- A frame as it is received, without a slip and in time. -/
def hears (f : RingFrame) : RingRx := ⟨f, none, 0, 0⟩

theorem witness_RingFrames : (∀ k ∈ [1, 2, 3, 4], (frame (BitVec.ofNat 8 k)).ok 0 = true ∧ (frame (BitVec.ofNat 8 k)).type = k) ∧
    (ringAt 1 freshPort []).ringRole 0 ≠ 8 ∧ (ringAt 8 freshPort []).ringRole 0 = 8 ∧ (frame 1).ok 1 = false ∧
    ((ringAt 6 freshPort [(Fld.RNG_x_STAT_INSERTED 0, 1)]).inserted 0 = true ∧ (hears (frame 3)).slip.isNone = true) ∧
    (ringAt 6 freshPort []).isTwin = false ∧ (frame 3).schedid = ((ringAt 6 freshPort []).reg Reg.RSCH_SCHEDID).toNat ∧
    (let s := ringAt 2 freshPort []
    s.ringRole 0 = 2 ∧ s.claim * 2 ^ 32 + s.nv.serial.toNat < (frame 1).precedence) ∧
    (∀ k ∈ [2, 4, 5, 7], let s := ringAt k { freshPort with launched := some 900 } []
    s.ringRole 0 = k ∧ (s.port 0).launched = some 900 ∧ (frame 3).trailerOk = true ∧ (frame 3).headerOk 0 = true ∧
      (frame 3).rcyc = s.ringCycle ∧ s.masters 0 = true ∧ (s.port 0).sent.length ≤ 512) ∧
    ((frame 3).rcyc ≠ ({ ringAt 5 { freshPort with launched := some 900 } [] with
      cyc := { (cycling []).cyc with n := 8 } } : State).ringCycle ∧ (ringAt 5 freshPort []).port 0 = freshPort ∧
      ({ frame 3 with trailer := trailer 1 2 ++ [0] } : RingFrame).trailerOk = false) := by decide +kernel

theorem witness_RingOrders : 1 ∈ RingFrame.unitOrders 0 (frameWith 1 0x13FF 0x3000).header ∧
    2 ∈ RingFrame.unitOrders 0 (frameWith 1 0 0x23FF).header ∧ 3 ∈ RingFrame.unitOrders 0 (frameWith 1 0x33FF 0).header ∧
    ¬ 1 ∈ RingFrame.unitOrders 0 (frameWith 1 0x1005 0).header ∧ (ringAt 6 freshPort []).masters 0 = false ∧
    (ringAt 5 freshPort []).masters 0 = true := by decide +kernel

/-- Where no cycle runs, a master still finds a frame that has not returned. -/
theorem witness_ImageClose_idle : (let s : State := { mode 2 [(Fld.RNG_x_STAT_ROLE 1, 5)] with
      rings := [(1, { freshPort with launched := some 900 })] }
    s.cyc.running = false ∧ s.masters 1 = true ∧ (s.port 1).launched ≠ none) := by decide +kernel

theorem test_cold_master_yields : (after (.coldFrame 0 (hears (frame 1))) (ringAt 2 freshPort [])).ringRole 0 = 3 := by decide +kernel
theorem test_listen_passes : (after (.runFrame 0 (hears (frame 3))) (ringAt 1 freshPort [])).ringRole 0 = 6 := by decide +kernel
theorem test_rotation_time : (after (.frameReturn 0 (hears (frame 3))) (ringAt 5 { freshPort with launched := some 900 } [])).fld
    (Fld.RNG_x_ROT_LAST 0) = 4 := by
  decide +kernel

theorem witness_RingRoles : (ringAt 1 freshPort [(Fld.RNG_x_CTRL_HALT 0, 1)]).flag (Fld.RNG_x_CTRL_HALT 0) = true ∧
    ({ freshPort with foreign := some 7 } : Port).foreign.any (· < 8) = true ∧ freshPort.foreign.any (· < 8) = false ∧
    (ringAt 1 { freshPort with quiet := 2 } []).listenedOut 0 = true ∧ (ringAt 1 freshPort []).listenedOut 0 = false ∧
    (ringAt 1 freshPort [(Fld.RNG_x_STAT_INSERTED 0, 1)]).inserted 0 = true ∧
    (ringAt 1 freshPort []).flag (Fld.RNG_x_CTRL_HALT 0) = false ∧
    (let s := ringAt 2 { freshPort with coldRun := 2 } [(Fld.RNG_x_HOPS_SEEN 0, 3), (Fld.RNG_x_HOPS_EXPECT 0, 3)]
    s.ringRole 0 = 2 ∧ 2 ≤ (s.port 0).coldRun ∧ s.fld (Fld.RNG_x_HOPS_SEEN 0) = s.fld (Fld.RNG_x_HOPS_EXPECT 0)) ∧
    16 ≤ ((ringAt 2 { freshPort with coldBack := 16 } []).port 0).coldBack ∧
    (let s := ringAt 4 { freshPort with frames := 2 } []
    s.ringRole 0 = 4 ∧ State.surveyBad (s.rotated 0) (s.port 0).survey = []) ∧
    ((ringAt 7 { freshPort with after := 9 } []).port 0).after ≤ 9 ∧ 4 ≤ ({ freshPort with frames := 4 } : Port).frames ∧
    ((ringAt 6 { freshPort with quiet := 8 } []).ringRole 0 = 6 ∧ 8 ≤ ({ freshPort with quiet := 8 } : Port).quiet ∧
      (ringAt 3 freshPort []).ringRole 0 = 3 ∧ freshPort.backoffLeft = 0) ∧
    (let s := { ringAt 5 freshPort [(Fld.TWIN_STAT_TWIN, 1), (Fld.TWIN_STAT_LETTER, 1)] with twin := { Twin.reset with standbyRun := 100 } }
    s.isTwin = true ∧ s.prefers 0 = false ∧ s.ringRole 0 = 5 ∧ 100 ≤ s.twin.standbyRun) ∧
    ((ringAt 1 { freshPort with relayGoal := some true } []).port 0).relayGoal = some true := by decide +kernel

theorem test_listen_timeout_cold : (after (.listenTimeout 0)
    (ringAt 1 { freshPort with quiet := 2 } [(Fld.RNG_x_STAT_INSERTED 0, 1)])).ringRole 0 = 2 := by decide +kernel
theorem test_cut_next : (after (.cutNextOrder ⟨0, (frameWith 1 0 0x23FF).header⟩)
    (ringAt 6 freshPort [(Fld.RNG_x_STAT_INSERTED 0, 1)])).out = [.cut 0] := by decide +kernel

/-! ### Outputs, the field side and safety functions -/

theorem witness_Heartbeats : (cycling []).pod.hbStopped = false ∧ (cycling []).pod.kfault = false ∧
    (cycling []).flag Fld.TIME_TBCHK_FAULT = false ∧ (cycling []).opState = 5 ∧ (mode 8 []).opState = 8 ∧
    (withFlds (cycling []) [(Fld.TIME_TBCHK_FAULT, 1)]).flag Fld.TIME_TBCHK_FAULT = true ∧
    (cycling []).flag Fld.OUT_STAT_PUMP = false ∧ (cycling []).boot.holdup = none ∧ (cycling []).pod.hbMark = none ∧
    (after (.heartbeatTransition true) (cycling [])).pod.hbMark = some true := by decide +kernel

/-- The pump runs once both voters have turned to opposite levels, and stops when one of them turns twice. -/
theorem test_pump_needs_both_heartbeats : (let one := after (.heartbeatTransition false) (cycling [])
    let two := after (.heartbeatTransition true) one
    one.fld Fld.OUT_STAT_PUMP = 0 ∧ two.fld Fld.OUT_STAT_PUMP = 1 ∧
      (after (.heartbeatTransition false) (after (.heartbeatTransition false) two)).fld Fld.OUT_STAT_PUMP = 0) := by decide +kernel
theorem test_reservoir_opens_outputs : (after .reservoirDischarged ((cycling []).setReg Reg.OUT_CMD 5)).reg Reg.OUT_CMD = 0 := by
    decide +kernel

/-- Channel 31 is an output that is commanded, with the pump running. -/
def outputs (l : List (Field × Nat)) : State :=
  (cycling ([(Fld.OUT_STAT_PUMP, 1), (Fld.FIO_CFGc_MODE 31, 3), (Fld.FIO_STAT_CFGOK, 1), (Fld.FIO_STAT_VF_OK, 1)] ++ l)).setReg Reg.OUT_CMD 0x80000000

theorem witness_OutputSupervision : (let s := outputs []
    bit (s.reg Reg.OUT_CMD) 31 = true ∧ s.flag Fld.OUT_STAT_PUMP = true ∧ bit s.cutMask 31 = false ∧ bit (s.reg Reg.OUT_CHFAULT) 31 = false ∧
      s.shouldBeOff 31 = false ∧ s.isOutput 31 = true ∧ s.isOutput 30 = false ∧ s.flag Fld.OUT_STAT_GROUP = false ∧ s.flag Fld.OUT_STAT_VRD = false ∧
      s.opState = 5 ∧ s.boot.holdup = none) ∧
    ((outputs []).setReg Reg.OUT_CMD 0).shouldBeOff 31 = true ∧
    bit ({ outputs [] with fio := { Fio.reset with dark := 0x80000000 } } : State).fio.dark 31 = true := by decide +kernel

theorem test_stuck_on_locks_out : (after (.stuckOn (.channel 31)) ((outputs []).setReg Reg.OUT_CMD 0)).opState = 8 ∧
    (after (.stuckOn (.channel 30)) (outputs [])).opState = 5 ∧ (after (.stuckOn .group) (outputs [])).opState = 8 := by decide +kernel
theorem test_readback_fault : (after (.readbackFault 31) (outputs [])).reg Reg.OUT_CHFAULT = 0x80000000 := by decide +kernel

/-- The heartbeats alternate, and the applied set commands channel 31. -/
def driving (l : List (Field × Nat)) : State :=
  let s := (outputs l)
  { s with
      pod := { s.pod with hbGood := true }
      prog := some { prog0 with objects := [8, 8, 8, 8, 0, 1], bindings := [(0xA000, 0x8000001F)] }
      com := { s.com with applied := [(0xA000, 2)] } }

theorem witness_FieldRefresh : (outputs []).flag Fld.FIO_STAT_CFGOK = true ∧ (mode 7 []).energy = false ∧
    (withFlds (outputs []) [(Fld.TWIN_STAT_RESTRICT, 1)]).flag Fld.TWIN_STAT_RESTRICT = true ∧
    bit (driving []).downlinkCmd 31 = true ∧ (driving []).fio.downRef = none ∧ (driving []).fio.upRef = none ∧
    (let s : State := { driving [] with fio := { Fio.reset with downSeq := 7, downRef := some 7, downGot := 7, upRef := some 7 } }
    s.fio.downRef = some s.fio.downSeq ∧ s.fio.upRef = some ((s.downlink []).fio.downGot - 1)) ∧
    (let frame := State.withErrors (State.downlinkFrame 1 0 0) [0x01]
    State.refreshOk 0x46490044 none frame = false) := by decide +kernel

/-- The 4,000th refresh with the channel energised carries its off-pulse, and no other (R214). -/
theorem test_dark_pulse : (let s := fun n => ({ (driving []).setReg Reg.OUT_DARKEN 0x80000000 with fio := { Fio.reset with energised :=
    [(31, n)] } } : State)
    (s 4000).darkPulses 0x80000000 = 0x80000000 ∧ (s 3999).darkPulses 0x80000000 = 0 ∧ (s 0).darkPulses 0x80000000 = 0) := by decide +kernel

theorem witness_FieldEvents : (outputs []).fio.upLost = false ∧ (outputs []).fio.downLost = false ∧ (outputs []).isOutput 31 = true ∧
    bit (outputs []).fio.latch 31 = false ∧ (outputs []).flag Fld.FIO_STAT_VF_OK = true ∧ (mode 5 []).flag Fld.FIO_STAT_VF_OK = false := by
  decide +kernel

theorem test_group_trip : (after .groupTrip (outputs [])).fld Fld.FIO_STAT_GRPTRIP = 1 := by decide +kernel
theorem test_thermal_status : (after (.thermalTrip 31) (outputs [])).fld (Fld.FIO_CHc_STATUS 31) = 4 := by decide +kernel

theorem witness_FieldInputs : (outputs []).isInput 30 = false ∧
    (let s : State := { withFlds (outputs []) [(Fld.FIO_CFGc_MODE 0, 1), (Fld.FIO_CFGc_TPS 0, 4)] with
      fio := { Fio.reset with tpsAt := [(3, 990)] } }
    s.masked 0 = true) := by decide +kernel

/-- An input of filter 1 changes with its fourth sample. -/
theorem test_filter_reaches_end : (let s : State := { withFlds (outputs []) [(Fld.FIO_CFGc_MODE 0, 1), (Fld.FIO_CFGc_FILT 0, 1)] with
      fio := { Fio.reset with count := [(0, 3)] } }
    bit (after (.fieldInputSample 1) s).fio.state 0 = true ∧ bit (after (.fieldInputSample 0) s).fio.state 0 = false) := by decide +kernel

/-- Safety function 7 is enabled. -/
def safety (l : List (Field × Nat)) : State := cycling ((Fld.SFB_CFGf_EN 7, 1) :: l)

theorem witness_SafetyFunctions : (safety []).flag (Fld.SFB_CFGf_EN 7) = true ∧ (safety []).flag (Fld.SFB_CFGf_KSAFE 7) = false ∧
    (safety []).flag (Fld.SFB_STATf_DEMAND 7) = false ∧ (safety [(Fld.SFB_CFGf_VRDCUT 7, 1)]).flag (Fld.SFB_CFGf_VRDCUT 7) = true ∧
    (let s : State := { safety [(Fld.SFB_STATf_DEMAND 7, 1)] with sfb := ⟨0x8080, 0x80, 0, 0x80, 0x80⟩ }
    s.flag (Fld.SFB_STATf_DEMAND 7) = true ∧ bit s.sfb.shown 7 = true ∧ bit s.sfb.shown 15 = true ∧ bit s.sfb.wait 7 = true) ∧
    (safety []).flag (Fld.SFB_STATf_FAULT 7) = false ∧ (∀ g : Fin 8, (safety []).flag (Fld.SFB_CFGf_KSAFE g) = false) := by decide +kernel

theorem test_discrepancy_locks : (after (.sfbDiscFault 7) (safety [])).flag (Fld.SFB_STATf_LOCKED 7) = true := by decide +kernel
theorem test_demand_withdraws : (after (.sfbDemand 7 ⟨true, .sfb2⟩) (safety [])).withdraws true 7 = true ∧
    (after (.sfbDemand 7 ⟨true, .sfb2⟩) (safety [])).withdraws false 7 = false := by decide +kernel

/-- The key in a phase, 2 s after the start. -/
def key (n : Nat) (a b : Bool) (x y z : Nat) (st : Nat) : State :=
  { mode st [] with ticks := 50000000, lor := ⟨n, a, b, 0, 0, x, y, z, none⟩ }

theorem witness_LockOutReset : (key 0 false false 0 0 0 8).opState = 8 ∧ 0 + 1000000000 ≤ 40 * (key 0 false false 0 0 0 8).ticks ∧
    (40 * (key 1 true false 1500000000 0 0 8).ticks ≤ 1500000000 + 500000000) ∧
    (1800000000 + 200000000 ≤ 40 * (key 2 true true 0 1800000000 0 8).ticks) ∧
    (40 * (key 3 false true 0 0 1500000000 8).ticks ≤ 1500000000 + 500000000) ∧
    (withFlds (mode 7 []) [(Fld.OUT_SAFECFG_AUTO, 1)]).flag Fld.OUT_SAFECFG_AUTO = true ∧ (mode 7 []).causeNow = none ∧
    (let s : State := { withFlds (mode 7 []) [(Fld.OUT_SAFECFG_AUTO, 1), (Fld.OUT_SAFECFG_HOLD, 2)] with ticks := 50000000 }
    s.boot.safeAt + s.fld Fld.OUT_SAFECFG_HOLD * 25000000 ≤ s.ticks) ∧
    (let s : State := { key 1 true false 1000000000 0 0 8 with ticks := 250000001 }
    s.lor.onset + 500000000 < 40 * s.ticks ∧ s.lor.changedA + 10000000000 < 40 * s.ticks ∧ s.lor.levelA = true) ∧
    (let s : State := { key 3 false true 0 0 1000000000 8 with ticks := 37500001 }
    s.lor.release + 500000000 < 40 * s.ticks) := by decide +kernel

theorem test_pair_in_time : (after (.lorChannelEdge true true) (key 1 true false 1500000000 0 0 8)).lor.phase = 2 := by decide +kernel
theorem test_pair_too_late : (after (.lorChannelEdge true true) (key 1 true false 1499999960 0 0 8)).lor.phase = 4 := by decide +kernel
theorem test_key_release_leaves : (after (.lorChannelEdge true false) (key 3 false true 0 0 1500000000 8)).opState = 0 := by decide +kernel

/-! ### Supply, reset, start and time -/

theorem witness_Feeds : (cycling []).feed true = 0 ∧ (cycling []).feed false = 0 ∧
    (let s : State := { cycling [] with pins := ⟨0, 1, 0, false⟩ }
    s.feed true = 0 ∧ s.feed false = 1 ∧ s.boot.holdup = none) ∧
    (let s : State := { cycling [] with pins := ⟨0, 2, 0, false⟩ }
    s.feed false = 2) ∧
    (let s : State := { cycling [] with boot := { (cycling []).boot with holdup := some 5 } }
    s.boot.holdup.isSome = true ∧ s.opState ≠ 0) := by decide +kernel

theorem test_second_feed_stops_kernel : (after (.feedFail true) { cycling [] with pins := ⟨0, 1, 0, false⟩ }).cyc.running = false := by decide +kernel
theorem test_one_feed_goes_on : (after (.feedFail true) (cycling [])).cyc.running = true := by decide +kernel

theorem witness_ResetAndPins : (cycling []).opState ≠ 0 ∧ State.reset.boot.off = true ∧ State.reset.boot.stay = false ∧
    State.reset.pins.feedA = 0 ∧ (mode 9 []).opState = 9 ∧
    (withFlds (mode 9 []) [(Fld.PWR_WAKEEN_PIN, 1)]).flag Fld.PWR_WAKEEN_PIN = true := by decide +kernel

theorem test_reset_release_counts : (after (.resetRelease false) State.reset).nv.starts = 1 := by decide +kernel
theorem test_tamper_erases_keys : (after (.tamper true) { cycling [] with nv := { NonVol.blank with keys := [(3, [1])] } }).nv.keys = [] := by
  decide +kernel

/-- START at a step. -/
def starting (n w : Nat) : State := { mode 2 [] with boot := { (mode 2 []).boot with step := n, windows := w } }

theorem witness_StartSteps : (starting 5 0).opState = 2 ∧ (starting 5 0).boot.step = 5 ∧ (starting 6 1).boot.step = 6 ∧
    2 ≤ (starting 6 2).boot.windows ∧ (starting 8 0).boot.running = true ∧ (starting 8 0).opState ≠ 0 ∧
    (let s := mode 3 [(Fld.BIST_STAT_SLICE, 33)]
    s.opState = 3 ∧ s.boot.bad = false ∧ 0 < s.fld Fld.BIST_STAT_SLICE ∧ s.fld Fld.BIST_STAT_SLICE < 34) ∧ slicePea 2 = none ∧
    slicePea 18 = none ∧
    (let s : State := { mode 10 [(Fld.BIST_STAT_SLICE, 31)] with boot := { (mode 10 []).boot with woke := 1 } }
    s.opState = 10 ∧ s.fld Fld.BIST_STAT_SLICE < 32 ∧ s.boot.woke ≠ 0) := by decide +kernel

/-- A start at step `n` of a module with its keys, a seal that is unused or used, and a pod of two peas. -/
def keyed (n : Nat) (used : Bool) (lock : Option LockRecord) : State :=
  let s := withFlds (starting n 0) [(Fld.PEA_x_STAT_IN_SERVICE 0, 1), (Fld.PEA_x_STAT_IN_SERVICE 2, 1)]
  { s with nv := { NonVol.blank with
      fwKey := some ⟨1, [1]⟩, pgKey := some ⟨1, [2]⟩, lifecycle := 2, tkValid := true, lockout := lock
      sealed := some ⟨NonVol.blank.serial, 0, 0, State.reset.repairsCrc, false, false, used⟩ } }

theorem witness_StartSteps_outcomes : (starting 1 0).boot.step = 1 ∧ (starting 2 0).nv.lcNext = none ∧ (starting 2 0).nv.fwKey = none ∧
    ((keyed 2 false none).nv.fwKey.isSome = true ∧ (keyed 2 false none).nv.pgKey.isSome = true ∧ (keyed 2 false none).nv.lcNext = none) ∧
    ((keyed 3 false none).sealOutcome false = 1 ∧ (keyed 3 true none).sealOutcome false ≠ 1 ∧ (keyed 3 false none).sealOutcome true ≠ 1) ∧
    ((starting 4 0).opState = 2 ∧ (starting 4 0).activeSlot 2 = none) ∧
    ((starting 7 0).blockCode ≠ 0 ∧ (keyed 7 false none).blockCode = 0 ∧ (keyed 7 false none).nv.lockout = none ∧
      (keyed 7 false (some ⟨7, 0, 0⟩)).blockCode = 0 ∧ (keyed 7 false (some ⟨7, 0, 0⟩)).nv.lockout.isSome = true) ∧
    (starting 8 0).ringsRunning = true ∧
    (let s : State := { mode 10 [(Fld.BIST_STAT_SLICE, 32)] with boot := { (mode 10 []).boot with parkFor := 2 } }
    s.opState = 10 ∧ s.fld Fld.BIST_STAT_SLICE = 32 ∧ s.boot.woke = 0 ∧ s.boot.bad = false ∧ s.boot.parkFor = 2) := by decide +kernel

theorem test_step_6_waits : (after (.startStepComplete ⟨false, false, false, true, 0x7F, 0x7F⟩) (starting 6 1)).boot.step = 6 ∧
    (after (.startStepComplete ⟨false, false, false, true, 0x7F, 0x7F⟩) (starting 6 2)).boot.step = 7 := by decide +kernel
theorem test_slice_follows : (after (.bistSliceEnd true 0 false []) (mode 3 [(Fld.BIST_STAT_SLICE, 33)])).fld Fld.BIST_STAT_SLICE = 34 := by
  decide +kernel

/-- PPS is in use, and the last edge came at tick `n`. -/
def pps (n : Option Nat) (l : List (Field × Nat)) : State :=
  { cycling ((Fld.TIME_CTRL_PPS_EN, 1) :: l) with clock := ⟨none, 0, n, 0, 0, []⟩, ticks := 30000000 }

theorem witness_StationTime : (withFlds (cycling []) [(Fld.TIME_STAT_SET, 1)]).flag Fld.TIME_STAT_SET = true ∧
    (pps (some 4974999) []).flag Fld.TIME_CTRL_PPS_EN = true ∧ (pps none []).isTwin = false ∧
    1001000000 < ((pps (some 4974999) []).ticks - 4974999) * 40 ∧
    (pps none [(Fld.TIME_STAT_PPS_OK, 1)]).flag Fld.TIME_STAT_PPS_OK = true ∧
    (∀ t0, ({ pps (some 0) [] with ticks := 75000000 } : State).clock.lastPps = some t0 → t0 + 75000000 ≤ 75000000) ∧
    (let s := withRegs (cycling []) [(Reg.TIME_ALARMHI, 1), (Reg.TIME_ALARMLO, 0x2A05F200)]
    s.opState ≠ 9 ∧ (s.reg Reg.TIME_ALARMHI).toNat * 2 ^ 32 + (s.reg Reg.TIME_ALARMLO).toNat = s.now ∧
      s.flag Fld.PWR_WAKEEN_ALARM = false) ∧
    (withFlds (mode 9 []) [(Fld.PWR_WAKEEN_ALARM, 1)]).flag Fld.PWR_WAKEEN_ALARM = true ∧ (mode 9 []).opState = 9 ∧
    (let s : State := { State.reset with pins := ⟨0, 1, 2, false⟩ }
    s.opState = 0 ∧ s.pins.feedA ≠ 0 ∧ s.pins.feedB ≠ 0) := by
  refine ⟨by decide +kernel, by decide +kernel, by decide +kernel, by decide +kernel, by decide +kernel, fun t0 h => by cases h; decide,
    by decide +kernel⟩

theorem test_pps_late_is_ignored : (after .ppsEdge (pps (some 4974999) [])).fld Fld.TIME_PPS_IGNORED = 1 := by decide +kernel

/-! ### Hosts -/

/-- Session 3 of the hosts' tests: its sender, its peer and its key. -/
def hostProg : Program := { prog0 with sessions := [⟨3, 0x11, [0x0A000001], []⟩] }

/-- A module in state `st` with session 3 open under epoch 4, station time set to 5 s, every permission, class 2. -/
def hosting (st : Nat) (l : List (Field × Nat)) : State :=
  let s := mode st ([(Fld.HSTx_STAT_LINK 0, 1), (Fld.SESS_CFGs_EN 3, 1), (Fld.SESS_CFGs_CLASS 3, 2), (Fld.SESS_CFGs_PERMS 3, 0xFF),
    (Fld.SESS_CFGs_RATE 3, 10), (Fld.SESS_CFGs_TOL 3, 10), (Fld.SESS_STATEs_OPEN 3, 1), (Fld.TIME_STAT_SET, 1), (Fld.PROG_CYCLE_TV_MS, 10),
    (Fld.PROG_CYCLE_K, 5)] ++ l)
  { s.setReg (Reg.SESS_EPOCHs 3) 4 with
    now := 5000000000, prog := some hostProg, cyc := { s.cyc with running := true, n := 9 }
    hosts := { s.hosts with neigh := [(0, .v4 0x0A000001, 5000000000)] }
    nv := { NonVol.blank with keys := [(6, List.replicate 16 0x2B)], serial := 77 } }

/-- A message of that session without an envelope, with `n` payload bytes. -/
def plainMsg (n : Nat) : OhpMsg :=
  ⟨0, .v4 0x0A000001, 5000, 0x4F48, 1, 3, 0, BitVec.ofNat 16 n, 1, 4, 9, 0, 0, 0, 0, [], none⟩

/-- Its envelope but for the MAC. -/
def envelope (t : Nat) : Envelope := ⟨1, 0, 0, 0x11, BitVec.ofNat 64 t, 0, 0, 0⟩

/-- The same message in an envelope with the MAC that the session's key gives for type `type` and this payload. -/
def sealedMsg (s : State) (type : Byte) (payload : List Byte) : OhpMsg :=
  let m := { plainMsg payload.length with flags := 1, env := some (envelope 5000000000) }
  { m with env := some { envelope 5000000000 with
    mac := ohpMac (s.sessionKey 3 0) (s.reg Reg.SESS_DOMAIN) (ohpHeader m type) payload (envelope 5000000000) } }

theorem letsIn_intro {s : State} {m : OhpMsg} (h : s.portUp m.port = true ∧ m.magic = 0x4F48 ∧ m.ver = 1 ∧ s.shutOut m = false) : s.LetsIn m :=
  ⟨h.1, h.2.1, h.2.2.1, h.2.2.2⟩

theorem ohpMac_mac (k : List Byte) (d : Word) (hd p : List Byte) (e : Envelope) (x : BitVec 64) :
    ohpMac k d hd p { e with mac := x } = ohpMac k d hd p e := by simp only [ohpMac, envBytes]

theorem ohpHeader_env (m : OhpMsg) (type : Byte) (e : Option Envelope) : ohpHeader { m with env := e } type = ohpHeader m type := by
  simp only [ohpHeader]

/-- A message in its envelope holds its MAC. -/
theorem macHolds_sealed (s : State) (type : Byte) (payload : List Byte) (h : s.senderOf 3 = some 0x11) :
    ∃ e, (sealedMsg s type payload).env = some e ∧ s.macHolds (sealedMsg s type payload) type payload e = true := by
  refine ⟨_, rfl, ?_⟩
  unfold State.macHolds
  rw [Bool.and_eq_true]
  refine ⟨by rw [show sessionOf (sealedMsg s type payload) = 3 from rfl, h]; rfl, decide_eq_true ?_⟩
  rw [ohpMac_mac]
  unfold sealedMsg
  rw [ohpHeader_env]
  rfl

/-- What has to be shown of a state so that it accepts a vital message of session 3. -/
theorem accepts_intro {s : State} {r : HostReq} (m : OhpMsg) (hm : m = sealedMsg s (reqType r) (reqPayload 0 r))
    (h : s.portUp 0 = true ∧ s.shutOut m = false ∧ headerBad m (reqPayload 0 r) true = false ∧ s.envelopeBad 3 (envelope 5000000000) = false ∧
      s.senderOf 3 = some 0x11 ∧ s.timely 3 (envelope 5000000000) = true ∧ s.orders = true ∧ s.holds = false)
    (c : s.current m = true ∧ ((s.session 3).accepted.find? fun a => a.sseq = 1) = none ∧ (s.reg (Reg.SESS_SEQs 3)).toNat < 1 + 64) :
    s.Accepts m r := by
  subst hm
  obtain ⟨e, he, hmac⟩ := macHolds_sealed s (reqType r) (reqPayload 0 r) h.2.2.2.2.1
  have hd : e = { envelope 5000000000 with mac := e.mac } := by cases he; rfl
  refine ⟨⟨⟨h.1, rfl, rfl, h.2.1⟩, h.2.2.1, ⟨e, he, ?_, hmac, ?_⟩, h.2.2.2.2.2.2.1, h.2.2.2.2.2.2.2⟩, c.1, c.2.1, c.2.2⟩
  · rw [hd]; exact h.2.2.2.1
  · rw [hd]; exact h.2.2.2.2.2.1

/-- Requests of each kind are accepted, from the first to the last place of the acceptance window. -/
theorem witness_Accepts_closing : (hosting 5 []).Accepts (sealedMsg (hosting 5 []) 0x03 []) .closing :=
  accepts_intro _ rfl (by decide +kernel) (by decide +kernel)

/-- A state accepts a request with these parameters, and R313 does not refuse it. -/
abbrev takes (s : State) (kind : Byte) (ps : List Word) : Prop :=
  s.Accepts (sealedMsg s 0x20 (reqPayload 0 (.request kind ps))) (.request kind ps) ∧
    s.requestCode (sessionOf (sealedMsg s 0x20 (reqPayload 0 (.request kind ps)))) kind = 0

theorem witness_ImageRequests : takes ((hosting 5 []).setReg (Reg.SESS_SEQs 3) 64) 0x00 [] ∧ takes (hosting 5 []) 0x81 [1, 0x20410, 0, 3] ∧
    takes (hosting 5 []) 0x0F [1, 2, 3, 4, 5, 6, 7] ∧ takes (hosting 5 []) 0x86 [] ∧ takes (hosting 6 []) 0x87 [0x40010060, 1, 1] ∧
    imageKind 0x0F = true ∧ imageKind 0x87 = true :=
  ⟨⟨accepts_intro _ rfl (by decide +kernel) (by decide +kernel), by decide +kernel⟩,
   ⟨accepts_intro _ rfl (by decide +kernel) (by decide +kernel), by decide +kernel⟩,
   ⟨accepts_intro _ rfl (by decide +kernel) (by decide +kernel), by decide +kernel⟩,
   ⟨accepts_intro _ rfl (by decide +kernel) (by decide +kernel), by decide +kernel⟩,
   ⟨accepts_intro _ rfl (by decide +kernel) (by decide +kernel), by decide +kernel⟩, by decide +kernel, by decide +kernel⟩

theorem witness_DecidedRequests_states : takes (hosting 5 []) 0x84 [(hosting 5 []).nv.serial] ∧ takes (hosting 7 []) 0x85 [(hosting 7 []).nv.serial] ∧
    takes (hosting 5 [(Fld.EVR_MODE_OX7, 1)]) 0x88 [] ∧ (hosting 5 [(Fld.EVR_MODE_OX7, 1)]).recClearCode = 0 ∧
    takes (hosting 5 [(Fld.EVR_MODE_OX7, 0)]) 0x88 [] ∧ (hosting 5 [(Fld.EVR_MODE_OX7, 0)]).recClearCode = 0x50 ∧
    takes (hosting 5 []) 0x8A [w32 (BitVec.toNat (6000000000#64)), w32 (BitVec.toNat (6000000000#64) / 2 ^ 32)] ∧ takes (hosting 5 []) 0x8A [0, 0] ∧
    (hosting 5 []).cyc.running = true :=
  ⟨⟨accepts_intro _ rfl (by decide +kernel) (by decide +kernel), by decide +kernel⟩,
   ⟨accepts_intro _ rfl (by decide +kernel) (by decide +kernel), by decide +kernel⟩,
   ⟨accepts_intro _ rfl (by decide +kernel) (by decide +kernel), by decide +kernel⟩, by decide +kernel,
   ⟨accepts_intro _ rfl (by decide +kernel) (by decide +kernel), by decide +kernel⟩, by decide +kernel,
   ⟨accepts_intro _ rfl (by decide +kernel) (by decide +kernel), by decide +kernel⟩,
   ⟨accepts_intro _ rfl (by decide +kernel) (by decide +kernel), by decide +kernel⟩, by decide +kernel⟩

/-- A staged image of build 2 on the running one, which may be armed for 7 s and not for 6.999999999 s. -/
def armable : State :=
  let s := hosting 5 [(Fld.PROG_STAT_STAGED, 1), (Fld.IVE_STAT_STAGED, 1)]
  { s.setReg Reg.PROG_IMGID 1 with xch := { s.xch with staged := some { hostProg with imgId := 2, base := 1 } } }

theorem witness_DecidedRequests_exchange : takes armable 0x82 [1, 1, w32 (BitVec.toNat (7000000000#64)),
    w32 (BitVec.toNat (7000000000#64) / 2 ^ 32), 2] ∧
    armable.armRefusal 1 7000000000 2 = none ∧ armable.armRefusal 1 6999999999 2 = some 0x26 ∧ armable.isTwin = false ∧
    takes { hosting 5 [] with xch := { (hosting 5 []).xch with armed := some { arming with waiting := false } } } 0x82 [2, 0, 0, 0, 0] :=
  ⟨⟨accepts_intro _ rfl (by decide +kernel) (by decide +kernel), by decide +kernel⟩, by decide +kernel, by decide +kernel, by decide +kernel,
   ⟨accepts_intro _ rfl (by decide +kernel) (by decide +kernel), by decide +kernel⟩⟩

/-- The active unit of a twin whose partner is STANDBY with three equal digests. -/
def twinHosting (l : List (Field × Nat)) : State :=
  let s := hosting 5 ([(Fld.TWIN_STAT_TWIN, 1), (Fld.TWIN_STAT_LINK, 1), (Fld.TWIN_STAT_ROLE, 4), (Fld.TWIN_DIGCMP_RUN, 3)] ++ l)
  { s with twin := { Twin.reset with status := some ⟨8, 0x01000000, 6, 3, 0, 0⟩ } }

theorem witness_DecidedRequests_swap : takes (twinHosting []) 0x83 [1, w32 (BitVec.toNat (7000000000#64)),
    w32 (BitVec.toNat (7000000000#64) / 2 ^ 32)] ∧
    (twinHosting []).swapCode ((twinHosting []).cycleAt 7000000000) false = 0 ∧ (twinHosting []).now + 2000000000 ≤ 7000000000 ∧
    (twinHosting []).flag Fld.TWIN_SWAP_ARMED = false ∧
    takes { twinHosting [(Fld.TWIN_SWAP_ARMED, 1)] with twin := { (twinHosting []).twin with swapInit := true } } 0x83 [2, 0, 0] :=
  ⟨⟨accepts_intro _ rfl (by decide +kernel) (by decide +kernel), by decide +kernel⟩, by decide +kernel, by decide +kernel, by decide +kernel,
   ⟨accepts_intro _ rfl (by decide +kernel) (by decide +kernel), by decide +kernel⟩⟩

/-- Slot 3 is valid and inactive. -/
theorem witness_DecidedRequests_activate : (let s : State := { hosting 5 [] with
      nv := { (hosting 5 []).nv with slots := [(3, { emptySlot with valid := true })] } }
    takes s 0x89 [3, w32 (BitVec.toNat (7000000000#64)), w32 (BitVec.toNat (7000000000#64) / 2 ^ 32)] ∧
      s.activateCode 3 7000000000 s.nextStamp = 0 ∧ s.activateCode 3 6999999999 s.nextStamp = 0x62) :=
  ⟨⟨accepts_intro _ rfl (by decide +kernel) (by decide +kernel), by decide +kernel⟩, by decide +kernel, by decide +kernel⟩

theorem witness_SessionsOpenAndClose : (hosting 5 []).Vital (sealedMsg (hosting 5 []) 0x01 (leBytes 8 5)) (.opening 5) ∧
    ¬ (5 : BitVec 64) ∈ Store.get (fun _ => []) (hosting 5 []).nv.nonces 3 ∧ (hosting 5 []).numHalted = false :=
  ⟨(accepts_intro (r := .opening 5) _ rfl (by decide +kernel) (by decide +kernel)).vital, by decide +kernel, by decide +kernel⟩

theorem plain_intro {s : State} {m : OhpMsg} {p : List Byte} (h : s.portUp m.port = true ∧ m.magic = 0x4F48 ∧ m.ver = 1 ∧ s.shutOut m = false ∧
    m.env = none ∧ headerBad m p false = false ∧ s.current m = true) : s.Plain m p :=
  ⟨⟨h.1, h.2.1, h.2.2.1, h.2.2.2.1⟩, h.2.2.2.2.1, h.2.2.2.2.2.1, h.2.2.2.2.2.2⟩

/-- A state with a READY entry and a PENDING one in the session's response queue. -/
def queued : State := { hosting 5 [] with queues := [(7, ⟨2, [⟨0, true, .raw [1]⟩, ⟨1, false, .raw [2]⟩], 0, none⟩)] }

theorem witness_PlainMessages : queued.Plain (plainMsg 0) [] ∧ queued.Plain (plainMsg 8) (wordBytes 0x40000000 ++ leBytes 2 128 ++ [0, 0]) ∧
    ((queued.heard (plainMsg 8)).readWords 0x40000000 0 128).2.2 = none ∧ queued.Plain (plainMsg 4) [0, 0, 0, 0] ∧
    queued.Plain (plainMsg 4) [1, 31, 0, 0] ∧ queued.Plain (plainMsg 8) ([0, 0, 0, 0] ++ wordBytes 0) ∧
    (queued.queue (hostQueue 3 0)).entries.map (fun e => (e.seq, e.ready)) = [(0, true), (1, false)] ∧
    queued.Plain (plainMsg 8) (wordBytes 0 ++ [8, 0, 0, 0]) ∧ queued.Plain (plainMsg 8) (wordBytes 6 ++ [1, 0, 0, 0]) ∧
    State.unreadable 0x40000000 = false ∧ (∃ a : Nat, State.unreadable a = true) :=
  ⟨plain_intro (by decide +kernel), plain_intro (by decide +kernel), by decide +kernel, plain_intro (by decide +kernel),
   plain_intro (by decide +kernel), plain_intro (by decide +kernel), by decide +kernel, plain_intro (by decide +kernel),
   plain_intro (by decide +kernel), by decide +kernel, 0x63FFFFFC, by decide +kernel⟩

/-- KEEP is answered with station time: 5,000,000,000 ns. -/
theorem test_keep_answers_time : (after (.keep (plainMsg 0)) queued).out.map (fun o => match o with
    | .ohp x => x.payload
    | _ => []) = [[0x00, 0xF2, 0x05, 0x2A, 0x01, 0, 0, 0]] := by decide +kernel
theorem test_qconsume_takes_head : ((after (.qconsume (plainMsg 8) 0 0) queued).queue 7).entries.length = 1 := by decide +kernel
theorem test_qconsume_stale : ((after (.qconsume (plainMsg 8) 0 1) queued).queue 7).entries.length = 2 := by decide +kernel

theorem witness_PostedWrites : queued.LetsIn (plainMsg 520) ∧ headerBad (plainMsg 520) (List.replicate (8 + 4 * 128) 0) false = false ∧
    (let s : State := { queued with posted := [⟨.host 3, 9, 0x4003B18C, [0]⟩] }
    s.posted = [⟨.host 3, 9, 0x4003B18C, [0]⟩] ∧ ∀ f ∈ (s.session 3).fences, f.left = 0) ∧
    (queued.hostWrite 3 (Reg.QUE_CONSUMEq 7) 0).2 = 0 ∧ (queued.hostWrite 3 (Reg.QUE_CONSUMEq 7) 0).1.session 3 = queued.session 3 ∧
    (let s : State := { queued with sessions := [(3, { freshSession with fences := [⟨9, none, 0, ⟨0, 0, 0, 0, 0⟩⟩], peer := some ⟨0, .v4 1, 2⟩ })] }
    (s.session 3).fences = [⟨9, none, 0, ⟨0, 0, 0, 0, 0⟩⟩] ∧ (s.session 3).peer = some ⟨0, .v4 1, 2⟩) :=
  ⟨letsIn_intro (by decide +kernel), by decide +kernel, by decide +kernel, by decide +kernel, by decide +kernel, by decide +kernel⟩

/-- A journal entry of request 6. -/
def entry6 : JEntry := ⟨1, 6, 0, 3, 0x05, false, false, false, false, 0, 1, 4, 44, 0, 0, 0, 0, 77, 0, [], [], 0⟩

/-- WAKE in PARKED, from a session whose last WAKE is older. -/
def parked : State := hosting 9 [(Fld.PWR_PARKPORT_PORT, 0), (Fld.PWR_WAKEEN_OHP, 1)]

theorem witness_HostTimers : (let s : State := { queued with
      nv := { queued.nv with journal := [entry6] }
      queues := [(7, ⟨2, [⟨0, false, .resp ⟨5, 0, 0, 6, 1, 0, 0, 0, 0, 9⟩⟩], 0, none⟩)]
      cyc := { queued.cyc with n := 26 } }
    s.journalOf 6 = some entry6 ∧ programKind entry6.kind = true ∧ s.awaits entry6.session 6 = true ∧ entry6.imgRc ≠ 0 ∧
      17 ≤ (s.vcyc - s.cycleOfImage entry6.imgRc).toInt) ∧
    (let s : State := { hosting 5 [] with now := 30000000000 }
    s.isOpen 3 = true ∧ (s.session 3).lastHeard + 30000000000 ≤ s.now ∧ s.followsPartner = false) ∧
    (let s : State := { hosting 5 [] with now := 60000000001, sessions := [(3, { freshSession with blockedAt := some 1 })] }
    (s.session 3).blockedAt = some 1 ∧ 1 + 60000000000 ≤ s.now) ∧
    (let s : State := { withFlds (hosting 5 []) [(Fld.SESS_STATEs_OPEN 3, 0)] with
      now := 300000000001, sessions := [(3, { freshSession with closedAt := some 1 })] }
    s.isOpen 3 = false ∧ (s.session 3).closedAt = some 1 ∧ 1 + 300000000000 ≤ s.now) ∧
    (let w : CoWindow := ⟨15, 0, 0x0501, 5, 0, 0, 4900000000, ⟨0, 0, 0, 0, 1, 0, 0, 0, []⟩, none⟩
    w.opened + 100000000 ≤ (hosting 5 []).now ∧ (hosting 5 []).used (32 + w.session) < 192) ∧
    (parked.opState = 9 ∧ parked.fld Fld.PWR_PARKPORT_PORT = 0 ∧
      parked.shutOut (sealedMsg parked 0x60 (wordBytes 77)) = false ∧ headerBad (sealedMsg parked 0x60 (wordBytes 77)) (wordBytes 77) true = false ∧
      parked.classOf 3 ≠ 0 ∧ parked.flag Fld.PWR_WAKEEN_OHP = true ∧ Store.get (fun _ => 0) parked.nv.wakes 3 < 5000000000 ∧
      parked.envelopeBad 3 (envelope 5000000000) = false ∧ parked.timely 3 (envelope 5000000000) = true) := by decide +kernel

/-- The MAC of that WAKE message holds. -/
theorem witness_HostTimers_wake : ∃ e, (sealedMsg parked 0x60 (wordBytes 77)).env = some e ∧
    parked.macHolds (sealedMsg parked 0x60 (wordBytes 77)) 0x60 (wordBytes 77) e = true :=
  macHolds_sealed parked 0x60 (wordBytes 77) (by decide +kernel)

theorem witness_HostNetwork : (hosting 5 []).linkOn 0 = true ∧ (hosting 5 []).opState ≠ 9 ∧
    ((hosting 5 []).setReg (Reg.HSTx_IP4 0) 0x0A000002).ownAddr 0 (.v4 0x0A000002) = true ∧ (List.replicate 64 (0 : Byte)).length ≤ 64 ∧
    (withFlds ((hosting 5 []).setReg (Reg.HSTx_IP6i 0 3) 1) [(Fld.HSTx_STAT_V6 0, 1)]).ownAddr 0 (.v6 1) = true ∧
    ((hosting 5 []).setReg (Reg.HSTx_IP6i 0 3) 1).ip6 0 ≠ 0 := by decide +kernel

theorem test_arp_for_another_address : (after (.arpRequest 0 5) ((hosting 5 []).setReg (Reg.HSTx_IP4 0) 0x0A000002)).out = [] := by decide +kernel
theorem test_arp_reply : (after (.arpRequest 0 0x0A000002) ((hosting 5 []).setReg (Reg.HSTx_IP4 0) 0x0A000002)).out = [.arpReply 0 0x0A000002] := by
  decide +kernel

/-! ### The twin link -/

/-- A unit of a twin in a role, in cycle 9, with the link up, that has received frame 6. -/
def twinned (role : Nat) (l : List (Field × Nat)) : State :=
  let s := cycling ([(Fld.TWIN_STAT_TWIN, 1), (Fld.TWIN_STAT_LINK, 1), (Fld.TWIN_STAT_ROLE, role)] ++ l)
  { s with twin := { Twin.reset with rxSeq := some 6 } }

/-- Part `k` of a body in frame 7 of the unit Q with serial 88. -/
def hdr7 (b : TwinBody) (k : Nat := 0) : TwinHdr := TwinHdr.form 1 7 9 88 b k

/-- A frame as its sender forms it is valid, whatever its payload, if no field holds a reserved value. -/
theorem form_ok (b : TwinBody) (k : Nat) (h : b.fieldsOk = true ∧ k < b.parts) : (hdr7 b k).ok b k = true := by
  have hl : (b.part k).length < 65536 := by simp only [TwinBody.part, List.length_take]; omega
  have ht : b.typeCode < 256 := by cases b <;> exact of_decide_eq_true rfl
  unfold TwinHdr.ok
  simp only [Bool.and_eq_true, decide_eq_true_eq]
  refine ⟨⟨⟨⟨⟨⟨rfl, ?_⟩, show (BitVec.ofNat 8 (1 % 2)).toNat < 2 by decide⟩, ?_⟩, h.1⟩, h.2⟩, rfl⟩
  · exact (BitVec.toNat_ofNat ..).trans (Nat.mod_eq_of_lt ht)
  · exact (BitVec.toNat_ofNat ..).trans (Nat.mod_eq_of_lt hl)

/-- The unit P receives such a frame as the one that it expects. -/
theorem receives_intro {s : State} (b : TwinBody) (k : Nat) (h : s.isTwin = true ∧ s.letter = 0 ∧ s.twin.rxSeq = some 6)
    (g : b.fieldsOk = true ∧ k < b.parts) : s.Receives (hdr7 b k) b k :=
  ⟨h.1, form_ok b k g, by rw [h.2.1]; show (BitVec.ofNat 8 (1 % 2)).toNat % 2 ≠ 0; decide,
    h.2.2.trans (show some (6 : Word) = some (7 - 1) by decide)⟩

/-- The bodies of the twin link, each at a bound of its fields. -/
def bodies : List TwinBody :=
  [.sync 9 100 7000000000 44, .probe 0, .echo 4 20, .readyStart 1 1 0, .readyStart 0 1 0, .xferReq 0 0, .xferAccept 10, .xferRefuse 6,
   .xferNeed 9 [0, 1023, 0x801F], .xferNeed 9 [], .xarm 10 1, .xready 1, .xgo 10, .xabort 10 0x2C, .swapArm 10 0xFFFFFF, .swapAck 10,
   .swapGo 10, .swapAbort 10 15, .sched 10 2, .image ⟨44, [], 0, 0, 0, []⟩, .status 9 0x01000000 10 127 0 0,
   .bdig 8 (List.replicate 1056 5), .block 1023 10 (List.replicate 1024 1), .pad]

theorem witness_Receives : ∀ b ∈ bodies, (twinned 3 []).Receives (hdr7 b 0) b 0 := fun b h =>
  receives_intro b 0 (by decide +kernel) (by revert b; decide +kernel)

/-- The digests of the blocks take three frames. -/
theorem witness_Receives_parts : (twinned 1 []).Receives (hdr7 (.bdig 8 (List.replicate 1056 5)) 2) (.bdig 8 (List.replicate 1056 5)) 2 ∧
    (TwinBody.bdig 8 (List.replicate 1056 5)).parts = 3 := ⟨receives_intro _ _ (by decide +kernel) (by decide +kernel), by decide +kernel⟩

/-- A bit that flips on the way makes a frame invalid. -/
theorem test_seal_catches_a_bit : { hdr7 (.probe 0) with vcyc := 8 }.ok (.probe 0) 0 = false := by decide +kernel

theorem witness_TwinClock : (twinned 3 []).isTwin = true ∧ (twinned 3 []).role = 3 ∧ (twinned 2 []).role = 2 ∧ (twinned 3 []).cyc.running = true ∧
    (twinned 4 []).isActive = true ∧ (twinned 3 []).isActive = false ∧ (twinned 3 []).vcyc = 9 ∧
    ({ twinned 3 [] with twin := { Twin.reset with probe := some (4, 900) } } : State).twin.probe = some (4, 900) ∧ (twinned 3 []).linkUp = true ∧
    (twinned 3 []).twin.txq = [] ∧ (twinned 3 []).twin.xferBlocks = [] ∧
    (twinned 1 []).fld Fld.TWIN_XFER_PHASE ≤ 1 ∧
    (let s := twinned 3 [(Fld.PROG_CYCLE_K, 4)]
    let e := (s.cyc.tick0 : Int) + 0 * (s.cycleTicks : Int) - ((s.ticks : Int) - 100)
    2 * e.natAbs ≤ s.cycleTicks ∧ 2 < e.natAbs) ∧ (1 : Nat) < (((12 : Word) - (twinned 3 []).vcyc).toInt).natAbs ∧
    framePriority (.fwd (.response ⟨0, .v4 0, 0, 0, 0, 0, 0, 0, 0, 0, 0, [], none⟩)) ≤ 5 ∧
    1 < framePriority (.xready 1) ∧ framePriority (.xready 1) < framePriority (.fwd (.response
      ⟨0, .v4 0, 0, 0, 0, 0, 0, 0, 0, 0, 0, [], none⟩)) := by decide +kernel

/-- 100 ticks after the PROBE, with a turnaround of 20: 40 ns × 80 / 2. -/
theorem test_link_delay : (after (.echoFrame (hdr7 (.echo 4 20)) 4 20)
    { twinned 3 [] with twin := { Twin.reset with rxSeq := some 6, probe := some (4, 900) } }).fld Fld.TWIN_LINKDLY_DELAY = 1600 := by decide +kernel
theorem test_sync_sets_time : (after (.syncFrame (hdr7 (.sync 9 100 7000000000 0)) 9 100 7000000000 0) (twinned 3 [])).now = 7000004000 :=
    by decide +kernel

/-- An image with no entry, an order and a status of the partner. -/
def order8 : OrderRec := ⟨8, 3, 1, 100, 0x05, 4, [2], 44, 0x02000000, 88, [], 0⟩

theorem witness_TwinRoles : (twinned 3 []).twin.swapGo = false ∧ ((4 : Nat) ≠ 5 ∨ (0x02000000 : Word).toNat / 2 ^ 24 ≠ 2) ∧
    (twinned 3 []).hosts.gapDue = false ∧ programKind order8.kind = true ∧ (twinned 4 []).holds = false ∧ (1 : Nat) ≠ (twinned 3 []).letter ∧
    (let s : State := { cycling [] with twin := { Twin.reset with readyAt := some 5 } }
    s.isTwin = false ∧ s.boot.off = false ∧ s.twin.readyAt = some 5 ∧ State.nextEpoch s.knownEpoch s.letter = some 2) ∧
    (let s : State := { twinned 0 [] with twin := { Twin.reset with readyAt := some 5, status := some ⟨8, 0x02000000, 5, 3, 0, 0⟩ } }
    s.isTwin = true ∧ s.flag Fld.TWIN_STAT_ROLECLASH = false ∧ s.linkUp = true ∧ s.partnerActive 8 = true) := by decide +kernel

theorem test_order_is_journalled : (after (.orderFrame (hdr7 (.order order8)) order8) (twinned 3 [])).reg Reg.SESS_REQNUM = 8 := by decide +kernel
theorem test_role_clash : (after (.readyStart (hdr7 (.readyStart 0 1 0)) 0 1 0) (twinned 3 [])).fld Fld.TWIN_STAT_ROLECLASH = 1 := by decide +kernel
theorem test_single_takes_active : (after .firstRoleEvaluation { mode 4 [] with twin := { Twin.reset with readyAt := some 5 } }).opState = 5 := by
  decide +kernel

/-- Requests between the units: an order, and everything that a FWD frame carries. -/
theorem witness_Receives_requests : ∀ b ∈ [TwinBody.order order8, .fwd (.response ⟨0, .v4 0x0A000001, 5000, 0x21, 3, 1, 4, 9, 0, 0, 0, [1], none⟩),
    .fwd (.request (plainMsg 8) (.opening 5) none), .fwd (.session ⟨3, true, 4, 0, 1, none, none⟩)], (twinned 3 []).Receives (hdr7 b 0) b 0 :=
  fun b h => receives_intro b 0 (by decide +kernel) (by revert b; decide +kernel)

/-- A joiner in phase `n` that needs these blocks. -/
def joining (n : Nat) (need : List Nat) (latch : List (BitVec 64)) : State :=
  let s := twinned 1 [(Fld.TWIN_XFER_PHASE, n)]
  { s with twin := { s.twin with xferNeed := need, xferLatch := latch } }

theorem witness_StateTransfer : (twinned 4 []).xch.armed = none ∧ (twinned 4 []).prog.isSome = true ∧ (twinned 3 []).isActive = false ∧
    (joining 1 [] []).role = 1 ∧ (joining 1 [] []).fld Fld.TWIN_XFER_PHASE = 1 ∧ (joining 1 [] []).twin.xferStaged = false ∧
    (twinned 4 [(Fld.TWIN_XFER_DONOR, 1)]).flag Fld.TWIN_XFER_DONOR = true ∧ later 9 (twinned 4 []).vcyc = false ∧
    1023 ∈ (joining 2 [0, 1023] []).twin.xferNeed ∧ (joining 2 [0, 1023] []).fld Fld.TWIN_XFER_PHASE = 2 ∧
    (joining 3 [] [5]).twin.xferLatch ≠ [] ∧ (8 : Word) + 1 = (joining 3 [] [5]).vcyc ∧
      ({ joining 3 [] [5] with prog := none } : State).differing [5] = [] ∧
    (joining 3 [] [5]).fld Fld.TWIN_XFER_PHASE = 3 := by decide +kernel

theorem test_refused_transfer : (after (.xferRefuse (hdr7 (.xferRefuse 4)) 4) (joining 1 [] [])).role = 2 := by decide +kernel
theorem test_request_refused : (after (.xferReq (hdr7 (.xferReq 0 0)) 0 0) (twinned 3 [])).twin.txq = [(.xferRefuse 4, 0)] := by decide +kernel

/-- A swap armed for cycle 10; an arming by the partner for cycle 10. -/
def swapping (role : Nat) (i : Bool) : State :=
  let s := (twinned role [(Fld.TWIN_SWAP_ARMED, 1)]).setReg Reg.TWIN_SWAPCYC 10
  { s with twin := { s.twin with swapInit := i } }
def partnerArmed : State :=
  { twinned 3 [(Fld.TWIN_STAT_SYNCED, 1), (Fld.PROG_STAT_STAGED, 1), (Fld.IVE_STAT_STAGED, 1)] with
    xch := { State.reset.xch with staged := some prog0, armed := some { arming with byPartner := true, waiting := false } } }

theorem witness_TwinExchangeAndSwap : partnerArmed.isActive = false ∧ partnerArmed.stagedBuild = some 1 ∧
    partnerArmed.flag Fld.TWIN_STAT_SYNCED = true ∧
    (exchanging arming).xch.armed = some arming ∧ partnerArmed.xch.armed = some { arming with byPartner := true, waiting := false } ∧
    arming.x = partnerArmed.vcyc + 1 ∧ partnerArmed.phase + 2500 ≤ partnerArmed.cycleTicks ∧
    (swapping 4 true).flag Fld.TWIN_SWAP_ARMED = true ∧ (swapping 4 true).twin.swapInit = true ∧ (swapping 4 true).twin.swapAcked = false ∧
    (swapping 3 false).role = 3 ∧ (swapping 3 false).twin.swapInit = false ∧ (swapping 3 false).reg Reg.TWIN_SWAPCYC = (swapping 3 false).vcyc + 1 ∧
    (let s : State := { (swapping 3 false).setReg Reg.TWIN_SWAPCYC 9 with twin := { (swapping 3 false).twin with swapGo := true } }
    s.swapComing = true ∧ s.reg Reg.TWIN_SWAPCYC = s.vcyc ∧ s.twin.held = [] ∧ s.boot.off = false) := by decide +kernel

theorem test_swap_ack_timeout : (after .swapAckTimeout { swapping 4 true with ticks := 25000000 }).fld Fld.TWIN_SWAP_REF = 5 := by decide +kernel
theorem test_xabort_disarms : (after (.xabort (hdr7 (.xabort 10 0x2C)) 10 0x2C) partnerArmed).xch.armed = none := by decide +kernel

/-! ### Updates, registers, interrupts and the recorder -/

/-- A datagram with `n` payload bytes at offset `o`. -/
def dgram (n : Nat) (o : Word) : UpdMsg := ⟨some 0, .v4 0x0A000001, 1, 3, 0, BitVec.ofNat 16 n, 5, o, true⟩

/-- In SPROUT with a transfer of `len` bytes into a slot, of which `off` have come. -/
def filling (k : Option Nat) (len : Nat) (off : Word) : State :=
  let s := (mode 1 []).setReg Reg.UPD_XOFF off
  { s with upd := { s.upd with xfer := some ⟨5, if k = none then 3 else 1, k, len, 3, 0⟩ } }

theorem updTakes_intro {s : State} {u : UpdMsg} {n : Nat} (h : u.ver = 1 ∧ u.flags = 0 ∧ u.len.toNat = n ∧ u.crcOk = true)
    (g : (s.opState = 1 ∧ u.port ≠ some 1 ∧ s.nv.lifecycle ≠ 3) ∨ (s.opState ≠ 0 ∧ s.opState ≠ 1 ∧ s.opState ≠ 9 ∧ u.port ≠ none ∧
      u.session.toNat < 16 ∧ s.peerOf u.session.toNat u.src = true ∧ s.permits u.session.toNat 6 = true)) : s.UpdTakes u n := ⟨h, g⟩

theorem witness_UpdatesAndActivation_take : (mode 1 []).UpdTakes (dgram 8 0) 8 ∧ (hosting 5 []).UpdTakes (dgram 8 0) 8 ∧
    (filling (some 1) 960 480).UpdTakes (dgram 480 480) 480 ∧ (filling (some 1) 960 960).UpdTakes (dgram 0 0) 0 ∧
    (filling none 32 32).UpdTakes (dgram 0 0) 0 ∧ (filling (some 1) 960 480).UpdTakes (dgram 1 0) 1 :=
  ⟨updTakes_intro (by decide +kernel) (.inl (by decide +kernel)), updTakes_intro (by decide +kernel) (.inr (by decide +kernel)),
   updTakes_intro (by decide +kernel) (.inl (by decide +kernel)), updTakes_intro (by decide +kernel) (.inl (by decide +kernel)),
   updTakes_intro (by decide +kernel) (.inl (by decide +kernel)), updTakes_intro (by decide +kernel) (.inl (by decide +kernel))⟩

theorem witness_UpdatesAndActivation : (mode 1 []).upd.xfer = none ∧ 0x800000 ≤ slotSize ((mode 1 []).inactiveSlot 1) ∧
    (filling (some 1) 960 480).upd.xfer = some ⟨5, 1, some 1, 960, 3, 0⟩ ∧ (480 : Word) = (filling (some 1) 960 480).reg Reg.UPD_XOFF ∧
      480 + 480 ≤ 960 ∧
    (dgram 1 0).offset ≠ (filling (some 1) 960 480).reg Reg.UPD_XOFF ∧ ((filling (some 1) 960 960).reg Reg.UPD_XOFF).toNat = 960 ∧
    (filling (some 1) 960 960).imageError ⟨5, 1, some 1, 960, 3, 0⟩ true true .firmware = some 1 ∧
      (filling none 32 32).opState = 1 := by decide +kernel

theorem test_begin_at_full_size : (after (.updateBegin (dgram 8 0) 1 0x800000) (mode 1 [])).out.map (fun o => match o with
    | .update x => x.payload
    | _ => []) = [[0, 0, 0, 0, 0, 0, 0, 0]] := by decide +kernel
theorem test_begin_beyond_size : (after (.updateBegin (dgram 8 0) 1 0x800001) (mode 1 [])).out.map (fun o => match o with
    | .update x => x.payload
    | _ => []) = [[4, 0, 0, 0, 0, 0, 0, 0]] := by decide +kernel
theorem test_update_timeout : (after .updateTimeout { filling (some 1) 960 480 with ticks := 750000000 }).upd.xfer = none := by decide +kernel

/-- The first 32 bytes of an image of kind `kind` as R415 lays them out: no body, sealed in the clear, signer 0; the key field is zeros. -/
def header (kind : Byte) : List Byte :=
  wordBytes 0x4F589100 ++ wordBytes 1 ++ [kind, 9, 0, 0] ++ wordBytes 0x77 ++ wordBytes 0 ++ wordBytes 0 ++ wordBytes 0 ++ [2, 0, 0, 0]

/-- That header has come whole, for slot 1 or as a key package, and Moazal's key hash is that of the zeros. -/
def imaged (k : Option Nat) : State :=
  let s := filling k 256 256
  let h := fun (base : Nat) => ((header (if k = none then 3 else 1)).zipIdx.filter fun e => e.1 ≠ 0).map fun e => (base + e.2, e.1)
  { s with mem := if k = none then [] else h 0x63800000, upd := { s.upd with buf := if k = none then h 0 else [] }
           nv := { s.nv with moazalHash := sha256 (List.replicate 64 0) } }

theorem witness_UpdatesAndActivation_image : (imaged (some 1)).imageError ⟨5, 1, some 1, 256, 3, 0⟩ true true .firmware = none := by decide +kernel
theorem witness_UpdatesAndActivation_keys :
    (imaged none).imageError ⟨5, 3, none, 256, 3, 0⟩ true true (.keys [.sessionKey 15 1 (List.replicate 16 1)]) = none := by decide +kernel

/-- An activation of slot `k` at cycle 9 in phase `ph`. -/
def scheduled (k ph : Nat) (s : State) : State := { s with upd := { s.upd with sched := some ⟨k, 9, 0, 0, 0, ph, 0, 0⟩ } }

/-- The active unit of a twin that has run 100 cycles with a STANDBY partner, and masters its rings. -/
def waiting (l : List (Field × Nat)) : State :=
  let s := scheduled 1 2 (twinned 4 ([(Fld.TWIN_DIGCMP_RUN, 3)] ++ l))
  { s with twin := { s.twin with standbyRun := 100, status := some ⟨8, 0x01000000, 6, 3, 0, 0⟩ } }

theorem witness_UpdatesAndActivation_sched : (twinned 3 []).isActive = false ∧ (3 : Nat) < 4 ∧ (scheduled 3 1 (cycling [])).vcyc = 9 ∧
    (scheduled 3 1 (cycling [])).isRun = true ∧ (scheduled 1 1 (cycling [])).isTwin = false ∧ (scheduled 1 1 (twinned 3 [])).role = 3 ∧
    (scheduled 1 1 (twinned 4 [])).isTwin = true ∧ (scheduled 1 1 (twinned 4 [])).isActive = true ∧ (waiting []).ringsShared = true ∧
    (waiting []).swapCode ((waiting []).vcyc + 10) true = 0 ∧
    (waiting [(Fld.TWIN_STAT_LINK, 0)]).swapCode ((waiting [(Fld.TWIN_STAT_LINK, 0)]).vcyc + 10) true = 1 ∧
    ({ cycling [] with nv := { NonVol.blank with slots := [(1, { emptySlot with valid := true, trial := true })] } } : State).trialSlot = some 1 ∧
    (waiting []).trialSlot = none ∧ (cycling []).opState ≠ 0 ∧
    ({ cycling [] with ticks := 3000000000 } : State).boot.released + 3000000000 ≤ 3000000000 ∧
    (waiting []).opState ≠ 0 ∧ ({ waiting [] with twin := { (waiting []).twin with status := none } } : State).partnerStandby = false := by
      decide +kernel

theorem test_trial_timeout_resets : (after .trialTimeout
    { cycling [] with ticks := 3000000000,
                      nv := { NonVol.blank with slots := [(1, { emptySlot with valid := true, trial := true })] } }).opState = 0 := by decide +kernel
theorem test_activation_arms_swap : (after .activationSwap (waiting [])).reg Reg.TWIN_SWAPCYC = 19 := by decide +kernel

theorem witness_RegisterWrites : (cycling []).firmwareRuns = true ∧ State.memBank (0xFFFFC : Nat) = some 12 ∧
    State.memBank (0xBFFFFFFC : Nat) = some 13 ∧
    (cycling []).fld (Fld.MEM_BANKb_MODE 12) = 0 ∧ (withFlds (cycling []) [(⟨regAddr Page.PMON 0x24, 31, 31⟩, 1)]).lockOpen Page.PMON = true ∧
    (cycling []).lockOpen Page.PMON = false ∧
    (inPages 0x40040FFC = true ∧ pageListed (pageOf 0x40040FFC) = true ∧ isReg 0x40040FFC = false ∧ vitalPage (pageOf 0x40040FFC) = false) ∧
    pageListed Page.QUE = true ∧ (withFlds (cycling []) [(⟨regAddr Page.CAL 0x24, 31, 31⟩, 1)]).lockOpen Page.CAL = true ∧
    within16 500 (calBound 0) = true ∧ within16 0xFE0C (calBound 0) = true ∧ within16 501 (calBound 0) = false ∧
    (let s := evicted .stayOut [(Fld.PEA_x_STAT_STATE 0, 5)]
    (s.pea (State.bankPea 3)).phase = .stayOut ∧ s.peaState (State.bankPea 3) = 5) ∧
    (queued.queue 7).entries.map (·.seq) = [0, 1] ∧ ({ queued with queues := [(63, ⟨2, [⟨0, false, .raw [2]⟩], 0, none⟩)] } : State).queue 63 =
      ⟨2, [⟨0, false, .raw [2]⟩], 0, none⟩ := by decide +kernel

/-- A word written to data memory is stored low byte first. -/
theorem test_memory_is_little_endian : (after (.registerWrite 0 0x80000000 0x11223344) (cycling [])).mem =
    [(0x80000000, 0x44), (0x80000001, 0x33), (0x80000002, 0x22), (0x80000003, 0x11)] := by decide +kernel
theorem test_event_set_wins_over_clear : (after (.evtClear 0 0x3B 1 1) (cycling [])).flag ⟨regAddr 0x3B 0x14, 0, 0⟩ = true := by decide +kernel
theorem test_lock_needs_key : (after (.pageLock 0 0x42 0x00A50042) (cycling [])).lockOpen 0x42 = true ∧
    (after (.pageLock 0 0x42 0x00A50041) (cycling [])).lockOpen 0x42 = false := by decide +kernel
theorem test_cal_bound : (after (.calUserWrite 0 0 0xFE0C) (withFlds (cycling []) [(⟨regAddr Page.CAL 0x24, 31, 31⟩,
    1)])).nv.userCal = [(0, 0xFE0C)] := by
  decide +kernel

/-- Source 0xF0 goes to core 0 with priority 0 and is PENDING. -/
def pendingF0 : State := withFlds (cycling []) [(Fld.IRQ_SRCn_STATE 0xF0, 1), (Fld.IRQ_THRc_THRESH 0, 15), (Fld.IRQ_SRCn_MASK 0xF0, 0),
  (Fld.IRQ_SRCn_TARGET 0xF0, 0), (Fld.IRQ_SRCn_PRIO 0xF0, 0)]

theorem witness_Interrupts : pendingF0.firmwareRuns = true ∧ reservedSource 0xF0 = false ∧ (pendingF0.irqRoute 0xF0).1 < 4 ∧
    pendingF0.fld (Fld.IRQ_SRCn_STATE 0xF0) = 1 ∧ pendingF0.bestSource 0 = some 0xF0 ∧ (cycling []).bestSource 3 = none ∧
    (withFlds (cycling []) [(Fld.IRQ_SRCn_STATE 0xF0, 2), (Fld.IRQ_SRCn_TARGET 0xF0, 0)]).fld (Fld.IRQ_SRCn_STATE 0xF0) = 2 ∧
    ((withFlds (cycling []) [(Fld.IRQ_SRCn_STATE 0xF0, 2), (Fld.IRQ_SRCn_TARGET 0xF0, 0)]).irqRoute 0xF0).1 = 0 ∧ 255 < (256 : BitVec 10).toNat := by
  decide +kernel

theorem test_claim_gives_source : (after (.irqClaim 0) pendingF0).reg (Reg.IRQ_CLAIMEDc 0) = 0x800000F0 := by decide +kernel
theorem test_claim_is_spurious : (after (.irqClaim 3) (cycling [])).reg (Reg.IRQ_CLAIMEDc 3) = 0x800003FF := by decide +kernel

/-- A run of engine 0 over the nine bytes "123456789" with CRC-32C. -/
def crcState : State :=
  let s : State := { cycling [] with mem := (List.range 9).map fun i => (0x80000000 + i, BitVec.ofNat 8 (0x31 + i)) }
  { s with crcRuns := [⟨0, 32, 0, true, true, true, 0x1EDC6F41, 0xFFFFFFFF, 0, 0x80000000, 9⟩] }

/-- A sample that has trapped. -/
def trapped : Sample := ⟨0, 0x20, 9, 10, false, true, false, false, 0, 0xFFFFFFFF, 0xFFFFFFFF, 0xFFFFFFFF, 0xFFFFFFFF, 0xFFFFFFFF, 0, none, 0, 0, 0⟩

/-- A staged record that is no root record, and the record of a clear. -/
def rec3 : Rec := ⟨3, 0x0201, 0x28, 5, 9, 0, 0, [], false, false, 77, none⟩

theorem witness_EnginesRecorderAndBridge : (cycling []).flag (Fld.CRC_RESSTe_BUSY 0) = false ∧ crcState.crcRuns.map (·.engine) = [0] ∧
    State.crcRange 0x80000000 9 = true ∧ State.crcRange 0xBFFFFFFF 2 = false ∧
    (withFlds (cycling []) [(Fld.PMON_SNAPPER_PERIOD, 1)]).fld Fld.PMON_SNAPPER_PERIOD ≠ 0 ∧
    (1 ≤ ((cycling []).vcyc - (cycling []).pmon.snapAt).toNat) ∧ (cycling []).used 59 + 6 ≤ 1024 ∧
    State.sampleDone trapped = true ∧ (cycling []).used (56 + peaNum .c) < 1024 ∧ rec3.rootFlag = false ∧ rec3.code ≠ 0x0903 ∧ rec3.code ≠ 0x0901 ∧
    (cycling []).evr.loss = none ∧
    (let s : State := { cycling [] with evr := { (cycling []).evr with clearing := some 3, loss := some ⟨0, 1, 0, 0, 4, 5⟩ }
                                        nv := { NonVol.blank with recorder := { NonVol.blank.recorder with circ := [(0, rec3)] } } }
    s.evr.clearing = some 3 ∧ s.evr.loss = some ⟨0, 1, 0, 0, 4, 5⟩ ∧ s.nv.recorder.circ.any (fun e => e.2.rseq = 3) = true) ∧
    (cycling []).evr.staging.length < 1024 := by decide +kernel

/-- The check value of CRC-32C that R355's definition gives for "123456789" is the published one of that polynomial. -/
theorem test_crc32c_check_value : (after (.crcRunEnd 0) crcState).reg (Reg.CRC_RESLOe 0) = 0xE3069283 := by decide +kernel

/-! ### Well-formedness -/

theorem smoke_frame : Instr.wf (.frameReturn 0 (hears ⟨[], [], [], true⟩)) = false ∧ Instr.wf (.coldFrame 0 ⟨frame 1, none, 32768, 0⟩) = false ∧
    Instr.wf (.runFrame 0 (hears { frame 3 with trailer := [] })) = false ∧ Instr.wf (.stopFrame 0 (hears { frame 4 with windows := [[]] })) =
      false ∧ Instr.wf (.coldFrame 0 ⟨frame 1, some ⟨64, none⟩, 0, 0⟩) = false ∧ Instr.wf (.bypassOrder ⟨0, []⟩) = false ∧
    Instr.wf (.cutNextOrder ⟨0, []⟩) = false ∧ Instr.wf (.joinOrder ⟨0, []⟩) = false ∧
    Instr.wf (.surveyFrame 0 ⟨frame 2, some ⟨127, some 3⟩, -32767, 0⟩) = true := by decide +kernel
theorem smoke_sites : Instr.wf (.codeViolation (.pea .a 16)) = false ∧ Instr.wf (.stallTimeout (.voter 3)) = false ∧
    Instr.wf (.codeViolation (.ive 4)) = false ∧ Instr.wf (.stallTimeout .bridge) = true := by decide +kernel
theorem smoke_scrub : Instr.wf (.peaScrubSlice .a 1025 []) = false ∧ Instr.wf (.peaScrubSlice .a 1 [(.ctx, 2048, none)]) = false ∧
    Instr.wf (.peaScrubSlice .a 1 [(.ctx, 0, some 39)]) = false ∧ Instr.wf (.iveScrub (.badTable 3)) = false ∧
    Instr.wf (.iveScrub (.badState 0)) = false ∧ Instr.wf (.iveLock (.badTable 0)) = false ∧ Instr.wf (.iveSignal (.badState 3)) = false ∧
    Instr.wf (.peaScrubSlice .a 1024 [(.ctx, 2047, some 38)]) = true := by decide +kernel
theorem smoke_hosts : Instr.wf (.keep { plainMsg 0 with session := 16 }) = false ∧
    Instr.wf (.fence { plainMsg 0 with tail := List.replicate 1473 0 }) = false ∧
    Instr.wf (.updateData (dgram 1 0) (List.replicate 481 0)) = false ∧ Instr.wf (.updateInfo { dgram 0 0 with session := 16 }) = false ∧
    Instr.wf (.keep (plainMsg 0)) = true := by decide +kernel
theorem smoke_twin : (let h := hdr7 .pad
    Instr.wf (.syncFrame h 0 0 (2 ^ 64) 0) = false ∧ Instr.wf (.readyStart h 2 0 0) = false ∧ Instr.wf (.readyStart h 0 2 0) = false ∧
    Instr.wf (.readyStart h 0 0 (2 ^ 16)) = false ∧
    Instr.wf (.xferRefuse h 16) = false ∧ Instr.wf (.xferNeed h 0 (List.replicate 13 0)) = false ∧
    Instr.wf (.xferNeed h 0 [1024]) = false ∧ Instr.wf (.xabort h 0 256) = false ∧ Instr.wf (.swapAbort h 0 256) = false ∧
    Instr.wf (.swapArm h 0 (2 ^ 24)) = false ∧ Instr.wf (.sched h 0 5) = false ∧ Instr.wf (.statusFrame h 0 0 256 0 0 0) = false ∧
    Instr.wf (.statusFrame h 0 0 0 (2 ^ 16) 0 0) = false ∧
    Instr.wf (.bdigFrame h 0 ⟨[], 0⟩) = false ∧ Instr.wf (.stateFrame h 0x8020 0 (List.replicate 1024 0)) = false ∧
    Instr.wf (.stateFrame h 0 0 []) = false ∧ Instr.wf (.xferNeed h 0 [1023, 0x801F]) = true) := by decide +kernel
theorem smoke_image : (let h := hdr7 .pad
    Instr.wf (.imageFrame h ⟨{ noImage with entries := [⟨1024, 0, 0, 0, false, false, 0, none, none⟩] }, 0⟩) = false ∧
    Instr.wf (.imageFrame h ⟨{ noImage with entries := [⟨0, 0, 0, 8, false, false, 0, none, none⟩] }, 0⟩) = false ∧
    Instr.wf (.imageFrame h ⟨{ noImage with reqs := [⟨1, 16, 0, [], 0⟩] }, 0⟩) = false ∧
    Instr.wf (.imageFrame h ⟨{ noImage with reqs := [⟨1, 0, 0, List.replicate 8 0, 0⟩] }, 0⟩) = false ∧
    Instr.wf (.imageFrame h ⟨{ noImage with reqs := List.replicate 65 ⟨1, 0, 0, [], 0⟩ }, 0⟩) = false ∧
    Instr.wf (.imageFrame h ⟨noImage, 0⟩) = true) := by decide +kernel
theorem smoke_registers : Instr.wf (.evtClear 0 0x60 0 0) = false ∧ Instr.wf (.statclr 0 0 [(0x40000002, 0, 0)]) = false ∧
    Instr.wf (.statclr 0 0 [(0x40060000, 0, 0)]) = false ∧ Instr.wf (.statclr 0 0 [(0x40000000, 32, 0)]) = false ∧
    Instr.wf (.statclr 0 0 [(0x40000000, 0, 1)]) = false ∧ Instr.wf (.stagedImageVerified .a ⟨[(2 ^ 20, 1)], [], []⟩) = false ∧
    Instr.wf (.stagedImageVerified .a ⟨[], [], [(2 ^ 20, 1)]⟩) = false ∧ Instr.wf (.recorderWrite 2049) = false ∧
    Instr.wf (.firmwareRecord 0 0 (List.replicate 8 0)) = false ∧ Instr.wf (.statclr 0 0x5F [(0x4005FFFC, 31, 31)]) = true := by decide +kernel

end Sys2Proof.Tests
end

section
/-! SUPPORT. The memories of the peas (R52, R53): the address encodings are one to one, and a read gives what the last write of the word put
there. -/

namespace Sys2Proof.Machine

/-! ### The rotation of an address -/

/-- A shift to the left by `k` of `n` bits keeps the low `n - k` bits. -/
theorem mul_two_pow_mod {n k : Nat} (hk : k ≤ n) (w : Nat) : w * 2 ^ k % 2 ^ n = 2 ^ k * (w % 2 ^ (n - k)) := by
  rw [← Nat.sub_add_cancel hk, pow_add, Nat.mul_mod_mul_right, Nat.add_sub_cancel, Nat.mul_comm]

/-- A rotation puts the low `n - k` bits above the high `k` bits. -/
theorem rotl_eq_swap {n k w : Nat} (hk : k ≤ n) (hw : w < 2 ^ n) : rotl n k w = 2 ^ k * (w % 2 ^ (n - k)) + w / 2 ^ (n - k) := by
  unfold rotl
  rw [mul_two_pow_mod hk, Nat.mod_eq_of_lt hw]

/-- The part of an address above its low `n - k` bits has `k` bits. -/
theorem div_two_pow_lt {n k w : Nat} (hk : k ≤ n) (hw : w < 2 ^ n) : w / 2 ^ (n - k) < 2 ^ k := by
  rw [Nat.div_lt_iff_lt_mul (by positivity), ← pow_add, Nat.add_sub_cancel' hk]
  exact hw

theorem rotl_inj {n k a b : Nat} (hk : k ≤ n) (ha : a < 2 ^ n) (hb : b < 2 ^ n) : rotl n k a = rotl n k b ↔ a = b := by
  refine ⟨fun h => ?_, congrArg _⟩
  rw [rotl_eq_swap hk ha, rotl_eq_swap hk hb] at h
  have high : a / 2 ^ (n - k) = b / 2 ^ (n - k) := by
    have h := congrArg (· % 2 ^ k) h
    simpa only [Nat.mul_add_mod_self_left, Nat.mod_eq_of_lt (div_two_pow_lt hk ha), Nat.mod_eq_of_lt (div_two_pow_lt hk hb)] using h
  have low : a % 2 ^ (n - k) = b % 2 ^ (n - k) := by
    rw [high] at h
    exact Nat.eq_of_mul_eq_mul_left (by positivity) (Nat.add_right_cancel h)
  calc a = 2 ^ (n - k) * (a / 2 ^ (n - k)) + a % 2 ^ (n - k) := (Nat.div_add_mod _ _).symm
    _ = 2 ^ (n - k) * (b / 2 ^ (n - k)) + b % 2 ^ (n - k) := by rw [high, low]
    _ = b := Nat.div_add_mod _ _

/-- The model's rotation is the rotation of bit vectors. -/
theorem rotl_toNat {n k : Nat} (hk : k < n) (w : BitVec n) : rotl n k w.toNat = (w.rotateLeft k).toNat := by
  rw [rotl_eq_swap hk.le w.isLt, Nat.two_pow_add_eq_or_of_lt (div_two_pow_lt hk.le w.isLt), BitVec.toNat_rotateLeft,
    Nat.mod_eq_of_lt hk, Nat.shiftLeft_eq, Nat.shiftRight_eq_div_pow, mul_two_pow_mod hk.le]

/-! ### The physical address -/

/-- In peas a and b a word stands at its logical address. -/
theorem physAddr_native {p : PeaId} (hp : p ≠ .c) {m : MemKind} {w : Nat} (hw : w < 2 ^ memBits m) : physAddr p m w = w := by
  cases p with
  | a => exact Nat.mod_eq_of_lt hw
  | b => exact Nat.mod_eq_of_lt hw
  | c => exact absurd rfl hp

theorem physAddr_scrambled {m : MemKind} {w : Nat} (hw : w < 2 ^ memBits m) : physAddr .c m w = scramble m w :=
  congrArg (scramble m) (Nat.mod_eq_of_lt hw)

/-- A row of R52's table for pea c, over bit vectors of the memory's address width. -/
theorem physAddr_eq_rotateLeft_xor {m : MemKind} {k : Nat} (hk : k < memBits m) (w c : BitVec (memBits m))
    (row : scramble m w.toNat = rotl (memBits m) k w.toNat ^^^ c.toNat) : physAddr .c m w.toNat = (w.rotateLeft k ^^^ c).toNat := by
  rw [physAddr_scrambled w.isLt, row, rotl_toNat hk, BitVec.toNat_xor]

/-- Both parts of the scrambling, the rotation and the exclusive or, are one to one. -/
theorem scramble_inj {m : MemKind} {a b : Nat} (ha : a < 2 ^ memBits m) (hb : b < 2 ^ memBits m) :
    scramble m a = scramble m b ↔ a = b := by
  cases m <;> exact Nat.xor_left_inj.trans (rotl_inj (by decide) ha hb)

/-- No two words of a memory share a physical address. -/
theorem physAddr_inj {p : PeaId} {m : MemKind} {a b : Nat} (ha : a < 2 ^ memBits m) (hb : b < 2 ^ memBits m) :
    physAddr p m a = physAddr p m b ↔ a = b := by
  by_cases hp : p = .c
  · subst hp
    rw [physAddr_scrambled ha, physAddr_scrambled hb, scramble_inj ha hb]
  · rw [physAddr_native hp ha, physAddr_native hp hb]

/-! ### A read after a write -/

/-- Encoding and decoding undo each other. -/
@[simp] theorem rawWord_rawWord (p : PeaId) (v : Word) : rawWord p (rawWord p v) = v := by
  cases p with
  | a => rfl
  | b => exact BitVec.not_not
  | c => rfl

/-- A write replaces the raw words of its own memory alone. -/
theorem peaArray_peaPut (p : PeaId) (x : Pea) (m k : MemKind) (w : Nat) (v : Word) : peaArray (peaPut p x m w v) k =
    if k = m then Store.set (fun _ => rawWord p 0) (peaArray x m) (physAddr p m w) (rawWord p v) else peaArray x k := by
  cases m <;> cases k <;> rfl

theorem peaPut_dr (p : PeaId) (x : Pea) (m : MemKind) (w : Nat) (v : Word) : (peaPut p x m w v).dr = x.dr := by
  cases m <;> rfl

theorem peaPut_dig (p : PeaId) (x : Pea) (m : MemKind) (w : Nat) (v : Word) : (peaPut p x m w v).dig = x.dig := by
  cases m <;> rfl

/-- A write lands at the word's physical address, encoded. -/
theorem get_peaArray_peaPut (p : PeaId) (x : Pea) (m : MemKind) (w : Nat) (v : Word) :
    Store.get (fun _ => rawWord p 0) (peaArray (peaPut p x m w v) m) (physAddr p m w) = rawWord p v := by
  rw [peaArray_peaPut, if_pos rfl, Store.get_set_same]

theorem peaGet_peaPut (p : PeaId) (x : Pea) {m k : MemKind} {a b : Nat} (v : Word) (ha : a < 2 ^ memBits m) (hb : b < 2 ^ memBits k) :
    peaGet p (peaPut p x m a v) k b = if k = m ∧ b = a then v else peaGet p x k b := by
  unfold peaGet
  rw [peaArray_peaPut]
  by_cases hk : k = m
  · subst hk
    by_cases hba : b = a
    · simp [hba]
    · have apart : physAddr p k b ≠ physAddr p k a := mt (physAddr_inj hb ha).mp hba
      simp [hba, Store.get_set_ne _ _ _ _ _ apart]
  · simp [hk]

/-- Settles O6: the encodings are one to one on the words and on the addresses of each memory, so a write reaches its own word alone. -/
theorem peaMemoryReads : Obligations.PeaMemoryReads := by
  unfold Obligations.PeaMemoryReads
  refine ⟨fun v => ⟨rfl, rfl, rfl⟩, fun m w hw => ⟨physAddr_native (by decide) hw, physAddr_native (by decide) hw⟩,
    fun w => physAddr_eq_rotateLeft_xor (m := .mram) (k := 11) (by decide) w 0x13A9C#21 rfl,
    fun w => physAddr_eq_rotateLeft_xor (m := .sram) (k := 7) (by decide) w 0xA5C36#20 rfl,
    fun w => physAddr_eq_rotateLeft_xor (m := .scratch) (k := 5) (by decide) w 0x6B2D#16 rfl,
    fun w => physAddr_eq_rotateLeft_xor (m := .ctx) (k := 3) (by decide) w 0x5A3#11 rfl, ?_⟩
  intro p x m k a b v ha hb
  exact ⟨peaGet_peaPut p x v ha hb, get_peaArray_peaPut p x m a v, peaPut_cur p x m a v, peaPut_dr p x m a v, peaPut_dig p x m a v⟩

end Sys2Proof.Machine
end

section
/-! SUPPORT. The UBC instructions that write one working register, or none (R107, R113 to R115): the operand steps of a body from a state
that the sampling has logged, what an instruction does that ends in a register write or a trap, and the saturating values. -/

namespace Sys2Proof.Machine

open State

/-! ### The operand steps of a body -/

section Steps

variable {s u : State} {p : PeaId} {x : Release} {n : Nat}

/-- A pea that runs the release reads its working register without a correction. -/
theorem ubcReg_of_logged (h : s.Runs p x n) (hu : logged s u) {r : Nat} (hr : r < 64) (k : Word → UbcK) :
    ubcReg p x r k u = k (s.workReg p x r) u := by
  have clean : (u.pea p).upsets = [] := by rw [logged_pea hu]; exact h.clean
  rw [ubcReg_clean u p x r k clean h.slot hr, logged_workReg hu]

@[simp] theorem vital?_vital (b : Bool) : vital? (vital b) = some b := by
  cases b with
  | false => rfl
  | true => rfl

theorem ubcVital_of_logged (h : s.Runs p x n) (hu : logged s u) {r : Nat} (hr : r < 64) {b : Bool} (hv : s.workReg p x r = vital b)
    (k : Bool → UbcK) : ubcVital p x r k u = k b u := by
  unfold ubcVital
  rw [ubcReg_of_logged h hu hr, hv, vital?_vital]

theorem ubcSym_of_logged (hu : logged s u) {id : Nat} (hid : id < 0xFFF00) {y : Symbol} (hy : s.symbol id = some y) (k : Symbol → UbcK) :
    ubcSym id k u = k y u := by
  unfold ubcSym
  rw [if_neg (Nat.not_le.mpr hid), logged_symbol hu, hy]

/-! ### The end of an instruction -/

/-- The outcome of an instruction of `n` operations of the release `x` that writes `v` to working register `r` and goes on with the next
word (R107, R109). -/
def State.writesReg (s : State) (p : PeaId) (x : Release) (n r : Nat) (v : Word) (o : Host.Outcome State Fault Refusal) : Prop :=
  ∃ t, o = .next t ∧ logged (s.setPea p ((peaPut p (s.pea p) .ctx (x.slot * 64 + r) v).goesOn x n (x.pc + 1))) t

variable {op : Nat} {enc : Bool} {body : Release → UbcK}

/-- An instruction whose body comes down to one register write. -/
theorem runInstr_writesReg {r : Nat} {v : Word} (h : s.Runs p x n) (hl : s.notLast x) (he : enc = true)
    (hb : ∀ u, logged s u → body x u = ubcPut p x r v ubcDone u) : s.writesReg p x n r v (runInstr p op n enc body s) :=
  have hg := sampleTry_logged s p x op
  run_of _ none h he ⟨_, hb _ hg, put_logged hg p _ _⟩ (by rw [peaPut_cur, h.cur]) (.inr hl)

theorem setPea_pea_self (s : State) (p : PeaId) : s.setPea p (s.pea p) = s := by cases p <;> rfl

/-- An instruction whose body has no effect. -/
theorem runInstr_passes (h : s.Runs p x n) (hl : s.notLast x) (he : enc = true) (hb : ∀ u, logged s u → body x u = ubcDone u) :
    ∃ t, runInstr p op n enc body s = .next t ∧ logged (s.setPea p ((s.pea p).goesOn x n (x.pc + 1))) t :=
  have hg := sampleTry_logged s p x op
  run_of _ none h he ⟨_, hb _ hg, by rw [setPea_pea_self]; exact hg⟩ h.cur (.inr hl)

/-- An instruction whose body traps before any effect. -/
theorem runInstr_traps {cause : Nat} (h : s.Runs p x n) (he : enc = true) (hb : ∀ u, logged s u → body x u = ubcTrap cause u) :
    runInstr p op n enc body s = .next ((sampleTry s p x op).trapPea p x.slot x.pc cause) := by
  have hg := sampleTry_logged s p x op
  have hm : maxOps (sampleTry s p x op) x.slot = maxOps s x.slot := by
    unfold maxOps
    rw [logged_taskDef hg]
  have hmay : mayRun s p 1 = true := by simp [mayRun, h.run]
  have hfit : ¬ maxOps s x.slot < x.ops + n := Nat.not_lt.mpr h.fits
  unfold runInstr
  rw [h.cur]
  simp only [hmay, fetchWord_clean s p x h.clean h.run h.half, he, hm, hfit, hb _ hg, ubcTrap, not_true_eq_false, ↓reduceIte]

end Steps

/-! ### Saturation (R115) -/

theorem toInt_sat32 (i : Int) : (sat32 i).toInt = max (-2147483648) (min i 2147483647) := by
  unfold sat32
  split_ifs <;> rw [BitVec.toInt_ofInt_eq_self (by decide)] <;> omega

theorem toInt_sat16 (v : Word) : (sat16 v).toInt = max (-32768) (min v.toInt 32767) := by
  unfold sat16
  split_ifs <;> rw [BitVec.toInt_ofInt_eq_self (by decide)] <;> omega

/-- An element of an int16 array is half of its word. -/
theorem elemGet_int16 (j : Nat) (v : Word) : elemGet 3 j v = ((v >>> (16 * (j % 2))).extractLsb' 0 16).signExtend 32 := by
  have half : BitVec.ofNat 16 (bitsOf 15 0 (v.toNat / 2 ^ (16 * (j % 2)))) = (v >>> (16 * (j % 2))).extractLsb' 0 16 := by
    apply BitVec.eq_of_toNat_eq
    simp [bitsOf, Nat.shiftRight_eq_div_pow]
  exact congrArg (BitVec.signExtend 32) half

/-! ### Arithmetic and moves -/

/-- Every row of the table is the format R instruction of some opcode. -/
theorem exec_binaryTable :
    ∀ e ∈ binaryTable, ∃ op, ∀ (p : PeaId) (w : BitVec 24) (s : State), exec (e.1 p w) s = ubcBin p op e.2.2 w e.2.1 s := by
  simp only [binaryTable, List.forall_mem_cons]
  exact ⟨⟨0x20, fun _ _ _ => rfl⟩, ⟨0x21, fun _ _ _ => rfl⟩, ⟨0x22, fun _ _ _ => rfl⟩, ⟨0x24, fun _ _ _ => rfl⟩,
    ⟨0x25, fun _ _ _ => rfl⟩, ⟨0x28, fun _ _ _ => rfl⟩, ⟨0x29, fun _ _ _ => rfl⟩, ⟨0x2A, fun _ _ _ => rfl⟩,
    ⟨0x2B, fun _ _ _ => rfl⟩, ⟨0x2C, fun _ _ _ => rfl⟩, ⟨0x30, fun _ _ _ => rfl⟩, ⟨0x31, fun _ _ _ => rfl⟩,
    fun _ h => nomatch h⟩

section Forms

variable {s : State} {p : PeaId} {x : Release} {w : BitVec 24}

/-- An instruction that writes a function of its operand a. -/
theorem runInstr_unary_writesReg {op r : Nat} (hr : r < 64) {f : Word → Word} {enc : Bool} {d : Nat} (h : s.Runs p x 1) (hl : s.notLast x)
    (he : enc = true) : s.writesReg p x 1 d (f (s.workReg p x r))
      (runInstr p op 1 enc (fun x => ubcReg p x r fun v => ubcPut p x d (f v) ubcDone) s) :=
  runInstr_writesReg h hl he fun _ hu => ubcReg_of_logged h hu hr _

/-- An instruction that writes its immediate. -/
theorem runInstr_constant_writesReg {op d : Nat} {v : Word} {enc : Bool} (h : s.Runs p x 1) (hl : s.notLast x) (he : enc = true) :
    s.writesReg p x 1 d v (runInstr p op 1 enc (fun x => ubcPut p x d v ubcDone) s) :=
  runInstr_writesReg h hl he fun _ _ => rfl

theorem vconst_writesReg (h : s.Runs p x 1) (hl : s.notLast x) (hw : zero w 17 16 = true) (hi : opImm w = 1 ∨ opImm w = 2) :
    s.writesReg p x 1 (opD w) ((opImm w).zeroExtend 32) (exec (.vconst p w) s) :=
  runInstr_constant_writesReg h hl (by simpa [hw] using hi)

theorem symh_writesReg (h : s.Runs p x 1) (hl : s.notLast x) (hid : opSym w < 0xFFF00) (hy : (s.symbol (opSym w)).isSome) :
    s.writesReg p x 1 (opQ w) (w32 (opSym w)) (exec (.symh p w) s) := by
  obtain ⟨y, hy⟩ := Option.isSome_iff_exists.mp hy
  exact runInstr_writesReg h hl rfl fun _ hu => ubcSym_of_logged hu hid hy _

theorem div_writesReg (h : s.Runs p x 8) (hl : s.notLast x) (hw : zero w 5 0 = true) (hb : s.workReg p x (opB w) ≠ 0) :
    s.writesReg p x 8 (opD w) (sat32 (Int.tdiv (s.workReg p x (opA w)).toInt (s.workReg p x (opB w)).toInt)) (exec (.div p w) s) :=
  runInstr_writesReg h hl hw fun _ hu => by
    rw [ubcReg_of_logged h hu (opA_lt w), ubcReg_of_logged h hu (opB_lt w), bne_iff_ne.mpr hb]
    rfl

theorem div_zero_traps (h : s.Runs p x 8) (hw : zero w 5 0 = true) (hb : s.workReg p x (opB w) = 0) :
    exec (.div p w) s = .next ((sampleTry s p x 0x23).trapPea p x.slot x.pc 7) :=
  runInstr_traps h hw fun _ hu => by
    rw [ubcReg_of_logged h hu (opA_lt w), ubcReg_of_logged h hu (opB_lt w), hb]
    rfl

end Forms

/-- Settles O7: each form is a body of operand steps that comes down to one register write, and DIV by 0 to a trap. -/
theorem arithmeticInstructions : Obligations.ArithmeticInstructions := by
  unfold Obligations.ArithmeticInstructions
  refine ⟨fun e he s p x w h hl hw => ?_, fun s p x w h hl => ⟨?_, ?_, ?_, ?_, ?_, ?_, ?_⟩,
    fun _ _ _ _ => div_writesReg, toInt_sat32, by decide, toInt_sat16, fun _ => rfl, elemGet_int16, fun _ _ _ _ => div_zero_traps⟩
  · obtain ⟨op, form⟩ := exec_binaryTable e he
    rw [form]
    exact ubcBin_of s p x op e.2.2 w e.2.1 h hl hw
  · exact runInstr_unary_writesReg (f := id) (opA_lt w) h hl
  · exact runInstr_unary_writesReg (f := fun a => sat32 (-a.toInt)) (opA_lt w) h hl
  · exact runInstr_constant_writesReg h hl
  · exact runInstr_unary_writesReg (f := fun d => opImm w ++ d.extractLsb' 0 16) (opD_lt w) h hl
  · exact vconst_writesReg h hl
  · exact runInstr_unary_writesReg (f := fun d => sat32 (d.toInt + (opImm w).toInt)) (opD_lt w) h hl
  · exact symh_writesReg h hl

/-! ### The vital instructions -/

theorem toInt_not_eq_neg_sub_one (c : Word) : (~~~c).toInt = -c.toInt - 1 := by
  have bound := c.isLt
  rw [BitVec.toInt_not, BitVec.toInt_eq_toNat_bmod, Int.bmod_def, Int.bmod_def]
  omega

/-- One's complement keeps equality (R114). -/
theorem eq_eq_not_ne_not (a b : Word) : decide (a = b) = !(~~~a != ~~~b) := by
  rw [bne, Bool.not_not, beq_eq_decide, decide_eq_decide, BitVec.not_inj]

/-- One's complement reverses the signed order (R114). -/
theorem toInt_not_lt_toInt_not (c d : Word) : (~~~d).toInt < (~~~c).toInt ↔ c.toInt < d.toInt := by
  rw [toInt_not_eq_neg_sub_one, toInt_not_eq_neg_sub_one]
  omega

section Vital

variable {s : State} {p : PeaId} {x : Release} {w : BitVec 24}

theorem ubcVBin_writesReg {op : Nat} {f : Bool → Bool → Bool} {a b : Bool} (h : s.Runs p x 1) (hl : s.notLast x) (hw : zero w 5 0 = true)
    (ha : s.workReg p x (opA w) = vital a) (hb : s.workReg p x (opB w) = vital b) :
    s.writesReg p x 1 (opD w) (vital (f a b)) (ubcVBin p op w f s) :=
  runInstr_writesReg h hl hw fun _ hu => by
    rw [ubcVital_of_logged h hu (opA_lt w) ha, ubcVital_of_logged h hu (opB_lt w) hb]

/-- An instruction that writes a function of its vital operand a. -/
theorem runInstr_vital_unary_writesReg {op : Nat} {f : Bool → Word} {a : Bool} (h : s.Runs p x 1) (hl : s.notLast x)
    (hw : zero w 11 0 = true) (ha : s.workReg p x (opA w) = vital a) : s.writesReg p x 1 (opD w) (f a)
      (runInstr p op 1 (zero w 11 0) (fun x => ubcVital p x (opA w) fun a => ubcPut p x (opD w) (f a) ubcDone) s) :=
  runInstr_writesReg h hl hw fun _ hu => ubcVital_of_logged h hu (opA_lt w) ha _

/-- A comparison whose complemented form agrees with it never traps with VCMP. -/
theorem ubcVCmp_writesReg {op : Nat} {f g : Word → Word → Bool} (agree : ∀ a b, f a b = g (~~~a) (~~~b)) (h : s.Runs p x 2)
    (hl : s.notLast x) (hw : zero w 5 0 = true) :
    s.writesReg p x 2 (opD w) (vital (f (s.workReg p x (opA w)) (s.workReg p x (opB w)))) (ubcVCmp p op w f g s) :=
  runInstr_writesReg h hl hw fun _ hu => by
    rw [ubcReg_of_logged h hu (opA_lt w), ubcReg_of_logged h hu (opB_lt w), beq_iff_eq.mpr (agree _ _)]
    rfl

theorem vceq_writesReg (h : s.Runs p x 2) (hl : s.notLast x) (hw : zero w 5 0 = true) :
    s.writesReg p x 2 (opD w) (vital (decide (s.workReg p x (opA w) = s.workReg p x (opB w)))) (exec (.vceq p w) s) :=
  ubcVCmp_writesReg (f := fun a b => a = b) (g := fun a b => !(a != b)) eq_eq_not_ne_not h hl hw

theorem vclt_writesReg (h : s.Runs p x 2) (hl : s.notLast x) (hw : zero w 5 0 = true) :
    s.writesReg p x 2 (opD w) (vital (decide ((s.workReg p x (opA w)).toInt < (s.workReg p x (opB w)).toInt))) (exec (.vclt p w) s) :=
  ubcVCmp_writesReg (f := fun a b => a.toInt < b.toInt) (g := fun a b => b.toInt < a.toInt)
    (fun a b => decide_eq_decide.mpr (toInt_not_lt_toInt_not a b).symm) h hl hw

theorem vassert_true_passes (h : s.Runs p x 1) (hl : s.notLast x) (hd : zero w 23 18 = true) (hb : zero w 11 0 = true)
    (ha : s.workReg p x (opA w) = vital true) : ∃ t, exec (.vassert p w) s = .next t ∧
      logged (s.setPea p ((s.pea p).goesOn x 1 (x.pc + 1))) t :=
  runInstr_passes h hl (by rw [hd, hb]; rfl) fun _ hu => ubcVital_of_logged h hu (opA_lt w) ha _

end Vital

/-- Settles O8: vital operands decode, so the logic comes down to its register write; one's complement keeps equality and reverses the
signed order, so the two forms of a comparison agree. -/
theorem vitalInstructions : Obligations.VitalInstructions := by
  unfold Obligations.VitalInstructions
  intro s p x w a b hl
  refine ⟨fun h hw ha hb => ⟨?_, ?_, ?_⟩, fun h hw ha => ⟨?_, ?_⟩, fun c d => ⟨?_, ?_⟩,
    fun h hw => ⟨vceq_writesReg h hl hw, vclt_writesReg h hl hw⟩, fun h => vassert_true_passes h hl⟩
  · exact ubcVBin_writesReg h hl hw ha hb
  · exact ubcVBin_writesReg h hl hw ha hb
  · exact ubcVBin_writesReg h hl hw ha hb
  · exact runInstr_vital_unary_writesReg (f := fun a => vital (!a)) h hl hw ha
  · exact runInstr_vital_unary_writesReg (f := fun a => if a then 1 else 0) h hl hw ha
  · rw [not_not, BitVec.not_inj]
  · rw [not_le, toInt_not_lt_toInt_not]

end Sys2Proof.Machine
end

section
/-! SUPPORT. The timers of the IVE (R189, R190): what making a route FREE leaves alone, what IVE_TIMER_EXPIRY does to the state, and the
cycles of a preset. -/

namespace Sys2Proof.Machine

open State

namespace Ive

/-! ### Making routes FREE -/

@[simp] theorem route_setRoute (v : Ive) (r : Nat) (x : RouteSt) (q : Nat) :
    (v.setRoute r x).route q = if q = r then x else v.route q := Store.get_set _ _ _ _ _

/-- `w` is `v` but for the holds on points and sections. -/
def sameButHolds (v w : Ive) : Prop := w = { v with points := w.points, sections := w.sections }

theorem sameButHolds_trans {v w x : Ive} (h : sameButHolds v w) (k : sameButHolds w x) : sameButHolds v x := by
  unfold sameButHolds at *
  rw [k]; simp only; rw [h]

theorem routeHold_sameButHolds (add : Bool) (v : Ive) (p q : Nat) : sameButHolds v (routeHold add v p q) := rfl

theorem flankHold_sameButHolds (add : Bool) (v : Ive) (p q : Nat) : sameButHolds v (flankHold add v p q) := rfl

theorem setSection_sameButHolds (v : Ive) (o : Nat) (x : SectionSt) : sameButHolds v (v.setSection o x) := rfl

theorem foldl_sameButHolds {β : Type} {f : Ive → β → Ive} (h : ∀ v x, sameButHolds v (f v x)) (l : List β) (v : Ive) :
    sameButHolds v (l.foldl f v) := by
  induction l generalizing v with
  | nil => rfl
  | cons x xs ih => exact sameButHolds_trans (h v x) (ih (f v x))

/-- Making a route FREE puts it into the state that holds nothing; beside that, only holds change (R188). -/
theorem free_eq_setRoute (v : Ive) (r : Nat) : ∃ w, sameButHolds v w ∧ v.free r = w.setRoute r freeRoute := by
  unfold free
  extract_lets t x v₁ v₂ v₃ v₄
  have routeHolds : sameButHolds v v₁ := foldl_sameButHolds (fun v (e : Elem) => routeHold_sameButHolds false v e.obj e.pos) _ v
  have flankHolds : sameButHolds v₁ v₂ := by
    unfold v₂
    split
    · exact foldl_sameButHolds (fun v (e : Elem) => flankHold_sameButHolds false v e.obj e.pos) _ v₁
    · rfl
  have paths : sameButHolds v₂ v₃ := foldl_sameButHolds (fun v (e : Elem) => setSection_sameButHolds v e.obj _) _ v₂
  have overlaps : sameButHolds v₃ v₄ := foldl_sameButHolds (fun v (e : Elem) => setSection_sameButHolds v e.obj _) _ v₃
  exact ⟨v₄, sameButHolds_trans routeHolds (sameButHolds_trans flankHolds (sameButHolds_trans paths overlaps)), rfl⟩

@[simp] theorem route_free (v : Ive) (r q : Nat) : (v.free r).route q = if q = r then freeRoute else v.route q := by
  obtain ⟨w, hw, he⟩ := free_eq_setRoute v r
  rw [he, route_setRoute, hw]
  rfl

@[simp] theorem expired_free (v : Ive) (r : Nat) : (v.free r).expired = v.expired := by
  obtain ⟨w, hw, he⟩ := free_eq_setRoute v r
  rw [he, hw]
  rfl

theorem route_foldl_free (l : List Nat) (v : Ive) (q : Nat) :
    (l.foldl free v).route q = if q ∈ l then freeRoute else v.route q := by
  induction l generalizing v with
  | nil => simp
  | cons r rs ih =>
    rw [List.foldl_cons, ih, route_free]
    by_cases hq : q ∈ rs <;> simp [hq]

theorem expired_foldl_free (l : List Nat) (v : Ive) : (l.foldl free v).expired = v.expired := by
  induction l generalizing v with
  | nil => rfl
  | cons r rs ih => rw [List.foldl_cons, ih, expired_free]

/-! ### Presets -/

theorem presetCycles_of_pos (p : Nat) {tv : Nat} (h : 0 < tv) : presetCycles p tv = (p * 100 + tv - 1) / tv + 1 := by
  rw [presetCycles, if_neg h.ne']

/-- The cycles of a preset less one are the least that last as long as the preset (R189). -/
theorem presetCycles_covers (p : Nat) {tv : Nat} (h : 0 < tv) :
    p * 100 ≤ (presetCycles p tv - 1) * tv ∧ (presetCycles p tv - 1) * tv < p * 100 + tv := by
  rw [presetCycles_of_pos p h, Nat.add_sub_cancel]
  have below := Nat.div_mul_le_self (p * 100 + tv - 1) tv
  have above := Nat.lt_div_mul_add (a := p * 100 + tv - 1) h
  omega

/-- A decision `x` ms into its cycle expires at least the preset and less than the preset and two cycles later (R189). -/
theorem presetCycles_expiry (p : Nat) {tv x : Nat} (h : 0 < tv) (hx : x ≤ tv) :
    p * 100 ≤ presetCycles p tv * tv - x ∧ presetCycles p tv * tv - x < p * 100 + 2 * tv := by
  obtain ⟨below, above⟩ := presetCycles_covers p h
  have oneMore : presetCycles p tv * tv = (presetCycles p tv - 1) * tv + tv := by
    rw [presetCycles_of_pos p h, Nat.add_sub_cancel, Nat.add_one_mul]
  omega

end Ive

namespace State

/-! ### IVE_TIMER_EXPIRY -/

theorem noted_setIve {s t : State} (h : noted s t) (v : Ive) : noted (s.setIve v) (t.setIve v) :=
  ⟨by rw [h.1]; rfl, h.2⟩

theorem noted_showHold {s t : State} (h : noted s t) : noted s.showHold t.showHold := by
  have hive : t.ive = s.ive := by rw [h.1]
  refine ⟨by rw [showHold, showHold, h.1]; rfl, fun a ha => ?_⟩
  simp only [showHold, hive]
  by_cases hw : a = Reg.IVE_HOLD
  · rw [hw, reg_setReg_same, reg_setReg_same]
  · rw [reg_setReg_ne _ _ _ _ hw, reg_setReg_ne _ _ _ _ hw, h.2 a ha]

/-- The routes whose timers are due at the next boundary, in route number order (R190). -/
def dueRoutes (s : State) : List Nat :=
  (s.ive.routes.filter fun e => match e.2.timer with
    | some x => !later x.2 (s.vcyc + 1)
    | none => false).map Prod.fst

/-- The expiry of one route's timer (R190 step 3). -/
def expireRoute (s : State) (r : Nat) : State :=
  (((s.setIve (s.ive.free r)).raiseRec 0x0204 Page.IVE (w32 r) [w32 (s.ive.route r).state]).raiseEvt Page.IVE
    Evt.IVE_TIMER_EXPIRED).podCount 25 1

/-- The timers left for the next cycle are flagged and counted (R190 step 3). -/
def deferExpiries (s : State) (n : Nat) : State :=
  if 8 < n then (s.raiseEvt Page.IVE Evt.IVE_EXPIRY_DEFER).podCount 26 (n - 8) else s

theorem expireTimers_of_expired {s : State} (h : s.ive.expired = true) : s.expireTimers = s := if_pos h

theorem expireTimers_of_not_expired {s : State} (h : s.ive.expired = false) :
    s.expireTimers = (((s.dueRoutes.take 8).foldl expireRoute (s.setIve { s.ive with expired := true })).deferExpiries
      s.dueRoutes.length).showHold :=
  if_neg (by rw [h]; decide)

theorem expireRoute_noted (s : State) (r : Nat) : noted (s.setIve (s.ive.free r)) (s.expireRoute r) :=
  noted_trans (raiseRec_noted _ _ _ _ _) (noted_trans (raiseEvt_noted _ _ _ (by decide)) (podCount_noted _ _ _ (by decide)))

theorem foldl_expireRoute_noted (l : List Nat) (s : State) :
    noted (s.setIve (l.foldl Ive.free s.ive)) (l.foldl expireRoute s) := by
  induction l generalizing s with
  | nil => exact noted_refl s
  | cons r rs ih =>
    have first := expireRoute_noted s r
    have rest := ih (s.expireRoute r)
    have hive : (s.expireRoute r).ive = s.ive.free r := by rw [first.1]; rfl
    rw [hive] at rest
    exact noted_trans (noted_setIve first _) rest

theorem deferExpiries_noted (s : State) (n : Nat) : noted s (s.deferExpiries n) := by
  unfold deferExpiries
  split
  · exact noted_trans (raiseEvt_noted _ _ _ (by decide)) (podCount_noted _ _ _ (by decide))
  · exact noted_refl s

/-- The first expiry of a cycle makes the first eight due routes FREE and shows the holds; beside that it only raises, counts and records
(R190 step 3). -/
theorem expireTimers_noted {s : State} (h : s.ive.expired = false) :
    noted (s.setIve ((s.dueRoutes.take 8).foldl Ive.free { s.ive with expired := true })).showHold s.expireTimers := by
  rw [expireTimers_of_not_expired h]
  exact noted_showHold (noted_trans (foldl_expireRoute_noted _ (s.setIve { s.ive with expired := true })) (deferExpiries_noted _ _))

end State

/-! ### IVE_SCRUB -/

theorem exec_iveScrub_clean_noted {s : State} (h : s.flag Fld.IVE_CTRL_SCRUB_EN = true) (passes corrected : Nat) :
    ∃ t, exec (.iveScrub (.clean passes corrected)) s = .next t ∧
      noted ((s.addSat Fld.IVE_SCRUB_PASSES passes).addSat Fld.IVE_SCRUB_CORR corrected) t := by
  refine ⟨_, if_neg (not_not.mpr h), ?_⟩
  split
  · exact raiseEvt_noted _ _ _ (by decide)
  · exact noted_refl _

/-- Settles O23: the cycles of a preset are the least that cover it and one more, and an expiry of timers frees the due routes one after the
other, where freeing one leaves every other route alone. -/
theorem iveTimersAndScrub : Obligations.IveTimersAndScrub := by
  unfold Obligations.IveTimersAndScrub
  refine ⟨fun p tv htv => ?_, fun v r st n c => ?_, fun s hs => ?_, fun s hs => ?_, fun s passes corrected hs => ?_⟩
  · obtain ⟨below, above⟩ := Ive.presetCycles_covers p htv
    exact ⟨Nat.le_add_left 1 _, below, above, fun x hx => Ive.presetCycles_expiry p htv hx⟩
  · rw [Ive.startTimer, Ive.route_setRoute, if_pos rfl]
  · have frame := (expireTimers_noted hs).1
    have hive : s.expireTimers.ive = (s.dueRoutes.take 8).foldl Ive.free { s.ive with expired := true } := by rw [frame]; rfl
    refine ⟨s.expireTimers, rfl, fun r hr => ?_, fun r hr => ?_, ?_, ?_, ?_, ?_⟩
    · rw [hive, Ive.route_foldl_free]
      exact if_pos hr
    · rw [hive, Ive.route_foldl_free]
      exact if_neg hr
    · rw [hive, Ive.expired_foldl_free]
    · rw [frame]; rfl
    · rw [frame]; rfl
    · rw [frame]; rfl
  · exact congrArg Host.Outcome.next (expireTimers_of_expired hs)
  · exact exec_iveScrub_clean_noted hs passes corrected

end Sys2Proof.Machine
end

section
/-! SUPPORT. The interrupt controller (R341 to R346): the registers of its page that ringing a source and raising an event leave alone, one
equation for each way in which a ring, a withdrawal, a claim and a completion can go, and the choice of the best source. -/

namespace Sys2Proof.Machine

open State

namespace State

/-! ### Fields and saturating counters -/

theorem fld_congr {s t : State} {f : Field} (h : t.reg f.addr = s.reg f.addr) : t.fld f = s.fld f := by
  rw [fld, fld, h]

theorem fld_addSat_same (s : State) {f : Field} (n : Nat) (h : f.lo ≤ f.hi) (hh : f.hi < 32) :
    (s.addSat f n).fld f = min (s.fld f + n) (2 ^ (f.hi - f.lo + 1) - 1) := by
  rw [addSat, fld_setFld_same _ _ _ h hh]
  refine Nat.mod_eq_of_lt (lt_of_le_of_lt (Nat.min_le_right _ _) ?_)
  have := Nat.two_pow_pos (f.hi - f.lo + 1)
  omega

theorem fld_addSat_ne (s : State) {f g : Field} (n : Nat) (h : g.addr ≠ f.addr) : (s.addSat f n).fld g = s.fld g :=
  fld_setFld_ne s f g _ h

theorem reg_addSat_ne (s : State) {f : Field} {a : Nat} (n : Nat) (h : a ≠ f.addr) : (s.addSat f n).reg a = s.reg a :=
  reg_setFld_ne s f a _ h

theorem flag_setFld_one (s : State) {f : Field} (bit : f.hi = f.lo) (hh : f.hi < 32) : (s.setFld f 1).flag f = true := by
  rw [flag, fld_setFld_same s f 1 bit.ge hh, bit, Nat.sub_self]
  rfl

/-! ### The state and the route of a source (R341) -/

theorem srcState_lt_four (s : State) (n : Nat) : s.fld (Fld.IRQ_SRCn_STATE n) < 4 := Nat.mod_lt _ (Nat.two_pow_pos 2)

/-- What a ring finds: an IDLE source, one that is PENDING beside its claim or not, or one that is only claimed (R341). -/
theorem srcState_cases (s : State) (n : Nat) :
    s.fld (Fld.IRQ_SRCn_STATE n) = 0 ∨ (s.fld (Fld.IRQ_SRCn_STATE n) = 1 ∨ s.fld (Fld.IRQ_SRCn_STATE n) = 3) ∨
      s.fld (Fld.IRQ_SRCn_STATE n) = 2 := by
  have := srcState_lt_four s n
  omega

theorem reg_irqState_ne (s : State) {n a : Nat} (st : Nat) (h : a ≠ Reg.IRQ_SRCn n) : (s.irqState n st).reg a = s.reg a :=
  reg_setFld_ne s (Fld.IRQ_SRCn_STATE n) a st h

theorem srcState_irqState_same (s : State) (n : Nat) {st : Nat} (h : st < 4) :
    (s.irqState n st).fld (Fld.IRQ_SRCn_STATE n) = st :=
  (fld_setFld_same s (Fld.IRQ_SRCn_STATE n) st (by decide : 0 ≤ 1) (by decide : 1 < 32)).trans (Nat.mod_eq_of_lt h)

theorem srcAddr_ne {k n : Nat} (h : k ≠ n) : Reg.IRQ_SRCn k ≠ Reg.IRQ_SRCn n := by
  simp only [Reg.IRQ_SRCn]
  omega

theorem srcAddr_lt {n : Nat} (h : n < 256) : Reg.IRQ_SRCn n < 0x40048000 := by
  simp only [Reg.IRQ_SRCn]
  omega

/-- The sources' registers stand behind the others of their page. -/
theorem srcAddr_ne_of_lt (n : Nat) {a : Nat} (h : a < 0x40040100) : Reg.IRQ_SRCn n ≠ a := by
  simp only [Reg.IRQ_SRCn]
  omega

/-- The other fields of a source's register stay when its state changes. -/
theorem fld_irqState_disj (s : State) (n st : Nat) {f : Field} (e : f.lo ≤ f.hi) (hh : f.hi < 32) (h : 1 < f.lo) :
    (s.irqState n st).fld f = s.fld f :=
  fld_setFld_disj s (Fld.IRQ_SRCn_STATE n) f st (by decide : 0 ≤ 1) e hh (.inl h)

/-- The route of a source that leaves IDLE is fixed as it is (R341). -/
theorem irqRoute_irqState (s : State) (n : Nat) {st : Nat} (h : st ≠ 0) : (s.irqState n st).irqRoute n = s.irqRoute n := by
  simp [irqState, irqRoute, h]

theorem irqRoute_setFld_ne (s : State) {n : Nat} {f : Field} (v : Nat) (h : Reg.IRQ_SRCn n ≠ f.addr) :
    (s.setFld f v).irqRoute n = s.irqRoute n := by
  rw [irqRoute, irqRoute, setFld_irqLive, fld_setFld_ne s f (Fld.IRQ_SRCn_TARGET n) v h, fld_setFld_ne s f (Fld.IRQ_SRCn_PRIO n) v h]

/-! ### What an entry of an event ring leaves alone (R344) -/

theorem reg_intoStaging_ne (s : State) (r : Rec) {a : Nat} (h : a ≠ Reg.EVR_STAGE) : (s.intoStaging r).reg a = s.reg a := by
  simp only [intoStaging, raiseMax]
  split
  · exact reg_setFld_ne _ Fld.EVR_STAGE_MAX a _ h
  · rfl

theorem reg_loseStaged_ne (s : State) (r : Rec) {a : Nat} (h : a ≠ Reg.EVR_LOSSc (codeClass r.code)) :
    (s.loseStaged r).reg a = s.reg a :=
  reg_addSat_ne s (f := Fld.EVR_LOSSc_LOST (codeClass r.code)) 1 h

/-- Recording a source touches the recorder's page and those above it. -/
theorem reg_irqRecord_below (s : State) (n i : Nat) {a : Nat} (h : a < 0x40048000) : (s.irqRecord n i).reg a = s.reg a := by
  unfold irqRecord
  extract_lets r dropped
  split
  · exact reg_intoStaging_ne s r (by rw [Reg.EVR_STAGE]; omega)
  · calc _ = dropped.reg a := reg_setFld_ne _ _ _ _ (by simp only [Fld.PMON_PODi_COUNT, Reg.PMON_PODi]; omega)
      _ = (s.loseStaged r).reg a := reg_setFld_ne _ _ _ _ (by simp only [regAddr, Page.EVR]; omega)
      _ = s.reg a := reg_loseStaged_ne s r (by simp only [Reg.EVR_LOSSc]; omega)

@[simp] theorem reg_offer (s : State) (i c p : Nat) (w : Word) (e : EventEntry) (q : Option Word) (a : Nat) :
    (s.offer i c p w e q).reg a = s.reg a := by
  unfold offer
  split <;> rfl

theorem reg_irqToRing_ne (s : State) {n a : Nat} (h : a < 0x40048000) (hn : a ≠ Reg.IRQ_SRCn n) :
    (s.irqToRing n).reg a = s.reg a := by
  unfold irqToRing
  extract_lets target idle recorded
  split
  · rw [reg_offer, reg_irqRecord_below _ _ _ h, reg_irqState_ne _ _ hn]
  · rfl

/-- An entry that is offered stands in a window: its own, or the one of its key that is open (R321, R374). -/
theorem exists_window_offer (s : State) (i c p : Nat) (x : Word) (e : EventEntry) (q : Option Word) :
    ∃ w ∈ (s.offer i c p x e q).windows, w.session = i ∧ w.kind = e.kind ∧ w.source = x := by
  unfold offer
  split
  case isTrue h =>
    obtain ⟨w, hw, hkey⟩ := List.any_eq_true.mp h
    refine ⟨_, List.mem_map.mpr ⟨w, hw, rfl⟩, ?_⟩
    rw [if_pos hkey]
    simp only [sameKey, Bool.and_eq_true, decide_eq_true_eq] at hkey
    obtain ⟨⟨⟨⟨⟨session, kind⟩, -⟩, -⟩, source⟩, -⟩ := hkey
    exact ⟨session, kind, source⟩
  case isFalse => exact ⟨_, List.mem_append_right _ (List.mem_singleton.mpr rfl), rfl, rfl, rfl⟩

/-- A PENDING source of an event ring that is not masked enters its entry there and becomes IDLE (R344). -/
theorem irqToRing_pending {s : State} {n : Nat} (pending : s.fld (Fld.IRQ_SRCn_STATE n) = 1) (ring : 4 ≤ (s.irqRoute n).1)
    (unmasked : s.fld (Fld.IRQ_SRCn_MASK n) = 0) (hn : n < 256) :
    (s.irqToRing n).fld (Fld.IRQ_SRCn_STATE n) = 0 ∧
      ∃ w ∈ (s.irqToRing n).windows, w.session = (s.irqRoute n).1 - 4 ∧ w.kind = 1 ∧ w.source = w32 n := by
  simp only [irqToRing, if_pos (⟨pending, ring, unmasked⟩ : _ ∧ _ ∧ _)]
  refine ⟨?_, exists_window_offer _ _ _ _ _ _ _⟩
  refine (fld_congr ?_).trans (srcState_irqState_same s n (by decide : 0 < 4))
  rw [reg_offer]
  exact reg_irqRecord_below _ _ _ (srcAddr_lt hn)

theorem irqToRing_of_core {s : State} {n : Nat} (core : (s.irqRoute n).1 < 4) : s.irqToRing n = s :=
  if_neg (by omega)

/-! ### A ring (R341) -/

/-- The state with one more ring counted. -/
def countRing (s : State) : State := s.addSat Fld.IRQ_RINGCNT_RINGS 1

theorem reg_countRing_ne (s : State) {a : Nat} (h : a ≠ Reg.IRQ_RINGCNT) : s.countRing.reg a = s.reg a := reg_addSat_ne s 1 h

theorem srcState_countRing (s : State) (n : Nat) : s.countRing.fld (Fld.IRQ_SRCn_STATE n) = s.fld (Fld.IRQ_SRCn_STATE n) :=
  fld_addSat_ne s 1 (srcAddr_ne_of_lt n (by decide))

theorem irqRoute_countRing (s : State) (n : Nat) : s.countRing.irqRoute n = s.irqRoute n :=
  irqRoute_setFld_ne s _ (srcAddr_ne_of_lt n (by decide))

theorem ringSource_idle {s : State} {n : Nat} (h : s.fld (Fld.IRQ_SRCn_STATE n) = 0) :
    s.ringSource n = (s.countRing.irqState n 1).irqToRing n := by
  rw [← srcState_countRing] at h
  rw [ringSource, ← countRing]
  simp only [h]

theorem ringSource_idle_core {s : State} {n : Nat} (h : s.fld (Fld.IRQ_SRCn_STATE n) = 0) (core : (s.irqRoute n).1 < 4) :
    s.ringSource n = s.countRing.irqState n 1 := by
  rw [ringSource_idle h, irqToRing_of_core]
  rwa [irqRoute_irqState _ _ one_ne_zero, irqRoute_countRing]

theorem ringSource_claimed {s : State} {n : Nat} (h : s.fld (Fld.IRQ_SRCn_STATE n) = 2) :
    s.ringSource n = s.countRing.irqState n 3 := by
  rw [← srcState_countRing] at h
  rw [ringSource, ← countRing]
  simp only [h]

/-- A source that is PENDING already, beside its claim or not, has nothing to gain from a ring (R341). -/
theorem ringSource_already_pending {s : State} {n : Nat} (h : s.fld (Fld.IRQ_SRCn_STATE n) = 1 ∨ s.fld (Fld.IRQ_SRCn_STATE n) = 3) :
    s.ringSource n = s.countRing := by
  rw [← srcState_countRing] at h
  rw [ringSource, ← countRing]
  rcases h with h | h <;> simp only [h]

/-- A ring of a source that goes to a core: IDLE becomes PENDING, ACTIVE becomes ACTIVE_PENDING, PENDING stays (R341). -/
theorem ringSource_core (s : State) {n : Nat} (core : (s.irqRoute n).1 < 4) :
    (s.fld (Fld.IRQ_SRCn_STATE n) = 0 → (s.ringSource n).fld (Fld.IRQ_SRCn_STATE n) = 1) ∧
    (s.fld (Fld.IRQ_SRCn_STATE n) = 1 → (s.ringSource n).fld (Fld.IRQ_SRCn_STATE n) = 1) ∧
    (s.fld (Fld.IRQ_SRCn_STATE n) = 2 → (s.ringSource n).fld (Fld.IRQ_SRCn_STATE n) = 3) ∧
    s.ringSource n = { s with regs := (s.ringSource n).regs, irqLive := (s.ringSource n).irqLive } := by
  refine ⟨fun idle => ?_, fun pending => ?_, fun claimed => ?_, ?_⟩
  · rw [ringSource_idle_core idle core]
    exact srcState_irqState_same _ n (by decide)
  · rw [ringSource_already_pending (.inl pending), srcState_countRing, pending]
  · rw [ringSource_claimed claimed]
    exact srcState_irqState_same _ n (by decide)
  · rcases srcState_cases s n with idle | pending | claimed
    · rw [ringSource_idle_core idle core]; rfl
    · rw [ringSource_already_pending pending]; rfl
    · rw [ringSource_claimed claimed]; rfl

/-- Below the recorder's page a ring touches its count and its source. -/
theorem reg_ringSource_ne (s : State) {n a : Nat} (h : a < 0x40048000) (hr : a ≠ Reg.IRQ_RINGCNT) (hn : a ≠ Reg.IRQ_SRCn n) :
    (s.ringSource n).reg a = s.reg a := by
  rcases srcState_cases s n with idle | pending | claimed
  · rw [ringSource_idle idle, reg_irqToRing_ne _ h hn, reg_irqState_ne _ _ hn, reg_countRing_ne _ hr]
  · rw [ringSource_already_pending pending, reg_countRing_ne _ hr]
  · rw [ringSource_claimed claimed, reg_irqState_ne _ _ hn, reg_countRing_ne _ hr]

/-- A ring of a source of an event ring that is IDLE and not masked enters the source's entry there, and the source stays IDLE (R344). -/
theorem ringSource_idle_ring {s : State} {n : Nat} (idle : s.fld (Fld.IRQ_SRCn_STATE n) = 0) (ring : 4 ≤ (s.irqRoute n).1)
    (unmasked : s.fld (Fld.IRQ_SRCn_MASK n) = 0) (hn : n < 256) :
    (s.ringSource n).fld (Fld.IRQ_SRCn_STATE n) = 0 ∧
      ∃ w ∈ (s.ringSource n).windows, w.session = (s.irqRoute n).1 - 4 ∧ w.kind = 1 ∧ w.source = w32 n := by
  have route : (s.countRing.irqState n 1).irqRoute n = s.irqRoute n := by
    rw [irqRoute_irqState _ _ one_ne_zero, irqRoute_countRing]
  have mask : (s.countRing.irqState n 1).fld (Fld.IRQ_SRCn_MASK n) = 0 :=
    (fld_irqState_disj _ n 1 (le_refl 31) (by decide : 31 < 32) (by decide : 1 < 31)).trans
      ((fld_addSat_ne s 1 (srcAddr_ne_of_lt n (by decide))).trans unmasked)
  rw [ringSource_idle idle, ← route]
  exact irqToRing_pending (srcState_irqState_same _ n (by decide)) (route ▸ ring) mask hn

/-! ### Events (R335, R336) -/

/-- Below the recorder's page an event touches its flag, the count of rings and its source. -/
theorem reg_raiseEvt_ne (s : State) {page b a : Nat} (h : a < 0x40048000) (he : a ≠ regAddr page 0x14) (hr : a ≠ Reg.IRQ_RINGCNT)
    (hs : a ≠ Reg.IRQ_SRCn (irqBase page + b)) : (s.raiseEvt page b).reg a = s.reg a := by
  simp only [raiseEvt]
  split
  · rw [reg_ringSource_ne _ h hr hs, reg_setFld_ne _ _ _ _ he]
  · exact reg_setFld_ne _ _ _ _ he

/-- Below the sources' registers an event touches its flag and the count of rings. -/
theorem reg_raiseEvt_of_lt (s : State) {page b a : Nat} (h : a < 0x40040100) (he : a ≠ regAddr page 0x14) (hr : a ≠ Reg.IRQ_RINGCNT) :
    (s.raiseEvt page b).reg a = s.reg a :=
  reg_raiseEvt_ne s (by omega) he hr (srcAddr_ne_of_lt _ h).symm

/-- An event of the interrupt controller sets its flag (R335). -/
theorem flag_raiseEvt_irq (s : State) {b : Nat} (hb : b < 32) :
    (s.raiseEvt Page.IRQ b).flag ⟨regAddr Page.IRQ 0x14, b, b⟩ = true := by
  have raised := flag_setFld_one s (f := ⟨regAddr Page.IRQ 0x14, b, b⟩) rfl hb
  simp only [raiseEvt]
  split
  · have source (n : Nat) : regAddr Page.IRQ 0x14 ≠ Reg.IRQ_SRCn n := (srcAddr_ne_of_lt n (by decide)).symm
    rw [flag, fld_congr (reg_ringSource_ne _ (by decide : regAddr Page.IRQ 0x14 < 0x40048000)
      (by decide : regAddr Page.IRQ 0x14 ≠ Reg.IRQ_RINGCNT) (source _))]
    exact raised
  · exact raised

/-- Below the sources' registers a pod counter touches the count of rings, by its wrap. -/
theorem reg_podCount_of_lt (s : State) {i n a : Nat} (h : a < 0x40040100) (hr : a ≠ Reg.IRQ_RINGCNT) :
    (s.podCount i n).reg a = s.reg a := by
  have counted := reg_setFld_ne s (Fld.PMON_PODi_COUNT i) a (s.fld (Fld.PMON_PODi_COUNT i) + n)
    (by simp only [Fld.PMON_PODi_COUNT, Reg.PMON_PODi]; omega)
  simp only [podCount]
  split
  · exact counted
  · rw [reg_raiseEvt_of_lt _ h (by simp only [regAddr, Page.PMON]; omega) hr, counted]

/-! ### Withdrawals (R346) -/

theorem withdrawSource_of_pending {s : State} {n : Nat} (h : s.fld (Fld.IRQ_SRCn_STATE n) = 1) : s.withdrawSource n = s.irqState n 0 :=
  if_pos h

theorem withdrawSource_of_not_pending {s : State} {n : Nat} (h : s.fld (Fld.IRQ_SRCn_STATE n) ≠ 1) : s.withdrawSource n = s := if_neg h

/-! ### The best source (R342) -/

/-- The better of the best source so far and source `n`. -/
def betterSource (s : State) (c : Nat) (best : Option Nat) (n : Nat) : Option Nat :=
  if ¬ s.deliverable c n then best else
  match best with
  | none => some n
  | some m => if (s.irqRoute n).2 < (s.irqRoute m).2 then some n else some m

theorem bestSource_eq_foldl (s : State) (c : Nat) : s.bestSource c = (List.range 256).foldl (s.betterSource c) none := rfl

theorem betterSource_cases (s : State) (c : Nat) (best : Option Nat) (n : Nat) :
    s.betterSource c best n = best ∨ s.deliverable c n = true ∧ s.betterSource c best n = some n := by
  unfold betterSource
  split
  case isTrue => exact .inl rfl
  case isFalse h =>
    have deliverable : s.deliverable c n = true := not_not.mp h
    cases best with
    | none => exact .inr ⟨deliverable, rfl⟩
    | some m =>
      by_cases lower : (s.irqRoute n).2 < (s.irqRoute m).2
      · exact .inr ⟨deliverable, if_pos lower⟩
      · exact .inl (if_neg lower)

theorem isSome_betterSource (s : State) (c : Nat) (best : Option Nat) (n : Nat) :
    (s.betterSource c best n).isSome = true ↔ best.isSome = true ∨ s.deliverable c n = true := by
  unfold betterSource
  by_cases h : s.deliverable c n = true
  · cases best with
    | none => simp [h]
    | some m => by_cases lower : (s.irqRoute n).2 < (s.irqRoute m).2 <;> simp [h, lower]
  · simp [h]

theorem isSome_foldl_betterSource (s : State) (c : Nat) (l : List Nat) (best : Option Nat) :
    (l.foldl (s.betterSource c) best).isSome = true ↔ best.isSome = true ∨ ∃ n ∈ l, s.deliverable c n = true := by
  induction l generalizing best with
  | nil => simp
  | cons n ns ih => rw [List.foldl_cons, ih, isSome_betterSource, or_assoc, List.exists_mem_cons_iff]

/-- There is a best source when some source is deliverable. -/
theorem isSome_bestSource_iff (s : State) (c : Nat) :
    (s.bestSource c).isSome = true ↔ ∃ n < 256, s.deliverable c n = true := by
  rw [bestSource_eq_foldl, isSome_foldl_betterSource]
  simp

/-- The best source is one of the 256, and deliverable. -/
theorem deliverable_of_bestSource {s : State} {c n : Nat} (h : s.bestSource c = some n) : n < 256 ∧ s.deliverable c n = true := by
  refine List.foldlRecOn (motive := fun best => ∀ m, best = some m → m < 256 ∧ s.deliverable c m = true)
    (List.range 256) (s.betterSource c) (by rintro m ⟨⟩) (fun best ih k hk m hm => ?_) n h
  rcases betterSource_cases s c best k with stays | ⟨deliverable, taken⟩
  · exact ih m (stays ▸ hm)
  · obtain rfl : k = m := Option.some.inj (taken ▸ hm)
    exact ⟨List.mem_range.mp hk, deliverable⟩

/-! ### Claims (R342) -/

theorem irqClaim_best {s : State} {c n : Nat} (h : s.bestSource c = some n) :
    s.irqClaim c = (s.irqState n 2).setReg (Reg.IRQ_CLAIMEDc c) (w32 (2 ^ 31 + n)) := by
  simp only [irqClaim, h]

theorem irqClaim_spurious {s : State} {c : Nat} (h : s.bestSource c = none) :
    s.irqClaim c = (((s.podCount 63 1).setReg (Reg.IRQ_CLAIMEDc c) (w32 (2 ^ 31 + 0x3FF))).addSat Fld.IRQ_SPURCNT_SPUR 1).raiseEvt
      Page.IRQ Evt.IRQ_SPURIOUS := by
  simp only [irqClaim, h]

/-- What a claim shows stands behind the header and the counters of its page, and before the sources' registers. -/
theorem claimedAddr_bounds {c : Nat} (hc : c < 4) : Reg.IRQ_SPURCNT < Reg.IRQ_CLAIMEDc c ∧ Reg.IRQ_CLAIMEDc c < 0x40040100 := by
  simp only [Reg.IRQ_SPURCNT, Reg.IRQ_CLAIMEDc]
  omega

theorem irqClaim_best_shown {s : State} {c n : Nat} (hc : c < 4) (h : s.bestSource c = some n) :
    (s.irqClaim c).fld (Fld.IRQ_SRCn_STATE n) = 2 ∧ (s.irqClaim c).reg (Reg.IRQ_CLAIMEDc c) = w32 (2 ^ 31 + n) := by
  rw [irqClaim_best h, reg_setReg_same, fld_setReg_ne _ _ _ _ (srcAddr_ne_of_lt n (claimedAddr_bounds hc).2)]
  exact ⟨srcState_irqState_same s n (by decide), rfl⟩

/-- A claim that finds nothing is shown as spurious and counted. -/
theorem irqClaim_spurious_shown {s : State} {c : Nat} (hc : c < 4) (h : s.bestSource c = none) :
    (s.irqClaim c).reg (Reg.IRQ_CLAIMEDc c) = w32 (2 ^ 31 + 0x3FF) ∧
      (s.irqClaim c).fld Fld.IRQ_SPURCNT_SPUR = min (s.fld Fld.IRQ_SPURCNT_SPUR + 1) (2 ^ 32 - 1) := by
  obtain ⟨above, below⟩ := claimedAddr_bounds hc
  have behind {a : Nat} (ha : a ≤ Reg.IRQ_SPURCNT) : Reg.IRQ_CLAIMEDc c ≠ a := (ha.trans_lt above).ne'
  rw [irqClaim_spurious h]
  constructor
  · rw [reg_raiseEvt_of_lt _ below (behind (by decide)) (behind (by decide)), reg_addSat_ne _ _ (behind (by decide)), reg_setReg_same]
  · rw [fld_congr (reg_raiseEvt_of_lt _ (by decide) (by decide) (by decide)), fld_addSat_same _ _ (by decide) (by decide),
      fld_setReg_ne _ _ _ _ (behind le_rfl).symm, fld_congr (reg_podCount_of_lt s (by decide) (by decide))]
    rfl

/-! ### Completions (R343) -/

theorem irqDone_claimed {s : State} {c n : Nat} (hn : n < 256) (target : (s.irqRoute n).1 = c)
    (claimed : 2 ≤ s.fld (Fld.IRQ_SRCn_STATE n)) : (s.irqDone c n).1 = s.irqState n (s.fld (Fld.IRQ_SRCn_STATE n) - 2) := by
  rw [irqDone, if_pos ⟨by omega, claimed, target⟩]

theorem irqDone_refused {s : State} {c n : Nat}
    (h : 255 < n ∨ (s.irqRoute n).1 ≠ c ∨ s.fld (Fld.IRQ_SRCn_STATE n) < 2) :
    (s.irqDone c n).1 = (s.errAddr Page.IRQ 5 (0x88 + 16 * c)).raiseEvt Page.IRQ Evt.IRQ_BADDONE := by
  rw [irqDone, if_neg (by omega)]

/-- A refused completion shows its cause and changes no source but that of its event. -/
theorem irqDone_refused_shown {s : State} {c n : Nat} (hc : c < 4)
    (h : 255 < n ∨ (s.irqRoute n).1 ≠ c ∨ s.fld (Fld.IRQ_SRCn_STATE n) < 2) :
    bitsOf 31 28 ((s.irqDone c n).1.reg (regAddr Page.IRQ 0x2C)).toNat = 8 + 5 ∧
      (s.irqDone c n).1.flag ⟨regAddr Page.IRQ 0x14, Evt.IRQ_BADDONE, Evt.IRQ_BADDONE⟩ = true ∧
      ∀ k < 256, k ≠ irqBase Page.IRQ + Evt.IRQ_BADDONE →
        (s.irqDone c n).1.fld (Fld.IRQ_SRCn_STATE k) = s.fld (Fld.IRQ_SRCn_STATE k) := by
  rw [irqDone_refused h]
  refine ⟨?_, flag_raiseEvt_irq _ (by decide), fun k hk other => ?_⟩
  · rw [reg_raiseEvt_of_lt _ (by decide) (by decide) (by decide), errAddr, reg_setReg_same,
      bitsOf_w32 31 28 _ (by decide) (by decide), bitsOf]
    omega
  · have header {a : Nat} : a < 0x40040100 → Reg.IRQ_SRCn k ≠ a := srcAddr_ne_of_lt k
    exact fld_congr ((reg_raiseEvt_ne _ (srcAddr_lt hk) (header (by decide)) (header (by decide)) (srcAddr_ne other)).trans
      (reg_setReg_ne s _ _ _ (header (by decide))))

end State

/-! ### The commands -/

section Commands

variable {s : State}

theorem byCore_of_firmwareRuns (h : s.firmwareRuns = true) (f : State → State) : s.byCore f = .next (f s) := by
  rw [State.byCore, if_pos h]

theorem doorbell_of_not_reservedSource {n : Nat} (hn : reservedSource n = false) (withdraw : Bool) :
    (s.doorbell withdraw n).1 = if withdraw then s.withdrawSource n else s.ringSource n := by
  rw [State.doorbell, if_neg (by rw [hn]; decide)]

theorem exec_doorbellRing (h : s.firmwareRuns = true) (c : Fin 4) {n : BitVec 10} (hn : reservedSource n.toNat = false) :
    exec (.doorbellRing c n) s = .next (s.ringSource n.toNat) := by
  change execDoorbellRing c n s = _
  rw [execDoorbellRing, byCore_of_firmwareRuns h, doorbell_of_not_reservedSource hn]
  rfl

theorem exec_doorbellWithdraw (h : s.firmwareRuns = true) (c : Fin 4) {n : BitVec 10} (hn : reservedSource n.toNat = false) :
    exec (.doorbellWithdraw c n) s = .next (s.withdrawSource n.toNat) := by
  change execDoorbellWithdraw c n s = _
  rw [execDoorbellWithdraw, byCore_of_firmwareRuns h, doorbell_of_not_reservedSource hn]
  rfl

theorem exec_irqClaim (h : s.firmwareRuns = true) (c : Fin 4) : exec (.irqClaim c) s = .next (s.irqClaim c) := by
  change execIrqClaim c s = _
  rw [execIrqClaim, byCore_of_firmwareRuns h]

theorem exec_irqDone (h : s.firmwareRuns = true) (c : Fin 4) (n : BitVec 10) :
    exec (.irqDone c n) s = .next (s.irqDone c n.toNat).1 := by
  change execIrqDone c n s = _
  rw [execIrqDone, byCore_of_firmwareRuns h]

end Commands

theorem lt_of_not_reservedSource {n : Nat} (h : reservedSource n = false) : n < 256 := by
  simp only [reservedSource, Bool.or_eq_false_iff, decide_eq_false_iff_not] at h
  omega

/-- Settles O59: each command updates the state of at most the source it names, and what it writes beside that (the entry of an event ring,
`IRQ_CLAIMEDc`, an event with a source of its own) lies at other addresses. -/
theorem interrupts : Obligations.Interrupts := by
  unfold Obligations.Interrupts
  intro s c runs st
  refine ⟨fun n hn core => ?_, fun n hn ring mask idle => ?_, fun n hn => ?_, fun n best => ?_, fun spurious => ?_, fun n => ⟨?_, ?_⟩⟩
  · have others : ∀ k, k ≠ n.toNat → k < 256 → st (s.ringSource n.toNat) k = st s k := fun k hk hlt =>
      fld_congr (reg_ringSource_ne s (srcAddr_lt hlt) (srcAddr_ne_of_lt k (by decide)) (srcAddr_ne hk))
    obtain ⟨idle, pending, claimed, frame⟩ := ringSource_core s core
    exact ⟨_, exec_doorbellRing runs c hn, idle, claimed, pending, others, frame⟩
  · exact ⟨_, exec_doorbellRing runs c hn, ringSource_idle_ring idle ring mask (lt_of_not_reservedSource hn)⟩
  · refine ⟨_, exec_doorbellWithdraw runs c hn, fun pending => ?_, withdrawSource_of_not_pending⟩
    rw [withdrawSource_of_pending pending]
    exact ⟨srcState_irqState_same s _ (by decide), rfl⟩
  · exact ⟨(deliverable_of_bestSource best).2, _, exec_irqClaim runs c, irqClaim_best_shown c.isLt best⟩
  · exact ⟨_, exec_irqClaim runs c, irqClaim_spurious_shown c.isLt spurious⟩
  · intro hn target claimed
    refine ⟨_, exec_irqDone runs c n, ?_⟩
    rw [irqDone_claimed hn target claimed]
    have lt := srcState_lt_four s n.toNat
    exact ⟨srcState_irqState_same s _ (by omega), fun again => (isSome_bestSource_iff _ c).mpr ⟨_, hn, again⟩, rfl⟩
  · exact fun refused => ⟨_, exec_irqDone runs c n, irqDone_refused_shown c.isLt refused⟩

end Sys2Proof.Machine
end
